-- ==== Sys2Proof/Word.lean ====
section
/-!
DEFINITION. The word types of the MD-480 (spec/00_scope.md R3, R4; spec/01_machine_state.md R15).
-/

namespace Sys2Proof

/-- A byte of memory (R4). -/
abbrev Byte := BitVec 8

/-- The value of a g register, of a lane and of an instruction word (R15, R64). -/
abbrev W32 := BitVec 32

/-- The value of a b register, an address, a predicate or a catalogue word (R15, R36). -/
abbrev W64 := BitVec 64

/-- A taint mask: bit i is set when the value derives from the unbound load holding tag i (R15). -/
abbrev Mask := BitVec 16

/-- The 2,048 bits of a vector register or feed-port entry (R15). -/
abbrev Vec := BitVec 2048

end Sys2Proof
end

