-- ==== Sys2Proof/Config.lean ====
section
/-!
DEFINITION. What an implementation of the MD-480 fixes and the free values: constants with no body, so that no
proof can use a particular value of them. Each is named in a row of notes/assumptions.
-/

namespace Sys2Proof.Config

/-- A free number, one for each value of the state's counter `freeCtr`: the picks the spec leaves to the device
(which free taint tag, Curb entry, phaser, launch entry or cached-translation position is taken; log entry 6). -/
opaque freeNat : Nat → Nat

/-- Nanoseconds of package time that pass during the step numbered by the argument (timing, log entry 2). -/
opaque elapsedNs : Nat → Nat

/-- Core cycles that pass on die `d` during the step numbered by the first argument (timing, log entry 2). -/
opaque elapsedCycles : Nat → Nat → Nat

/-- Byte i of what the memory of another package gives to a walk or a copy unit that reads it at the step numbered by the
first argument (the environment; log entry 15). -/
opaque farByte : Nat → Nat → Byte

/-- How the home of another package answers a request that it translates itself, at the step numbered by the first argument,
by address (the environment; log entry 15). -/
opaque farFault : Nat → Nat → Nat

/-- Where service core i begins to execute its firmware, and its vector base: set by the firmware image (R29, R35, R384, log
entry 69). -/
opaque firmwareStart : Nat → W64
opaque firmwareTrap : Nat → W64

/-- The M queue of a sequencer, or its E queue where the engine has no room, lags behind the groups that follow, at the step
numbered by the argument (R71, R73, log entry 72). -/
opaque queueLags : Nat → Bool

/-- RSASSA-PSS verification of an image (R384): the standard is outside the spec (log entry 13). -/
opaque rsaVerifies : List Byte → Bool

/-- SLH-DSA-SHA2-192s verification of an image (R384, log entry 13). -/
opaque slhVerifies : List Byte → Bool

/-- The SHA-384 digests of both public keys of an image match the fuses (R384, log entry 13). -/
opaque keysMatchFuses : List Byte → Bool

/-- SHA-384 of an image body (R384, log entry 13). -/
opaque sha384 : List Byte → BitVec 384

/-- The fused minimum security version of an image TYPE (R384). -/
opaque fusedMinSvn : Nat → Nat

/-- The 128-bit device identity (R385). -/
opaque deviceIdentity : BitVec 128

/-- The bytes of the two signatures over an attestation report (R385, log entry 13). -/
opaque attestSignatures : List Byte → List Byte

/-- The fields of a report as bytes: nonce, identity, digests and SVNs of the four images, fused minimum SVNs, `ptime`, and
the recovery flag; the spec gives no layout (R385, log entry 13). -/
opaque attestReport (nonce : List Byte) (identity : BitVec 128) (images : List (BitVec 384 × W32)) (minSvns : List Nat)
    (ptime : W64) (recovery : Bool) : List Byte

/-- The allow table that the body of a boot configuration image gives (R379, log entry 12). -/
opaque allowTable : List Byte → List (BitVec 128)

/-- The IPv6 address that the body of a boot configuration image gives the device (R379, log entry 12), and its link-local
address. -/
opaque listenAddress : List Byte → BitVec 128
opaque linkLocal : BitVec 128

/-- The domain is flat: every package lies in block 0 (R311). -/
opaque flatDomain : Bool

/-- The payload of flit i of the packet sent at the step numbered by the first argument: the spec gives no layout of
packets (R305). -/
opaque flitPayload : Nat → Nat → BitVec 448

/-- The package to which an accepted data flit is in transit at the step numbered by the argument, if it is: the spec gives no
layout of a packet's header (R305, R312). -/
opaque flitTransit : Nat → Option (BitVec 15)

/-- Word i of what a peer reports of the blocks that its global links reach, at the step numbered by the first argument: how a
port learns REACH the spec does not give (R310). -/
opaque peerReach : Nat → Nat → BitVec 64

/-- The other packages whose entry of a multicast group is VALID with DIES nonzero, at the step numbered by the first argument
(R212, R315; the environment, log entry 15). -/
opaque farMembers : Nat → Nat → List (BitVec 15)

/-- The largest LEASE in force on the other packages of the domain at a package time (R335; the environment, log entry 15). -/
opaque farLease : Nat → Nat

/-- The words of the catalogue objects whose layout the spec does not give (Curb, phaser, footprint and pending-launch
entries): at the step numbered by the first argument, by key (log entry 16). -/
opaque catWord : Nat → W64 → W64

end Sys2Proof.Config
end

