-- ==== Sys2Proof/Syntax.lean ====
section
/-!
DEFINITION. The steps of the MD-480: one constructor of `Instr` for each row of spec/opcode_table.json.
The first 198 are the 32-bit instruction words (spec/03_encoding_and_assembly.md), the next ten the micro-ops of
matrix routines (R274), the rest the events of the part, whose operands name the agent that acts and carry what
arrives from outside the package. The S and Y bits of a word are kept beside the instruction, in `GroupWord`.
-/

namespace Sys2Proof

/-- How the addresses of a request are to be read at its home (R331): physical; virtual in an ASID that the receiving
Piazza translates (a REMOTE window); offsets n × 0x1_0000 + o among the lots of sequencer `seq` of job `job` (a lot
window or a LOT page, R330); or physical, in the save copy of a lot whose full/empty bits are the 64 bytes from `bits`
(R254). -/
inductive Via where
  | phys
  | remote (asid : BitVec 8)
  | lot (job seq : BitVec 16)
  | copy (bits : W64)
  deriving DecidableEq, Repr

/-- One effect of a store-like request at its home (R123, R131, R135, R185). Addresses are as the request carries
them (`Via`), or offsets for a multicast group (R129). -/
inductive Effect where
  /-- write one byte -/
  | byte (addr : W64) (v : Byte)
  /-- apply operation `op` of Table 5.2 to one word -/
  | accum (addr : W64) (op : BitVec 4) (d : W32)
  /-- set (or clear) the full/empty bit of the line -/
  | mark (addr : W64) (full : Bool)
  /-- the returning read-modify-write of R185: operation 0 to 12, data, compare, return address -/
  | rmw (addr : W64) (op : BitVec 4) (d c : W32) (ret : W64)
  /-- a request for n bytes by another package: `what` 0 a load, 1 `ldfe`, 2 `fecheck`, 3 `swarm`, 4 `swait`, 5 an engine's
  read, 6 the wait of an `ldfe` for its line, 7 its end, with the operand of the sync-word forms (R120, R135, R137, R139, R328) -/
  | read (addr : W64) (what : Nat) (operand : W32) (n : Nat)
  /-- write nothing to n bytes that are translated and checked as a store's (R128, R130) -/
  | check (addr : W64) (n : Nat)
  /-- count n landed bytes in the sync word (R138) -/
  | count (addr : W64) (n : Nat)
  deriving DecidableEq, Repr

/-- The identity of a copy unit (R284, R286): die and channel of its record, the number of its claim and of the unit. -/
structure UnitId where
  die : Nat
  ch : Nat
  claim : W32
  unit : Nat
  deriving DecidableEq, Repr

/-- A request that arrives from another package (R313): the port it comes over, its issuer and its privilege, its stream
position, how its addresses read, its lease expiry and its effects. `pred`: the number of the store of its stream that must
commit here before it (R125). `of`: the number of requests that its store makes of this package. `unit`: the identity of a
copy unit or of an `xrmw`, and the lowest of its source not yet confirmed (R286). `srcDie`: the die of its issuer (R336).
`tag`: the number that a request for bytes is answered under. `vc`: the virtual channel it has come over (R308). -/
structure ExtRequest where
  port : Nat
  vc : BitVec 3
  srcPkg : BitVec 15
  handle : BitVec 24
  job : BitVec 16
  sup : Bool
  stream : BitVec 4
  seqno : BitVec 12
  pred : Option (BitVec 12)
  of : Nat
  srcDie : Nat
  tag : Nat
  unit : Option (UnitId × Nat)
  via : Via
  expiry : W64
  effects : List Effect
  deriving DecidableEq, Repr

/-- Where a request that reaches its home comes from: a part of an entry of a die's Curb, or another package. -/
inductive ArriveSrc where
  | curb (die entry part : Nat)
  | outside (r : ExtRequest)
  deriving DecidableEq, Repr

/-- What a remote home answers to a load, a full/empty read or a catalogue read (R334, R345, R221, R395). `again`: the request
is returned, to be translated and sent again (R334). -/
inductive Reply where
  | again
  | value (v : Vec)
  | fault (code : BitVec 8) (addr : W64)
  | poison (addr : W64)
  deriving DecidableEq, Repr

/-- What a remote home reports of a store: committed, committed with the old word of a returning `xrmw` (R185), or dropped
(R126, R341). -/
inductive AckKind where
  | committed
  | swapped (old : W32)
  | dropped (addr : W64)
  deriving DecidableEq, Repr

/-- A 64-byte flit (Table 13.3). -/
structure Flit where
  seq : BitVec 12
  ack : BitVec 12
  vc : BitVec 3
  kind : BitVec 3
  rsvd : BitVec 2
  payload : BitVec 448
  crc : W32
  deriving DecidableEq, Repr

/-- A collective message (R296): its header and its payload bytes. -/
structure Message where
  srcPkg : BitVec 15
  srcCh : BitVec 12
  dstCh : BitVec 12
  bcast : Bool
  reduce : Bool
  fmt : BitVec 4
  elems : BitVec 24
  topk : BitVec 5
  mseq : W32
  /-- the number of the setting of its send end (log entry 41) -/
  setting : Nat
  nv : Bool
  nctr : BitVec 13
  payload : List Byte
  deriving DecidableEq, Repr

/-- A multicast packet (R315, R316): group, owning job, issuer and stream position, offset and bytes of a store or, with
`copy`, of a session's result or record (R324), whose `id` is the session and whose `count` is added to the sync word at
the offset if nonzero; or a `cbcast` message (R212). `down`: it has reached the root and travels down the tree; `hops`: the
links it has crossed (R308). -/
structure McPacket where
  group : BitVec 10
  job : BitVec 16
  srcPkg : BitVec 15
  handle : BitVec 24
  stream : BitVec 4
  seqno : BitVec 12
  id : Nat
  offset : W64
  data : List Byte
  msg : Option Message
  copy : Bool
  count : Nat
  down : Bool
  hops : Nat
  deriving DecidableEq, Repr

/-- What a tree knows a packet by: its source package, whether it is a store, a message or a copy, and the number that the
source gave it (R315). -/
def McPacket.key (p : McPacket) : Nat :=
  p.srcPkg.toNat + 2 ^ 15 * ((if p.msg.isSome then 1 else if p.copy then 2 else 0) + 4 * p.id)

/-- What every session packet carries (R317): the session's number, and the fields MODE, OP, IFMT, OFMT, ANCHOR, NLEAF and
ELEMS, packed in two words as Table 13.6 places them. -/
structure SessionHead where
  session : Nat
  fields : W64
  shape : W64
  deriving DecidableEq, Repr

/-- A value of a reduction session on its way to the root (R317, R320): the node of the leaf tree it stands for, its
elements (input format widened to 32 bits), the packet's session fields, and the flags raised below it. -/
structure SessionValue where
  fields : W64
  shape : W64
  lvl : Nat
  idx : Nat
  elems : List W32
  flags : BitVec 7
  deriving DecidableEq, Repr

/-- A host datagram (Table 18.1) with its source and destination addresses and ports, the UDP length, and its payload. -/
structure Datagram where
  srcAddr : BitVec 128
  srcPort : BitVec 16
  dstAddr : BitVec 128
  dstPort : BitVec 16
  udpLen : Nat
  ver : Byte
  op : Byte
  conn : BitVec 6
  rsvd0 : BitVec 10
  seq : W32
  ackseq : W32
  len : BitVec 14
  status : Byte
  rsvd1 : BitVec 10
  sack : W64
  tag : W64
  payload : List Byte
  deriving DecidableEq, Repr

/-- An image as the boot ROM reads it (Table 18.3, R384): the header fields, the body and the signatures. -/
structure BootImage where
  magic : W32
  type : Byte
  rsvd : BitVec 24
  svn : W32
  len : W32
  digest : BitVec 384
  body : List Byte
  sigs : List Byte
  deriving DecidableEq, Repr

/-- An engine job that a footprint entry governs (R241): a copy channel's claimed record or a core's matrix call. -/
inductive EngineJob where
  | channel (ch : Nat)
  | call (core : Nat)
  deriving DecidableEq, Repr

/-- What waits for a route in the Piazza, or is returned (R314, R316, R334): the request of a Curb entry that a part of it
belongs to, a sequencer's read with its number, a copy unit, or a branch of a tree packet behind a port, which waits here or has
been returned over it; a tree packet of this package that its root returned; a packet that passes through to another package; or
one of these that another package on its way has returned. -/
inductive Unrouted where
  | store (die entry part : Nat)
  | load (handle : BitVec 24) (tag : Nat)
  | copyUnit (die ch unit : Nat)
  | branch (group id port : Nat) (returned : Bool)
  | packet (p : McPacket)
  | transit (pkg : BitVec 15)
  | elsewhere (p : Unrouted)
  deriving DecidableEq, Repr

/-- The answer to a request of a sequencer, under the number of the request (R227). -/
structure Answer where
  tag : Nat
  reply : Reply
  deriving DecidableEq, Repr

/-- A part of a Curb entry. -/
structure CurbPart where
  entry : Nat
  part : Nat
  deriving DecidableEq, Repr

/-- A request that returns to its issuer's die as stale (R334): of a Curb entry's part, a sequencer's read with its number, or a
copy unit. -/
inductive StaleWork where
  | store (entry part : Nat)
  | load (handle : BitVec 24) (tag : Nat)
  | copyUnit (ch unit : Nat)
  deriving DecidableEq, Repr

/-- The thresholds that a die's temperature has been 2 °C below for 1 ms (R387). -/
structure DieSettled where
  warn : Bool
  thr : Bool
  deriving DecidableEq, Repr

/-- The thresholds that an HBM stack's temperature has been 2 °C below for 1 ms: 85, 95 and 105 °C (R388). -/
structure HbmSettled where
  below85 : Bool
  below95 : Bool
  below105 : Bool
  deriving DecidableEq, Repr

/-- A memory upset (R344): the die, the store it strikes, the address or place, and whether it can be corrected. -/
inductive Upset where
  | memory (die : Nat) (addr : W64) (correctable : Bool)
  | tileCell (core tile cell : Nat) (correctable : Bool)
  | context (handle : BitVec 24) (correctable : Bool)
  | table (die : Nat) (master : W32) (correctable : Bool)
  deriving DecidableEq, Repr

/-- A card that the package scheduler may take (R245): an entry of the pending-launch store or a host submission. -/
inductive CardSrc where
  | launched (entry : Nat)
  | submitted (n : Nat)
  deriving DecidableEq, Repr

/-- The part's steps, one constructor for each row of spec/opcode_table.json. -/
inductive Instr where
  /-- `add` (R90). -/
  | add (d : BitVec 5) (a : BitVec 5) (b : BitVec 5)
  /-- `sub` (R90). -/
  | sub (d : BitVec 5) (a : BitVec 5) (b : BitVec 5)
  /-- `mul` (R90). -/
  | mul (d : BitVec 5) (a : BitVec 5) (b : BitVec 5)
  /-- `mulh` (R90). -/
  | mulh (d : BitVec 5) (a : BitVec 5) (b : BitVec 5)
  /-- `mulhn` (R90). -/
  | mulhn (d : BitVec 5) (a : BitVec 5) (b : BitVec 5)
  /-- `div` (R91). -/
  | div (d : BitVec 5) (a : BitVec 5) (b : BitVec 5)
  /-- `divn` (R91). -/
  | divn (d : BitVec 5) (a : BitVec 5) (b : BitVec 5)
  /-- `rem` (R91). -/
  | rem (d : BitVec 5) (a : BitVec 5) (b : BitVec 5)
  /-- `remn` (R91). -/
  | remn (d : BitVec 5) (a : BitVec 5) (b : BitVec 5)
  /-- `and` (R90). -/
  | and (d : BitVec 5) (a : BitVec 5) (b : BitVec 5)
  /-- `or` (R90). -/
  | or (d : BitVec 5) (a : BitVec 5) (b : BitVec 5)
  /-- `xor` (R90). -/
  | xor (d : BitVec 5) (a : BitVec 5) (b : BitVec 5)
  /-- `shl` (R90). -/
  | shl (d : BitVec 5) (a : BitVec 5) (b : BitVec 5)
  /-- `shr` (R90). -/
  | shr (d : BitVec 5) (a : BitVec 5) (b : BitVec 5)
  /-- `sra` (R90). -/
  | sra (d : BitVec 5) (a : BitVec 5) (b : BitVec 5)
  /-- `rotl` (R90). -/
  | rotl (d : BitVec 5) (a : BitVec 5) (b : BitVec 5)
  /-- `clz` (R90). -/
  | clz (d : BitVec 5) (a : BitVec 5)
  /-- `ctz` (R90). -/
  | ctz (d : BitVec 5) (a : BitVec 5)
  /-- `popc` (R90). -/
  | popc (d : BitVec 5) (a : BitVec 5)
  /-- `min` (R90). -/
  | min (d : BitVec 5) (a : BitVec 5) (b : BitVec 5)
  /-- `max` (R90). -/
  | max (d : BitVec 5) (a : BitVec 5) (b : BitVec 5)
  /-- `minn` (R90). -/
  | minn (d : BitVec 5) (a : BitVec 5) (b : BitVec 5)
  /-- `maxn` (R90). -/
  | maxn (d : BitVec 5) (a : BitVec 5) (b : BitVec 5)
  /-- `mov` (R90). -/
  | mov (d : BitVec 5) (a : BitVec 5)
  /-- `sel` (R90). -/
  | sel (d : BitVec 5) (a : BitVec 5) (b : BitVec 5) (p : BitVec 3)
  /-- `cmp.eq` (R92). -/
  | cmpEq (k : BitVec 3) (a : BitVec 5) (b : BitVec 5)
  /-- `cmp.ne` (R92). -/
  | cmpNe (k : BitVec 3) (a : BitVec 5) (b : BitVec 5)
  /-- `cmp.lt` (R92). -/
  | cmpLt (k : BitVec 3) (a : BitVec 5) (b : BitVec 5)
  /-- `cmp.le` (R92). -/
  | cmpLe (k : BitVec 3) (a : BitVec 5) (b : BitVec 5)
  /-- `cmp.ltn` (R92). -/
  | cmpLtn (k : BitVec 3) (a : BitVec 5) (b : BitVec 5)
  /-- `cmp.len` (R92). -/
  | cmpLen (k : BitVec 3) (a : BitVec 5) (b : BitVec 5)
  /-- `addi` (R93). -/
  | addi (d : BitVec 5) (a : BitVec 5) (i : BitVec 14)
  /-- `andi` (R93). -/
  | andi (d : BitVec 5) (a : BitVec 5) (i : BitVec 14)
  /-- `ori` (R93). -/
  | ori (d : BitVec 5) (a : BitVec 5) (i : BitVec 14)
  /-- `xori` (R93). -/
  | xori (d : BitVec 5) (a : BitVec 5) (i : BitVec 14)
  /-- `shli` (R93). -/
  | shli (d : BitVec 5) (a : BitVec 5) (n : BitVec 5)
  /-- `shri` (R93). -/
  | shri (d : BitVec 5) (a : BitVec 5) (n : BitVec 5)
  /-- `srai` (R93). -/
  | srai (d : BitVec 5) (a : BitVec 5) (n : BitVec 5)
  /-- `lhi` (R93). -/
  | lhi (d : BitVec 5) (i : BitVec 19)
  /-- `addb` (R94). -/
  | addb (d : BitVec 3) (a : BitVec 3) (b : BitVec 5)
  /-- `movb` (R94). -/
  | movb (d : BitVec 3) (a : BitVec 5) (b : BitVec 5)
  /-- `spb` (R95). -/
  | spb (d : BitVec 3) (a : BitVec 5)
  /-- `movb.lo` (R94). -/
  | movbLo (d : BitVec 5) (a : BitVec 3)
  /-- `movb.hi` (R94). -/
  | movbHi (d : BitVec 5) (a : BitVec 3)
  /-- `kand` (R96). -/
  | kand (d : BitVec 3) (a : BitVec 3) (b : BitVec 3)
  /-- `kor` (R96). -/
  | kor (d : BitVec 3) (a : BitVec 3) (b : BitVec 3)
  /-- `kxor` (R96). -/
  | kxor (d : BitVec 3) (a : BitVec 3) (b : BitVec 3)
  /-- `knot` (R96). -/
  | knot (d : BitVec 3) (a : BitVec 3)
  /-- `kmov` (R96). -/
  | kmov (d : BitVec 3) (a : BitVec 3)
  /-- `kfrom` (R96). -/
  | kfrom (d : BitVec 3) (a : BitVec 5) (b : BitVec 5)
  /-- `kto.lo` (R96). -/
  | ktoLo (d : BitVec 5) (a : BitVec 3)
  /-- `kto.hi` (R96). -/
  | ktoHi (d : BitVec 5) (a : BitVec 3)
  /-- `nop` (R111). -/
  | nop
  /-- `br` (R99). -/
  | br (n : BitVec 1) (k : BitVec 3) (o : BitVec 20)
  /-- `bra` (R99). -/
  | bra (n : BitVec 1) (k : BitVec 3) (o : BitVec 20)
  /-- `call` (R99). -/
  | call (n : BitVec 1) (k : BitVec 3) (o : BitVec 20)
  /-- `lbrk` (R107). -/
  | lbrk (n : BitVec 1) (k : BitVec 3)
  /-- `loop` (R105). -/
  | loop (c : BitVec 5) (l : BitVec 3) (n : BitVec 15)
  /-- `brl` (R106). -/
  | brl (l : BitVec 3)
  /-- `brl.rot` (R106). -/
  | brlRot (l : BitVec 3)
  /-- `jr` (R101). -/
  | jr (a : BitVec 3)
  /-- `ret` (R101). -/
  | ret
  /-- `lidx` (R108). -/
  | lidx (d : BitVec 5) (l : BitVec 5)
  /-- `trap` (R218). -/
  | trap (i : BitVec 8)
  /-- `eret` (R219). -/
  | eret
  /-- `mfc` (R220). -/
  | mfc (l : BitVec 5) (h : BitVec 5) (n : BitVec 8)
  /-- `mtc` (R220). -/
  | mtc (l : BitVec 5) (h : BitVec 5) (n : BitVec 8)
  /-- `rdst` (R221). -/
  | rdst (d : BitVec 3) (a : BitVec 3)
  /-- `freeze` (R222). -/
  | freeze (a : BitVec 5)
  /-- `thaw` (R222). -/
  | thaw (a : BitVec 5)
  /-- `yield` (R223). -/
  | yield
  /-- `sleep` (R223). -/
  | sleep (a : BitVec 5)
  /-- `ptime` (R224). -/
  | ptime (d : BitVec 3)
  /-- `exit` (R225). -/
  | exit (a : BitVec 5)
  /-- `svget` (R206). -/
  | svget (d : BitVec 5)
  /-- `ld.i8` (R120). -/
  | ldI8 (t : BitVec 5) (b : BitVec 3) (x : BitVec 5) (i : BitVec 6)
  /-- `ld.n8` (R120). -/
  | ldN8 (t : BitVec 5) (b : BitVec 3) (x : BitVec 5) (i : BitVec 6)
  /-- `ld.i16` (R120). -/
  | ldI16 (t : BitVec 5) (b : BitVec 3) (x : BitVec 5) (i : BitVec 6)
  /-- `ld.n16` (R120). -/
  | ldN16 (t : BitVec 5) (b : BitVec 3) (x : BitVec 5) (i : BitVec 6)
  /-- `ld.w` (R120). -/
  | ldW (t : BitVec 5) (b : BitVec 3) (x : BitVec 5) (i : BitVec 6)
  /-- `ldb` (R120). -/
  | ldb (t : BitVec 3) (b : BitVec 3) (x : BitVec 5) (i : BitVec 6)
  /-- `ldfe` (R137). -/
  | ldfe (t : BitVec 5) (b : BitVec 3) (x : BitVec 5) (i : BitVec 6)
  /-- `ldv` (R120). -/
  | ldv (t : BitVec 6) (b : BitVec 3) (x : BitVec 5) (m : BitVec 4) (i : BitVec 6)
  /-- `st.b` (R123). -/
  | stB (t : BitVec 5) (b : BitVec 3) (x : BitVec 5) (st : BitVec 4) (i : BitVec 6)
  /-- `st.h` (R123). -/
  | stH (t : BitVec 5) (b : BitVec 3) (x : BitVec 5) (st : BitVec 4) (i : BitVec 6)
  /-- `st.w` (R123). -/
  | stW (t : BitVec 5) (b : BitVec 3) (x : BitVec 5) (st : BitVec 4) (i : BitVec 6)
  /-- `stb` (R123). -/
  | stb (t : BitVec 3) (b : BitVec 3) (x : BitVec 5) (st : BitVec 4) (i : BitVec 6)
  /-- `stv` (R123). -/
  | stv (t : BitVec 6) (b : BitVec 3) (x : BitVec 5) (st : BitVec 4) (i : BitVec 6)
  /-- `stm` (R128). -/
  | stm (t : BitVec 6) (b : BitVec 3) (k : BitVec 3) (st : BitVec 4) (i : BitVec 6)
  /-- `stv.mc` (R129). -/
  | stvMc (t : BitVec 6) (b : BitVec 3) (x : BitVec 5) (st : BitVec 4) (i : BitVec 6)
  /-- `vgath` (R130). -/
  | vgath (t : BitVec 6) (b : BitVec 3) (v : BitVec 6) (k : BitVec 3)
  /-- `vscat` (R130). -/
  | vscat (t : BitVec 6) (b : BitVec 3) (v : BitVec 6) (k : BitVec 3) (st : BitVec 4)
  /-- `st.acc` (R131). -/
  | stAcc (t : BitVec 5) (b : BitVec 3) (x : BitVec 5) (st : BitVec 4) (o : BitVec 4)
  /-- `stv.acc` (R131). -/
  | stvAcc (t : BitVec 6) (b : BitVec 3) (x : BitVec 5) (st : BitVec 4) (o : BitVec 4)
  /-- `mkfull` (R135). -/
  | mkfull (a : BitVec 3) (b : BitVec 5)
  /-- `mkempty` (R135). -/
  | mkempty (a : BitVec 3) (b : BitVec 5)
  /-- `fecheck` (R135). -/
  | fecheck (d : BitVec 5) (a : BitVec 3) (b : BitVec 5)
  /-- `swarm` (R139). -/
  | swarm (d : BitVec 5) (a : BitVec 3) (b : BitVec 5)
  /-- `swait` (R139). -/
  | swait (d : BitVec 5) (a : BitVec 3) (b : BitVec 5)
  /-- `fbind` (R140). -/
  | fbind (p : BitVec 3) (a : BitVec 5)
  /-- `funbind` (R141). -/
  | funbind (p : BitVec 3)
  /-- `fdrain` (R141). -/
  | fdrain (p : BitVec 3)
  /-- `fence` (R143). -/
  | fence (c : BitVec 4)
  /-- `sfence` (R144). -/
  | sfence (st : BitVec 4)
  /-- `tbind` (R145). -/
  | tbind (r : BitVec 5) (h : BitVec 1) (f : BitVec 2)
  /-- `tclr` (R145). -/
  | tclr (r : BitVec 5) (h : BitVec 1) (f : BitVec 2)
  /-- `tmask` (R145). -/
  | tmask (d : BitVec 5) (r : BitVec 5) (h : BitVec 1) (f : BitVec 2)
  /-- `vadd` (R155). -/
  | vadd (d : BitVec 6) (a : BitVec 6) (b : BitVec 6) (k : BitVec 3)
  /-- `vsub` (R155). -/
  | vsub (d : BitVec 6) (a : BitVec 6) (b : BitVec 6) (k : BitVec 3)
  /-- `vmul` (R155). -/
  | vmul (d : BitVec 6) (a : BitVec 6) (b : BitVec 6) (k : BitVec 3)
  /-- `vfma` (R155). -/
  | vfma (d : BitVec 6) (a : BitVec 6) (b : BitVec 6) (k : BitVec 3)
  /-- `vfms` (R155). -/
  | vfms (d : BitVec 6) (a : BitVec 6) (b : BitVec 6) (k : BitVec 3)
  /-- `vneg` (R156). -/
  | vneg (d : BitVec 6) (a : BitVec 6) (k : BitVec 3)
  /-- `vabs` (R156). -/
  | vabs (d : BitVec 6) (a : BitVec 6) (k : BitVec 3)
  /-- `vmin` (R156). -/
  | vmin (d : BitVec 6) (a : BitVec 6) (b : BitVec 6) (k : BitVec 3)
  /-- `vmax` (R156). -/
  | vmax (d : BitVec 6) (a : BitVec 6) (b : BitVec 6) (k : BitVec 3)
  /-- `vrcp` (R157). -/
  | vrcp (d : BitVec 6) (a : BitVec 6) (k : BitVec 3)
  /-- `vrsq` (R157). -/
  | vrsq (d : BitVec 6) (a : BitVec 6) (k : BitVec 3)
  /-- `vexp2` (R157). -/
  | vexp2 (d : BitVec 6) (a : BitVec 6) (k : BitVec 3)
  /-- `vlog2` (R157). -/
  | vlog2 (d : BitVec 6) (a : BitVec 6) (k : BitVec 3)
  /-- `vsel` (R159). -/
  | vsel (d : BitVec 6) (a : BitVec 6) (b : BitVec 6) (k : BitVec 3)
  /-- `vcmp` (R158). -/
  | vcmp (k : BitVec 3) (a : BitVec 6) (b : BitVec 6) (p : BitVec 3) (c : BitVec 3)
  /-- `vadd.i32` (R160). -/
  | vaddI32 (d : BitVec 6) (a : BitVec 6) (b : BitVec 6) (k : BitVec 3)
  /-- `vsub.i32` (R160). -/
  | vsubI32 (d : BitVec 6) (a : BitVec 6) (b : BitVec 6) (k : BitVec 3)
  /-- `vmul.i32` (R160). -/
  | vmulI32 (d : BitVec 6) (a : BitVec 6) (b : BitVec 6) (k : BitVec 3)
  /-- `vshl.i32` (R160). -/
  | vshlI32 (d : BitVec 6) (a : BitVec 6) (b : BitVec 6) (k : BitVec 3)
  /-- `vshr.i32` (R160). -/
  | vshrI32 (d : BitVec 6) (a : BitVec 6) (b : BitVec 6) (k : BitVec 3)
  /-- `vsra.i32` (R160). -/
  | vsraI32 (d : BitVec 6) (a : BitVec 6) (b : BitVec 6) (k : BitVec 3)
  /-- `vadd.n32` (R160). -/
  | vaddN32 (d : BitVec 6) (a : BitVec 6) (b : BitVec 6) (k : BitVec 3)
  /-- `vsub.n32` (R160). -/
  | vsubN32 (d : BitVec 6) (a : BitVec 6) (b : BitVec 6) (k : BitVec 3)
  /-- `vmul.n32` (R160). -/
  | vmulN32 (d : BitVec 6) (a : BitVec 6) (b : BitVec 6) (k : BitVec 3)
  /-- `vshl.n32` (R160). -/
  | vshlN32 (d : BitVec 6) (a : BitVec 6) (b : BitVec 6) (k : BitVec 3)
  /-- `vshr.n32` (R160). -/
  | vshrN32 (d : BitVec 6) (a : BitVec 6) (b : BitVec 6) (k : BitVec 3)
  /-- `vsra.n32` (R160). -/
  | vsraN32 (d : BitVec 6) (a : BitVec 6) (b : BitVec 6) (k : BitVec 3)
  /-- `vadd.i16` (R160). -/
  | vaddI16 (d : BitVec 6) (a : BitVec 6) (b : BitVec 6) (k : BitVec 3)
  /-- `vsub.i16` (R160). -/
  | vsubI16 (d : BitVec 6) (a : BitVec 6) (b : BitVec 6) (k : BitVec 3)
  /-- `vmul.i16` (R160). -/
  | vmulI16 (d : BitVec 6) (a : BitVec 6) (b : BitVec 6) (k : BitVec 3)
  /-- `vshl.i16` (R160). -/
  | vshlI16 (d : BitVec 6) (a : BitVec 6) (b : BitVec 6) (k : BitVec 3)
  /-- `vshr.i16` (R160). -/
  | vshrI16 (d : BitVec 6) (a : BitVec 6) (b : BitVec 6) (k : BitVec 3)
  /-- `vsra.i16` (R160). -/
  | vsraI16 (d : BitVec 6) (a : BitVec 6) (b : BitVec 6) (k : BitVec 3)
  /-- `vadd.i8` (R160). -/
  | vaddI8 (d : BitVec 6) (a : BitVec 6) (b : BitVec 6) (k : BitVec 3)
  /-- `vsub.i8` (R160). -/
  | vsubI8 (d : BitVec 6) (a : BitVec 6) (b : BitVec 6) (k : BitVec 3)
  /-- `vmul.i8` (R160). -/
  | vmulI8 (d : BitVec 6) (a : BitVec 6) (b : BitVec 6) (k : BitVec 3)
  /-- `vshl.i8` (R160). -/
  | vshlI8 (d : BitVec 6) (a : BitVec 6) (b : BitVec 6) (k : BitVec 3)
  /-- `vshr.i8` (R160). -/
  | vshrI8 (d : BitVec 6) (a : BitVec 6) (b : BitVec 6) (k : BitVec 3)
  /-- `vsra.i8` (R160). -/
  | vsraI8 (d : BitVec 6) (a : BitVec 6) (b : BitVec 6) (k : BitVec 3)
  /-- `vand` (R161). -/
  | vand (d : BitVec 6) (a : BitVec 6) (b : BitVec 6) (k : BitVec 3)
  /-- `vor` (R161). -/
  | vor (d : BitVec 6) (a : BitVec 6) (b : BitVec 6) (k : BitVec 3)
  /-- `vxor` (R161). -/
  | vxor (d : BitVec 6) (a : BitVec 6) (b : BitVec 6) (k : BitVec 3)
  /-- `vnot` (R161). -/
  | vnot (d : BitVec 6) (a : BitVec 6) (k : BitVec 3)
  /-- `vmov` (R161). -/
  | vmov (d : BitVec 6) (a : BitVec 6) (k : BitVec 3)
  /-- `vcvt` (R162). -/
  | vcvt (d : BitVec 6) (a : BitVec 6) (t : BitVec 4) (r : BitVec 3) (o : BitVec 2) (p : BitVec 1)
  /-- `vq.bfp` (R164). -/
  | vqBfp (d : BitVec 6) (a : BitVec 6) (st : BitVec 6) (m : BitVec 3)
  /-- `vdq.bfp` (R165). -/
  | vdqBfp (d : BitVec 6) (a : BitVec 6) (st : BitVec 6)
  /-- `vperm` (R167). -/
  | vperm (d : BitVec 6) (a : BitVec 6) (b : BitVec 6) (k : BitVec 3)
  /-- `vrotl` (R167). -/
  | vrotl (d : BitVec 6) (a : BitVec 6) (n : BitVec 6) (k : BitVec 3)
  /-- `vbcast` (R167). -/
  | vbcast (d : BitVec 6) (a : BitVec 6) (n : BitVec 6) (k : BitVec 3)
  /-- `vext` (R168). -/
  | vext (d : BitVec 5) (a : BitVec 6) (n : BitVec 6)
  /-- `vins` (R168). -/
  | vins (d : BitVec 6) (a : BitVec 5) (n : BitVec 6)
  /-- `vzip` (R167). -/
  | vzip (d : BitVec 6) (a : BitVec 6) (b : BitVec 6) (k : BitVec 3)
  /-- `vunzip` (R167). -/
  | vunzip (d : BitVec 6) (a : BitVec 6) (k : BitVec 3)
  /-- `vhad` (R166). -/
  | vhad (d : BitVec 6) (a : BitVec 6)
  /-- `vredsum` (R169). -/
  | vredsum (d : BitVec 6) (a : BitVec 6) (k : BitVec 3)
  /-- `vredmax` (R169). -/
  | vredmax (d : BitVec 6) (a : BitVec 6) (k : BitVec 3)
  /-- `vredmin` (R169). -/
  | vredmin (d : BitVec 6) (a : BitVec 6) (k : BitVec 3)
  /-- `vtag` (R170). -/
  | vtag (d : BitVec 6) (a : BitVec 6) (t : BitVec 4) (x : BitVec 3)
  /-- `xchain` (R182). -/
  | xchain (c : BitVec 7) (a : BitVec 5) (b : BitVec 5)
  /-- `xstat` (R183). -/
  | xstat (c : BitVec 7) (a : BitVec 5) (b : BitVec 5)
  /-- `xkill` (R184). -/
  | xkill (c : BitVec 7)
  /-- `xrmw` (R185). -/
  | xrmw (o : BitVec 4) (a : BitVec 5) (b : BitVec 5)
  /-- `mcall` (R190). -/
  | mcall (r : BitVec 8)
  /-- `mpset` (R189). -/
  | mpset (n : BitVec 3) (a : BitVec 5) (b : BitVec 5)
  /-- `mzero` (R192). -/
  | mzero (k : BitVec 1) (t : BitVec 3) (a : BitVec 5)
  /-- `manch` (R192). -/
  | manch (t : BitVec 3) (a : BitVec 5)
  /-- `zld` (R193). -/
  | zld (t : BitVec 3) (a : BitVec 5) (b : BitVec 5)
  /-- `zst` (R193). -/
  | zst (t : BitVec 3) (a : BitVec 5) (b : BitVec 5)
  /-- `mrload` (R194). -/
  | mrload (r : BitVec 8) (a : BitVec 5) (b : BitVec 5)
  /-- `mstat` (R195). -/
  | mstat (t : BitVec 3) (a : BitVec 5) (b : BitVec 5)
  /-- `cset` (R211). -/
  | cset (a : BitVec 5)
  /-- `csend` (R212). -/
  | csend (a : BitVec 5)
  /-- `crecv` (R212). -/
  | crecv (a : BitVec 5)
  /-- `creduce` (R212). -/
  | creduce (a : BitVec 5)
  /-- `cbcast` (R212). -/
  | cbcast (a : BitVec 5)
  /-- `liftarm` (R214). -/
  | liftarm (a : BitVec 5) (b : BitVec 5)
  /-- `liftdisarm` (R214). -/
  | liftdisarm (a : BitVec 5) (b : BitVec 5)
  /-- `ctrig` (R215). -/
  | ctrig (a : BitVec 5) (b : BitVec 5)
  /-- `crnew` (R201). -/
  | crnew (a : BitVec 5) (b : BitVec 5)
  /-- `crjoin` (R202). -/
  | crjoin (a : BitVec 5) (b : BitVec 5)
  /-- `crleave` (R202). -/
  | crleave (a : BitVec 5) (b : BitVec 5)
  /-- `crfree` (R202). -/
  | crfree (a : BitVec 5)
  /-- `phreg` (R203). -/
  | phreg (r : BitVec 2) (a : BitVec 5)
  /-- `phdrop` (R205). -/
  | phdrop (a : BitVec 5)
  /-- `phsig` (R204). -/
  | phsig (a : BitVec 5)
  /-- `phwait` (R204). -/
  | phwait (p : BitVec 1) (a : BitVec 5)
  /-- `launch` (R207). -/
  | launch (c : BitVec 5) (f : BitVec 3) (a : BitVec 5) (b : BitVec 5)
  /-- `lstat` (R208). -/
  | lstat (a : BitVec 5) (b : BitVec 5)
  /-- `mte` (R174). -/
  | mte (e : BitVec 3) (i : BitVec 7) (a : BitVec 5) (b : BitVec 5)
  /-- `mfe` (R174). -/
  | mfe (e : BitVec 3) (i : BitVec 7) (a : BitVec 5) (b : BitVec 5)
  /-- micro-op ZERO (R274, R276) -/
  | zero (ts : BitVec 4) (kind : BitVec 1) (am : BitVec 1) (anc : BitVec 10)
  /-- micro-op ANCHOR (R276) -/
  | anchor (ts : BitVec 4) (am : BitVec 1) (anc : BitVec 10)
  /-- micro-op LOADB (R269) -/
  | loadb (fmt : BitVec 4) (mm : BitVec 3) (swz : BitVec 8) (desc : BitVec 3)
  /-- micro-op STREAMA (R267) -/
  | streama (fmt : BitVec 4) (mm : BitVec 3) (swz : BitVec 8) (desc : BitVec 3) (ts : BitVec 4) (row0 nr : BitVec 7) (s5 : BitVec 1)
  /-- micro-op ACC (R276) -/
  | acc (td tsrc : BitVec 4) (row0 nr : BitVec 7)
  /-- micro-op TRANS (R276) -/
  | trans (t : BitVec 1)
  /-- micro-op HAD (R277) -/
  | had (ts : BitVec 4) (row0 nr : BitVec 7)
  /-- micro-op DRAIN (R278) -/
  | drain (ts ofmt : BitVec 4) (mm rm : BitVec 3) (po : BitVec 2) (pd : BitVec 1) (desc : BitVec 3) (row0 nr : BitVec 7) (swz : BitVec 8)
  /-- micro-op WAITF (R276) -/
  | waitf
  /-- micro-op LOOP (R276) -/
  | uopLoop (len : BitVec 12) (cm : BitVec 1) (count : W32)
  /-- the group at the PC of sequencer `h` is fetched, checked and dispatched (R66) -/
  | groupIssue (h : BitVec 24)
  /-- the reply of a remote home to a waiting access of sequencer `h` (R227, R334) -/
  | loadReturn (h : BitVec 24) (r : Answer)
  /-- a store reaches its destination (R125) -/
  | storeArrive (src : ArriveSrc)
  /-- the acknowledgment of a Curb entry reaches the Curb (R126) -/
  | storeAck (die : Nat) (entry : CurbPart) (k : AckKind)
  /-- a HELD notice reaches the source Curb (R342) -/
  | heldNotice (die : Nat) (entry : CurbPart)
  /-- the held count of a Curb entry reaches cr.holdmax (R342) -/
  | streamHeld (die entry : Nat)
  /-- a read-modify-write command is applied at its home (R185) -/
  | xrmwApply (src : ArriveSrc)
  /-- a copy channel claims its next record (R178) -/
  | recordClaim (die ch : Nat)
  /-- an engine job registers on its footprint entry (R241) -/
  | footprintRegister (die : Nat) (job : EngineJob)
  /-- a landing unit of a channel arrives at its home (R286) -/
  | unitArrive (die ch unit : Nat)
  /-- a landing unit is acknowledged to its channel (R287) -/
  | unitAck (die ch unit : Nat)
  /-- a channel returns its record (R178) -/
  | recordReturn (die ch : Nat)
  /-- a channel stops with a fault (R288) -/
  | channelFault (die ch : Nat)
  /-- a kill completes (R184) -/
  | killComplete (die ch : Nat)
  /-- ACT 1 on a faulted channel (R289) -/
  | channelResume (die ch : Nat)
  /-- ACT 2 on a stopped channel (R289) -/
  | channelDrop (die ch : Nat)
  /-- ACT 3 on a stopped channel (R289) -/
  | channelKill (die ch : Nat)
  /-- a fill walk delivers an entry (R291) -/
  | feedFill (h : BitVec 24) (port : BitVec 3)
  /-- a drain walk writes an entry (R141) -/
  | feedDrainWrite (h : BitVec 24) (port : BitVec 3)
  /-- the head command of a core's matrix queue reaches its turn (R188) -/
  | matrixCommandTurn (core : Nat)
  /-- an accepted call starts its routine (R281) -/
  | routineStart (core : Nat)
  /-- the contributions of the oldest streamed row land (R273) -/
  | contributionLand (core : Nat)
  /-- a routine completes (R190) -/
  | routineComplete (core : Nat)
  /-- a routine passes 65,536 cycles (R191) -/
  | routineLimit (core : Nat)
  /-- a channel sends its next queued message (R212) -/
  | messageSend (ch : Nat)
  /-- a message lands or is discarded at this package (R296) -/
  | messageLand (m : Message)
  /-- the acknowledgment of a message reaches its send end; `disc` is the ERRK of a discard (R296, R297) -/
  | messageAck (ch : Nat) (mseq : W32) (disc : BitVec 2)
  /-- a catalogue write of a lift entry's COUNT (R299) -/
  | countWrite (entry : Nat) (v : W32)
  /-- the package scheduler takes a card (R245) -/
  | cardTake (src : CardSrc)
  /-- a taken card is admitted (R198) -/
  | jobAdmit (src : CardSrc)
  /-- a queued sequencer is placed on a core and restored (R247, R255) -/
  | place (h : BitVec 24)
  /-- a core selects another context for issue (R251) -/
  | contextSwitch (core slot : Nat)
  /-- a requested sequencer reaches no point within LONGITER (R258) -/
  | longiterExpiry (h : BitVec 24)
  /-- a parkable wait exceeds cr.park (R256) -/
  | park (h : BitVec 24)
  /-- a departing context is saved (R253) -/
  | contextSave (h : BitVec 24)
  /-- a wake condition holds (R257) -/
  | wake (h : BitVec 24)
  /-- a sleep time passes (R223) -/
  | sleepExpiry (h : BitVec 24)
  /-- a parked gang is woken (R260) -/
  | gangWake (crew : W32)
  /-- a job's deadline counter reaches zero (R265) -/
  | deadlineOverrun (job : BitVec 16)
  /-- RET of a core is written (R266) -/
  | coreRetire (core : Nat) (ret : Bool)
  /-- a catalogue or supervisor write of a register with no row of its own (R38) -/
  | registerWrite (key v : W64)
  /-- a port receives a flit (R306) -/
  | flitReceive (port : Nat) (f : Flit)
  /-- a NAK reaches the sender (R306) -/
  | nakReceive (port : Nat) (seq : BitVec 12)
  /-- the oldest flit has waited 1 µs (R306) -/
  | replayTimeout (port : Nat)
  /-- a port sends its totals (R309) -/
  | totalsSend (port : Nat)
  /-- a totals flit arrives: virtual channels 0-3 or 4-7, SENT and FREED of each (R309) -/
  | totalsReceive (port : Nat) (high : Bool) (totals : List (W32 × W32))
  /-- a window of 2^20 ticks ends at a port (R307) -/
  | replayWindowEnd (port : Nat)
  /-- REPL reaches lk.cethr (R307) -/
  | correctedErrorPost (port : Nat)
  /-- REPL reaches lk.rtthr (R307) -/
  | retrain (port : Nat)
  /-- lane training ends; the far end expects `peerSeq` (R307) -/
  | trainingEnd (port : Nat) (ok : Bool) (peerSeq : BitVec 12)
  /-- a packet finds no route within 100 µs (R314) -/
  | routeTimeout (p : Unrouted)
  /-- a timing flit: the reference package, its time as measured here, the slew (R304) -/
  | timingFlit (port : Nat) (ref : BitVec 15) (refTime : W64) (slew : BitVec 16) (synced : Bool)
  /-- a write of WL of the pair (s, d) (R303) -/
  | wlWrite (s d : Nat) (v : Byte)
  /-- a wavelength change completes (R303) -/
  | wlChangeDone (s d : Nat)
  /-- a multicast packet arrives at the Piazza from port `port`, 127 for this package (R315) -/
  | multicastArrive (p : McPacket) (port : Nat)
  /-- a child port, a member die (64 + d) or, 127, the root acknowledges a packet, with the address of a dropped part
  (R315, R341) -/
  | multicastAck (group id src : Nat) (lost : Option W64)
  /-- STATE of a session is written 1 (R318, R319) -/
  | sessionOpen (s : Nat)
  /-- STATE of a session is written 0 (R319) -/
  | sessionClose (s : Nat)
  /-- a store reaches a session slot (R321, R322) -/
  | slotStore (s k : Nat) (job : BitVec 16) (checkJob : Bool) (effects : List Effect)
  /-- a value reaches this package's Piazza (R320) -/
  | sessionValue (s : Nat) (v : SessionValue)
  /-- a value could not be forwarded within 100 µs (R320) -/
  | sessionForwardTimeout (s : Nat)
  /-- ROUNDEND reaches this package's Piazza (R324) -/
  | roundend (p : SessionHead)
  /-- the round timeout expires at the root (R325) -/
  | sessionTimeout (s : Nat)
  /-- CLOSE reaches this package's Piazza (R325) -/
  | closePacket (p : SessionHead)
  /-- SACT 1 is written on a slot (R326) -/
  | withdraw (s k : Nat)
  /-- SACT 2 is written on a slot (R327) -/
  | reopen (s k : Nat)
  /-- a WITHDRAW marker reaches this package's Piazza: the first leaf and LVL of the slot (R326) -/
  | withdrawMarker (p : SessionHead) (leaf lvl : Nat)
  /-- ACT 1 at the root in RECOVER, or its word reaches a Piazza below with the fields of the packet (R327) -/
  | recontrib (p : SessionHead)
  /-- ACT 2 at the root in RECOVER (R327) -/
  | exclude (s : Nat)
  /-- a request arrived more than 2,000 ns after its lease and returns to its issuer's die, 4 for the Piazza (R334) -/
  | staleReturn (die : Nat) (r : StaleWork)
  /-- FLUSH of a die (R333) -/
  | flush (die : Nat)
  /-- a write of MIGNEW (R337) -/
  | migrationStart (die : Nat) (frame : W64)
  /-- the copy ends and the leaf is switched (R337) -/
  | migrationSwitch (die : Nat)
  /-- the drain interval ends (R337) -/
  | migrationApply (die : Nat)
  /-- a granule's remote count reaches MIGTHR (R336) -/
  | migrationCandidate (die granule : Nat)
  /-- a write of a trap queue's HEAD (R339) -/
  | headWrite (die : Nat) (v : BitVec 11)
  /-- ACT 1 on a kind-4 record (R341) -/
  | recordRetry (die slot : Nat)
  /-- ACT 2 on a kind-4 record (R341) -/
  | recordDrop (die slot : Nat)
  /-- ACT 3 on a host connection's record (R343) -/
  | connectionThaw (die slot : Nat)
  /-- an error is detected in a store (R344) -/
  | memoryError (u : Upset)
  /-- patrol scrub visits the word at a physical address, which holds an upset bit or not (R344) -/
  | patrolScrub (die : Nat) (addr : W64) (upset : Bool)
  /-- a corrected-error window of a die ends (R344) -/
  | errorWindowEnd (die : Nat)
  /-- host OPEN (R381) -/
  | hostOpen (d : Datagram)
  /-- host CLOSE (R381) -/
  | hostClose (d : Datagram)
  /-- host SUBMIT (R383) -/
  | hostSubmit (d : Datagram)
  /-- host MREAD (R382) -/
  | hostMread (d : Datagram)
  /-- host MWRITE (R382) -/
  | hostMwrite (d : Datagram)
  /-- host CATREAD (R379) -/
  | hostCatread (d : Datagram)
  /-- host CATWRITE (R379) -/
  | hostCatwrite (d : Datagram)
  /-- host IMAGE (R384) -/
  | hostImage (d : Datagram)
  /-- host ATTEST (R385) -/
  | hostAttest (d : Datagram)
  /-- host ACK (R380) -/
  | hostAck (d : Datagram)
  /-- the retransmission timer of a device datagram expires (R380) -/
  | retransmitTimeout (conn : BitVec 6) (seq : W32)
  /-- an arrival has triggered no REPLY for 10 µs (R380) -/
  | ackTimer (conn : BitVec 6)
  /-- package reset: the boot ROM loads four images (R384) -/
  | pkgReset (images : List BootImage)
  /-- power is removed (R1) -/
  | powerLoss
  /-- a die's hottest sensor reads `temp` (R387) -/
  | tempSample (die : Nat) (temp : BitVec 16) (settled : DieSettled)
  /-- a die's clock steps down (R387) -/
  | stepDown (die : Nat)
  /-- a die's clock steps back up (R387) -/
  | stepUp (die : Nat)
  /-- a die reaches its trip point (R387) -/
  | trip (die : Nat)
  /-- an HBM stack reports its temperature (R388) -/
  | hbmTempChange (die k : Nat) (temp : BitVec 16) (settled : HbmSettled)
  /-- the power controller samples the package power (R390) -/
  | powerControl (power : BitVec 12)
  /-- a built-in burst runs on a core (R390) -/
  | burst (core : Nat)
  /-- a port loses its partner (R310) -/
  | linkDown (port : Nat)
  /-- a port in DOWN detects a partner (R310) -/
  | linkTraining (port : Nat) (peerPkg : BitVec 15) (peerPort : BitVec 6)
  /-- the active matrix command of a core finishes (R188) -/
  | matrixCommandComplete (core : Nat)
  /-- the landing with this number lands at its home (R278) -/
  | copyTrafficLand (n : Nat)
  /-- credits reach a send end (R212) -/
  | creditReturn (ch : Nat) (srcPkg : BitVec 15) (n : BitVec 12)
  /-- system software ends a job (R250) -/
  | jobEndBySystemSoftware (job : BitVec 16)
  /-- a datagram is dropped (R379) -/
  | datagramDrop (d : Datagram)
  /-- a window of 2^20 ticks ends at a die's home ports (R336) -/
  | remoteAccessWindowEnd (die : Nat)
  deriving DecidableEq, Repr

/-- One word of a group (R64): the stop bit S, the sync bit Y and the instruction. -/
structure GroupWord where
  stop : Bool
  sync : Bool
  instr : Instr
  deriving DecidableEq, Repr

end Sys2Proof
end

