-- ==== Sys2Proof/WellFormed.lean ====
section
/-!
DEFINITION. Well-formed instructions: the operand values R80, R81, R29, R131, R145, R164 and R170 call no instruction,
and the conditions of R275 that concern one micro-op word alone. What the register fields' own widths already say is
not repeated here; an event has no encoding and is well formed.
-/

namespace Sys2Proof

/-- The registers `tbind`, `tclr` and `tmask` may name: {h, r} in the file f (R145). -/
def taintReg (r : BitVec 5) (h : BitVec 1) (f : BitVec 2) : Bool :=
  match f.toNat with
  | 0 => h = 0
  | 1 => h = 0 ∧ r.toNat < 8
  | 2 => true
  | _ => h = 0 ∧ r.toNat < 8

/-- The anchor field of ZERO and ANCHOR: with AM = 1 it holds an mp number (R275). -/
def ancField (am : BitVec 1) (anc : BitVec 10) : Bool := am = 0 ∨ anc.toNat < 8

/-- The input formats of LOADB and STREAMA (R274). -/
def inFmt (fmt : BitVec 4) : Bool := fmt.toNat ∈ [2, 3, 4, 8]

/-- MM is zero with a format other than BFP (R275). -/
def mmField (fmt : BitVec 4) (mm : BitVec 3) : Bool := fmt = 8 ∨ mm = 0

/-- ROW0 + NR stays within the tile (R275). -/
def rowsFit (row0 nr : BitVec 7) : Bool := row0.toNat + nr.toNat ≤ 127

/-- The instruction's operands are ones its encoding admits. -/
def Instr.wf : Instr → Bool
  | .loop _ l _ => l.toNat ≤ 5
  | .brl l => l.toNat ≤ 5
  | .brlRot l => l.toNat ≤ 5
  | .mfc _ _ n => n.toNat ≤ 19
  | .mtc _ _ n => n.toNat ≤ 19
  | .ldv _ _ _ m _ => m.toNat ≤ 7
  | .stAcc _ _ _ _ o => o.toNat ≤ 11
  | .stvAcc _ _ _ _ o => o.toNat ≤ 11
  | .fence c => c.toNat ≤ 4
  | .sfence st => st ≠ 0
  | .tbind r h f => taintReg r h f
  | .tclr r h f => taintReg r h f
  | .tmask _ r h f => taintReg r h f
  | .vcmp _ _ _ _ c => c.toNat ≤ 6
  | .vcvt _ _ t r o p => (t.toNat ∈ [1, 2, 3, 4, 5, 6, 7, 9]) ∧ r.toNat ∉ [5, 6] ∧ (p = 0 ∨ o = 0)
  | .vqBfp d _ st m => m ≠ 7 ∧ d ≠ st
  | .vtag _ _ t x => t.toNat ≤ 9 ∧ (x = 0 ∨ t = 8) ∧ x ≠ 7
  | .xrmw o _ b => o.toNat ≤ 12 ∧ (o = 12 ∨ b = 0)
  | .mzero k _ a => k = 0 ∨ a = 0
  | .phreg r _ => r ≠ 3
  | .mte e _ _ _ => e.toNat ∈ [0, 2, 3, 4]
  | .mfe e _ _ _ => e.toNat ∈ [0, 2, 3, 4]
  | .zero _ kind am anc => ancField am anc ∧ (kind = 0 ∨ (am = 0 ∧ anc = 0))
  | .anchor _ am anc => ancField am anc
  | .loadb fmt mm _ _ => inFmt fmt ∧ mmField fmt mm
  | .streama fmt mm _ _ _ row0 nr _ => inFmt fmt ∧ mmField fmt mm ∧ rowsFit row0 nr
  | .acc _ _ row0 nr => rowsFit row0 nr
  | .had _ row0 nr => rowsFit row0 nr
  | .drain _ ofmt mm rm po pd _ row0 nr _ => (inFmt ofmt ∨ ofmt = 1) ∧ mmField ofmt mm ∧ rowsFit row0 nr ∧ rm.toNat ∉ [5, 6] ∧ (pd = 0 ∨ po = 0)
  | .uopLoop len cm count => len ≠ 0 ∧ (cm = 0 ∨ count.toNat < 8)
  | .add _ _ _ | .sub _ _ _ | .mul _ _ _ | .mulh _ _ _ | .mulhn _ _ _ | .div _ _ _ | .divn _ _ _ | .rem _ _ _
  | .remn _ _ _ | .and _ _ _ | .or _ _ _ | .xor _ _ _ | .shl _ _ _ | .shr _ _ _ | .sra _ _ _ | .rotl _ _ _
  | .clz _ _ | .ctz _ _ | .popc _ _ | .min _ _ _ | .max _ _ _ | .minn _ _ _ | .maxn _ _ _ | .mov _ _
  | .sel _ _ _ _ | .cmpEq _ _ _ | .cmpNe _ _ _ | .cmpLt _ _ _ | .cmpLe _ _ _ | .cmpLtn _ _ _ | .cmpLen _ _ _
  | .addi _ _ _ | .andi _ _ _ | .ori _ _ _ | .xori _ _ _ | .shli _ _ _ | .shri _ _ _ | .srai _ _ _ | .lhi _ _
  | .addb _ _ _ | .movb _ _ _ | .spb _ _ | .movbLo _ _ | .movbHi _ _ | .kand _ _ _ | .kor _ _ _ | .kxor _ _ _
  | .knot _ _ | .kmov _ _ | .kfrom _ _ _ | .ktoLo _ _ | .ktoHi _ _ | .nop | .br _ _ _ | .bra _ _ _
  | .call _ _ _ | .lbrk _ _ | .jr _ | .ret | .lidx _ _ | .trap _ | .eret | .rdst _ _ | .freeze _ | .thaw _
  | .yield | .sleep _ | .ptime _ | .exit _ | .svget _ | .ldI8 _ _ _ _ | .ldN8 _ _ _ _ | .ldI16 _ _ _ _
  | .ldN16 _ _ _ _ | .ldW _ _ _ _ | .ldb _ _ _ _ | .ldfe _ _ _ _ | .stB _ _ _ _ _ | .stH _ _ _ _ _
  | .stW _ _ _ _ _ | .stb _ _ _ _ _ | .stv _ _ _ _ _ | .stm _ _ _ _ _ | .stvMc _ _ _ _ _ | .vgath _ _ _ _
  | .vscat _ _ _ _ _ | .mkfull _ _ | .mkempty _ _ | .fecheck _ _ _ | .swarm _ _ _ | .swait _ _ _ | .fbind _ _
  | .funbind _ | .fdrain _ | .vadd _ _ _ _ | .vsub _ _ _ _ | .vmul _ _ _ _ | .vfma _ _ _ _ | .vfms _ _ _ _
  | .vneg _ _ _ | .vabs _ _ _ | .vmin _ _ _ _ | .vmax _ _ _ _ | .vrcp _ _ _ | .vrsq _ _ _ | .vexp2 _ _ _
  | .vlog2 _ _ _ | .vsel _ _ _ _ | .vaddI32 _ _ _ _ | .vsubI32 _ _ _ _ | .vmulI32 _ _ _ _ | .vshlI32 _ _ _ _
  | .vshrI32 _ _ _ _ | .vsraI32 _ _ _ _ | .vaddN32 _ _ _ _ | .vsubN32 _ _ _ _ | .vmulN32 _ _ _ _
  | .vshlN32 _ _ _ _ | .vshrN32 _ _ _ _ | .vsraN32 _ _ _ _ | .vaddI16 _ _ _ _ | .vsubI16 _ _ _ _
  | .vmulI16 _ _ _ _ | .vshlI16 _ _ _ _ | .vshrI16 _ _ _ _ | .vsraI16 _ _ _ _ | .vaddI8 _ _ _ _
  | .vsubI8 _ _ _ _ | .vmulI8 _ _ _ _ | .vshlI8 _ _ _ _ | .vshrI8 _ _ _ _ | .vsraI8 _ _ _ _ | .vand _ _ _ _
  | .vor _ _ _ _ | .vxor _ _ _ _ | .vnot _ _ _ | .vmov _ _ _ | .vdqBfp _ _ _ | .vperm _ _ _ _
  | .vrotl _ _ _ _ | .vbcast _ _ _ _ | .vext _ _ _ | .vins _ _ _ | .vzip _ _ _ _ | .vunzip _ _ _ | .vhad _ _
  | .vredsum _ _ _ | .vredmax _ _ _ | .vredmin _ _ _ | .xchain _ _ _ | .xstat _ _ _ | .xkill _ | .mcall _
  | .mpset _ _ _ | .manch _ _ | .zld _ _ _ | .zst _ _ _ | .mrload _ _ _ | .mstat _ _ _ | .cset _ | .csend _
  | .crecv _ | .creduce _ | .cbcast _ | .liftarm _ _ | .liftdisarm _ _ | .ctrig _ _ | .crnew _ _
  | .crjoin _ _ | .crleave _ _ | .crfree _ | .phdrop _ | .phsig _ | .phwait _ _ | .launch _ _ _ _
  | .lstat _ _ | .trans _ | .waitf | .groupIssue _ | .loadReturn _ _ | .storeArrive _ | .storeAck _ _ _
  | .heldNotice _ _ | .streamHeld _ _ | .xrmwApply _ | .recordClaim _ _ | .footprintRegister _ _
  | .unitArrive _ _ _ | .unitAck _ _ _ | .recordReturn _ _ | .channelFault _ _ | .killComplete _ _
  | .channelResume _ _ | .channelDrop _ _ | .channelKill _ _ | .feedFill _ _ | .feedDrainWrite _ _
  | .matrixCommandTurn _ | .routineStart _ | .contributionLand _ | .routineComplete _ | .routineLimit _
  | .messageSend _ | .messageLand _ | .messageAck _ _ _ | .countWrite _ _ | .cardTake _ | .jobAdmit _
  | .place _ | .contextSwitch _ _ | .longiterExpiry _ | .park _ | .contextSave _ | .wake _ | .sleepExpiry _
  | .gangWake _ | .deadlineOverrun _ | .coreRetire _ _ | .registerWrite _ _ | .flitReceive _ _
  | .nakReceive _ _ | .replayTimeout _ | .totalsSend _ | .totalsReceive _ _ _ | .replayWindowEnd _
  | .correctedErrorPost _ | .retrain _ | .trainingEnd _ _ _ | .routeTimeout _ | .timingFlit _ _ _ _ _
  | .wlWrite _ _ _ | .wlChangeDone _ _ | .multicastArrive _ _ | .multicastAck _ _ _ _ | .sessionOpen _
  | .sessionClose _ | .slotStore _ _ _ _ _ | .sessionValue _ _ | .sessionForwardTimeout _ | .roundend _
  | .sessionTimeout _ | .closePacket _ | .withdraw _ _ | .reopen _ _ | .withdrawMarker _ _ _ | .recontrib _
  | .exclude _ | .staleReturn _ _ | .flush _ | .migrationStart _ _ | .migrationSwitch _ | .migrationApply _
  | .migrationCandidate _ _ | .headWrite _ _ | .recordRetry _ _ | .recordDrop _ _ | .connectionThaw _ _
  | .memoryError _ | .patrolScrub _ _ _ | .errorWindowEnd _ | .hostOpen _ | .hostClose _ | .hostSubmit _
  | .hostMread _ | .hostMwrite _ | .hostCatread _ | .hostCatwrite _ | .hostImage _ | .hostAttest _
  | .hostAck _ | .retransmitTimeout _ _ | .ackTimer _ | .pkgReset _ | .powerLoss | .tempSample _ _ _
  | .stepDown _ | .stepUp _ | .trip _ | .hbmTempChange _ _ _ _ | .powerControl _ | .burst _ | .linkDown _
  | .linkTraining _ _ _ | .matrixCommandComplete _ | .copyTrafficLand _ | .creditReturn _ _ _
  | .jobEndBySystemSoftware _ | .datagramDrop _ | .remoteAccessWindowEnd _ => true

end Sys2Proof
end

