-- ==== Sys2Proof/Decode.lean ====
section
/-!
DEFINITION. Decoding of instruction words (R64, R76 to R81) and of micro-op words (R274, R275), total on every word and
rejecting by name; then the encoder, written from the same tables of spec/03_encoding_and_assembly.md,
spec/04_scalar_and_control.md to spec/08_sync_collective_system.md and spec/11_matrix_engine.md.
-/

namespace Sys2Proof

/-- The n bits of w from bit lo up. -/
def fld (w lo n : Nat) : Nat := w / 2 ^ lo % 2 ^ n

/-- The same as a bit vector. -/
def fb (w lo n : Nat) : BitVec n := BitVec.ofNat n (w / 2 ^ lo)

/-- Why a word is no instruction (R80, R81): its major is unassigned, its secondary code or a field that must be zero
is not an instruction's, or an operand field holds a value its instruction does not admit. -/
inductive DecodeErr where
  | unassignedMajor (major : Nat)
  | noSuchCode (major : Nat)
  | badField (major : Nat)
  deriving DecidableEq, Repr

/-- The SLOT code a trap for such a word carries (R66 check 2): the first slot of the major's class, 7 for an unassigned
major and for `nop`, which takes no slot. -/
def DecodeErr.slot : DecodeErr → BitVec 3
  | .unassignedMajor _ => 7
  | .noSuchCode m | .badField m =>
    if m < 15 then 0 else if m = 15 then 7 else if m < 32 then 2 else if m < 48 then 3 else if m < 61 then 4 else 6

/-- The words of major 0x01 (Tables 3.3 to 3.5). -/
def decodeMajor01 (w : Nat) : Option Instr :=
  if fld w 0 9 = 0 then some (.add (fb w 19 5) (fb w 14 5) (fb w 9 5))
  else if fld w 0 9 = 8 then some (.sub (fb w 19 5) (fb w 14 5) (fb w 9 5))
  else if fld w 0 9 = 16 then some (.mul (fb w 19 5) (fb w 14 5) (fb w 9 5))
  else if fld w 0 9 = 24 then some (.mulh (fb w 19 5) (fb w 14 5) (fb w 9 5))
  else if fld w 0 9 = 32 then some (.mulhn (fb w 19 5) (fb w 14 5) (fb w 9 5))
  else if fld w 0 9 = 40 then some (.div (fb w 19 5) (fb w 14 5) (fb w 9 5))
  else if fld w 0 9 = 48 then some (.divn (fb w 19 5) (fb w 14 5) (fb w 9 5))
  else if fld w 0 9 = 56 then some (.rem (fb w 19 5) (fb w 14 5) (fb w 9 5))
  else if fld w 0 9 = 64 then some (.remn (fb w 19 5) (fb w 14 5) (fb w 9 5))
  else if fld w 0 9 = 72 then some (.and (fb w 19 5) (fb w 14 5) (fb w 9 5))
  else if fld w 0 9 = 80 then some (.or (fb w 19 5) (fb w 14 5) (fb w 9 5))
  else if fld w 0 9 = 88 then some (.xor (fb w 19 5) (fb w 14 5) (fb w 9 5))
  else if fld w 0 9 = 96 then some (.shl (fb w 19 5) (fb w 14 5) (fb w 9 5))
  else if fld w 0 9 = 104 then some (.shr (fb w 19 5) (fb w 14 5) (fb w 9 5))
  else if fld w 0 9 = 112 then some (.sra (fb w 19 5) (fb w 14 5) (fb w 9 5))
  else if fld w 0 9 = 120 then some (.rotl (fb w 19 5) (fb w 14 5) (fb w 9 5))
  else if fld w 0 14 = 128 then some (.clz (fb w 19 5) (fb w 14 5))
  else if fld w 0 14 = 136 then some (.ctz (fb w 19 5) (fb w 14 5))
  else if fld w 0 14 = 144 then some (.popc (fb w 19 5) (fb w 14 5))
  else if fld w 0 9 = 152 then some (.min (fb w 19 5) (fb w 14 5) (fb w 9 5))
  else if fld w 0 9 = 160 then some (.max (fb w 19 5) (fb w 14 5) (fb w 9 5))
  else if fld w 0 9 = 168 then some (.minn (fb w 19 5) (fb w 14 5) (fb w 9 5))
  else if fld w 0 9 = 176 then some (.maxn (fb w 19 5) (fb w 14 5) (fb w 9 5))
  else if fld w 0 14 = 184 then some (.mov (fb w 19 5) (fb w 14 5))
  else if fld w 3 6 = 24 then some (.sel (fb w 19 5) (fb w 14 5) (fb w 9 5) (fb w 0 3))
  else if fld w 0 9 = 200 ∧ fld w 22 2 = 0 then some (.cmpEq (fb w 19 3) (fb w 14 5) (fb w 9 5))
  else if fld w 0 9 = 208 ∧ fld w 22 2 = 0 then some (.cmpNe (fb w 19 3) (fb w 14 5) (fb w 9 5))
  else if fld w 0 9 = 216 ∧ fld w 22 2 = 0 then some (.cmpLt (fb w 19 3) (fb w 14 5) (fb w 9 5))
  else if fld w 0 9 = 224 ∧ fld w 22 2 = 0 then some (.cmpLe (fb w 19 3) (fb w 14 5) (fb w 9 5))
  else if fld w 0 9 = 232 ∧ fld w 22 2 = 0 then some (.cmpLtn (fb w 19 3) (fb w 14 5) (fb w 9 5))
  else if fld w 0 9 = 240 ∧ fld w 22 2 = 0 then some (.cmpLen (fb w 19 3) (fb w 14 5) (fb w 9 5))
  else none

/-- The words of major 0x02 (Tables 3.3 to 3.5). -/
def decodeMajor02 (w : Nat) : Option Instr :=
  some (.addi (fb w 19 5) (fb w 14 5) (fb w 0 14))

/-- The words of major 0x03 (Tables 3.3 to 3.5). -/
def decodeMajor03 (w : Nat) : Option Instr :=
  some (.andi (fb w 19 5) (fb w 14 5) (fb w 0 14))

/-- The words of major 0x04 (Tables 3.3 to 3.5). -/
def decodeMajor04 (w : Nat) : Option Instr :=
  some (.ori (fb w 19 5) (fb w 14 5) (fb w 0 14))

/-- The words of major 0x05 (Tables 3.3 to 3.5). -/
def decodeMajor05 (w : Nat) : Option Instr :=
  some (.xori (fb w 19 5) (fb w 14 5) (fb w 0 14))

/-- The words of major 0x06 (Tables 3.3 to 3.5). -/
def decodeMajor06 (w : Nat) : Option Instr :=
  if fld w 5 9 = 0 then some (.shli (fb w 19 5) (fb w 14 5) (fb w 0 5))
  else if fld w 5 9 = 1 then some (.shri (fb w 19 5) (fb w 14 5) (fb w 0 5))
  else if fld w 5 9 = 2 then some (.srai (fb w 19 5) (fb w 14 5) (fb w 0 5))
  else none

/-- The words of major 0x07 (Tables 3.3 to 3.5). -/
def decodeMajor07 (w : Nat) : Option Instr :=
  some (.lhi (fb w 19 5) (fb w 0 19))

/-- The words of major 0x08 (Tables 3.3 to 3.5). -/
def decodeMajor08 (w : Nat) : Option Instr :=
  if fld w 0 9 = 0 ∧ fld w 17 2 = 0 ∧ fld w 22 2 = 0 then some (.addb (fb w 19 3) (fb w 14 3) (fb w 9 5))
  else if fld w 0 9 = 1 ∧ fld w 22 2 = 0 then some (.movb (fb w 19 3) (fb w 14 5) (fb w 9 5))
  else if fld w 0 14 = 2 ∧ fld w 22 2 = 0 then some (.spb (fb w 19 3) (fb w 14 5))
  else if fld w 0 14 = 3 ∧ fld w 17 2 = 0 then some (.movbLo (fb w 19 5) (fb w 14 3))
  else if fld w 0 14 = 4 ∧ fld w 17 2 = 0 then some (.movbHi (fb w 19 5) (fb w 14 3))
  else none

/-- The words of major 0x09 (Tables 3.3 to 3.5). -/
def decodeMajor09 (w : Nat) : Option Instr :=
  if fld w 0 9 = 0 ∧ fld w 12 2 = 0 ∧ fld w 17 2 = 0 ∧ fld w 22 2 = 0 then some (.kand (fb w 19 3) (fb w 14 3) (fb w 9 3))
  else if fld w 0 9 = 1 ∧ fld w 12 2 = 0 ∧ fld w 17 2 = 0 ∧ fld w 22 2 = 0 then some (.kor (fb w 19 3) (fb w 14 3) (fb w 9 3))
  else if fld w 0 9 = 2 ∧ fld w 12 2 = 0 ∧ fld w 17 2 = 0 ∧ fld w 22 2 = 0 then some (.kxor (fb w 19 3) (fb w 14 3) (fb w 9 3))
  else if fld w 0 14 = 3 ∧ fld w 17 2 = 0 ∧ fld w 22 2 = 0 then some (.knot (fb w 19 3) (fb w 14 3))
  else if fld w 0 14 = 4 ∧ fld w 17 2 = 0 ∧ fld w 22 2 = 0 then some (.kmov (fb w 19 3) (fb w 14 3))
  else if fld w 0 9 = 5 ∧ fld w 22 2 = 0 then some (.kfrom (fb w 19 3) (fb w 14 5) (fb w 9 5))
  else if fld w 0 14 = 6 ∧ fld w 17 2 = 0 then some (.ktoLo (fb w 19 5) (fb w 14 3))
  else if fld w 0 14 = 7 ∧ fld w 17 2 = 0 then some (.ktoHi (fb w 19 5) (fb w 14 3))
  else none

/-- The words of major 0x0F (Tables 3.3 to 3.5). -/
def decodeMajor0F (w : Nat) : Option Instr :=
  if fld w 0 24 = 0 then some (.nop)
  else none

/-- The words of major 0x10 (Tables 3.3 to 3.5). -/
def decodeMajor10 (w : Nat) : Option Instr :=
  some (.br (fb w 23 1) (fb w 20 3) (fb w 0 20))

/-- The words of major 0x11 (Tables 3.3 to 3.5). -/
def decodeMajor11 (w : Nat) : Option Instr :=
  some (.bra (fb w 23 1) (fb w 20 3) (fb w 0 20))

/-- The words of major 0x12 (Tables 3.3 to 3.5). -/
def decodeMajor12 (w : Nat) : Option Instr :=
  some (.call (fb w 23 1) (fb w 20 3) (fb w 0 20))

/-- The words of major 0x13 (Tables 3.3 to 3.5). -/
def decodeMajor13 (w : Nat) : Option Instr :=
  if fld w 0 20 = 0 then some (.lbrk (fb w 23 1) (fb w 20 3))
  else none

/-- The words of major 0x14 (Tables 3.3 to 3.5). -/
def decodeMajor14 (w : Nat) : Option Instr :=
  if fld w 15 1 = 0 then some (.loop (fb w 19 5) (fb w 16 3) (fb w 0 15))
  else none

/-- The words of major 0x15 (Tables 3.3 to 3.5). -/
def decodeMajor15 (w : Nat) : Option Instr :=
  if fld w 0 16 = 0 ∧ fld w 19 5 = 0 then some (.brl (fb w 16 3))
  else if fld w 0 16 = 32768 ∧ fld w 19 5 = 0 then some (.brlRot (fb w 16 3))
  else none

/-- The words of major 0x16 (Tables 3.3 to 3.5). -/
def decodeMajor16 (w : Nat) : Option Instr :=
  if fld w 0 14 = 0 ∧ fld w 17 7 = 0 then some (.jr (fb w 14 3))
  else if fld w 0 24 = 1 then some (.ret)
  else if fld w 0 14 = 2 then some (.lidx (fb w 19 5) (fb w 14 5))
  else none

/-- The words of major 0x17 (Tables 3.3 to 3.5). -/
def decodeMajor17 (w : Nat) : Option Instr :=
  if fld w 8 16 = 0 then some (.trap (fb w 0 8))
  else if fld w 0 24 = 262144 then some (.eret)
  else if fld w 18 6 = 2 then some (.mfc (fb w 13 5) (fb w 8 5) (fb w 0 8))
  else if fld w 18 6 = 3 then some (.mtc (fb w 13 5) (fb w 8 5) (fb w 0 8))
  else if fld w 0 8 = 0 ∧ fld w 11 2 = 0 ∧ fld w 16 8 = 16 then some (.rdst (fb w 13 3) (fb w 8 3))
  else if fld w 0 8 = 0 ∧ fld w 13 11 = 160 then some (.freeze (fb w 8 5))
  else if fld w 0 8 = 0 ∧ fld w 13 11 = 192 then some (.thaw (fb w 8 5))
  else if fld w 0 24 = 1835008 then some (.yield)
  else if fld w 0 8 = 0 ∧ fld w 13 11 = 256 then some (.sleep (fb w 8 5))
  else if fld w 0 13 = 0 ∧ fld w 16 8 = 36 then some (.ptime (fb w 13 3))
  else if fld w 0 8 = 0 ∧ fld w 13 11 = 320 then some (.exit (fb w 8 5))
  else if fld w 0 13 = 0 ∧ fld w 18 6 = 11 then some (.svget (fb w 13 5))
  else none

/-- The words of major 0x20 (Tables 3.3 to 3.5). -/
def decodeMajor20 (w : Nat) : Option Instr :=
  if fld w 6 4 = 0 ∧ fld w 23 1 = 0 then some (.ldI8 (fb w 18 5) (fb w 15 3) (fb w 10 5) (fb w 0 6))
  else if fld w 6 4 = 1 ∧ fld w 23 1 = 0 then some (.ldN8 (fb w 18 5) (fb w 15 3) (fb w 10 5) (fb w 0 6))
  else if fld w 6 4 = 2 ∧ fld w 23 1 = 0 then some (.ldI16 (fb w 18 5) (fb w 15 3) (fb w 10 5) (fb w 0 6))
  else if fld w 6 4 = 3 ∧ fld w 23 1 = 0 then some (.ldN16 (fb w 18 5) (fb w 15 3) (fb w 10 5) (fb w 0 6))
  else if fld w 6 4 = 4 ∧ fld w 23 1 = 0 then some (.ldW (fb w 18 5) (fb w 15 3) (fb w 10 5) (fb w 0 6))
  else if fld w 6 4 = 5 ∧ fld w 21 3 = 0 then some (.ldb (fb w 18 3) (fb w 15 3) (fb w 10 5) (fb w 0 6))
  else if fld w 6 4 = 6 ∧ fld w 23 1 = 0 then some (.ldfe (fb w 18 5) (fb w 15 3) (fb w 10 5) (fb w 0 6))
  else none

/-- The words of major 0x21 (Tables 3.3 to 3.5). -/
def decodeMajor21 (w : Nat) : Option Instr :=
  some (.ldv (fb w 18 6) (fb w 15 3) (fb w 10 5) (fb w 6 4) (fb w 0 6))

/-- The words of major 0x22 (Tables 3.3 to 3.5). -/
def decodeMajor22 (w : Nat) : Option Instr :=
  if fld w 23 1 = 0 then some (.stB (fb w 18 5) (fb w 15 3) (fb w 10 5) (fb w 6 4) (fb w 0 6))
  else none

/-- The words of major 0x23 (Tables 3.3 to 3.5). -/
def decodeMajor23 (w : Nat) : Option Instr :=
  if fld w 23 1 = 0 then some (.stH (fb w 18 5) (fb w 15 3) (fb w 10 5) (fb w 6 4) (fb w 0 6))
  else none

/-- The words of major 0x24 (Tables 3.3 to 3.5). -/
def decodeMajor24 (w : Nat) : Option Instr :=
  if fld w 23 1 = 0 then some (.stW (fb w 18 5) (fb w 15 3) (fb w 10 5) (fb w 6 4) (fb w 0 6))
  else none

/-- The words of major 0x25 (Tables 3.3 to 3.5). -/
def decodeMajor25 (w : Nat) : Option Instr :=
  if fld w 21 3 = 0 then some (.stb (fb w 18 3) (fb w 15 3) (fb w 10 5) (fb w 6 4) (fb w 0 6))
  else none

/-- The words of major 0x26 (Tables 3.3 to 3.5). -/
def decodeMajor26 (w : Nat) : Option Instr :=
  some (.stv (fb w 18 6) (fb w 15 3) (fb w 10 5) (fb w 6 4) (fb w 0 6))

/-- The words of major 0x27 (Tables 3.3 to 3.5). -/
def decodeMajor27 (w : Nat) : Option Instr :=
  if fld w 10 2 = 0 then some (.stm (fb w 18 6) (fb w 15 3) (fb w 12 3) (fb w 6 4) (fb w 0 6))
  else none

/-- The words of major 0x28 (Tables 3.3 to 3.5). -/
def decodeMajor28 (w : Nat) : Option Instr :=
  some (.stvMc (fb w 18 6) (fb w 15 3) (fb w 10 5) (fb w 6 4) (fb w 0 6))

/-- The words of major 0x29 (Tables 3.3 to 3.5). -/
def decodeMajor29 (w : Nat) : Option Instr :=
  if fld w 0 6 = 0 then some (.vgath (fb w 18 6) (fb w 15 3) (fb w 9 6) (fb w 6 3))
  else none

/-- The words of major 0x2A (Tables 3.3 to 3.5). -/
def decodeMajor2A (w : Nat) : Option Instr :=
  if fld w 0 2 = 0 then some (.vscat (fb w 18 6) (fb w 15 3) (fb w 9 6) (fb w 6 3) (fb w 2 4))
  else none

/-- The words of major 0x2B (Tables 3.3 to 3.5). -/
def decodeMajor2B (w : Nat) : Option Instr :=
  if fld w 0 2 = 0 ∧ fld w 23 1 = 0 then some (.stAcc (fb w 18 5) (fb w 15 3) (fb w 10 5) (fb w 6 4) (fb w 2 4))
  else none

/-- The words of major 0x2C (Tables 3.3 to 3.5). -/
def decodeMajor2C (w : Nat) : Option Instr :=
  if fld w 0 2 = 0 then some (.stvAcc (fb w 18 6) (fb w 15 3) (fb w 10 5) (fb w 6 4) (fb w 2 4))
  else none

/-- The words of major 0x2D (Tables 3.3 to 3.5). -/
def decodeMajor2D (w : Nat) : Option Instr :=
  if fld w 0 9 = 0 ∧ fld w 17 7 = 0 then some (.mkfull (fb w 14 3) (fb w 9 5))
  else if fld w 0 9 = 16 ∧ fld w 17 7 = 0 then some (.mkempty (fb w 14 3) (fb w 9 5))
  else if fld w 0 9 = 32 ∧ fld w 17 2 = 0 then some (.fecheck (fb w 19 5) (fb w 14 3) (fb w 9 5))
  else if fld w 0 9 = 48 ∧ fld w 17 2 = 0 then some (.swarm (fb w 19 5) (fb w 14 3) (fb w 9 5))
  else if fld w 0 9 = 64 ∧ fld w 17 2 = 0 then some (.swait (fb w 19 5) (fb w 14 3) (fb w 9 5))
  else if fld w 0 14 = 80 ∧ fld w 22 2 = 0 then some (.fbind (fb w 19 3) (fb w 14 5))
  else if fld w 0 19 = 96 ∧ fld w 22 2 = 0 then some (.funbind (fb w 19 3))
  else if fld w 0 19 = 112 ∧ fld w 22 2 = 0 then some (.fdrain (fb w 19 3))
  else if fld w 4 20 = 8 then some (.fence (fb w 0 4))
  else if fld w 4 20 = 9 then some (.sfence (fb w 0 4))
  else if fld w 3 16 = 20 then some (.tbind (fb w 19 5) (fb w 2 1) (fb w 0 2))
  else if fld w 3 16 = 22 then some (.tclr (fb w 19 5) (fb w 2 1) (fb w 0 2))
  else if fld w 3 11 = 24 then some (.tmask (fb w 19 5) (fb w 14 5) (fb w 2 1) (fb w 0 2))
  else none

/-- The words of major 0x30 (Tables 3.3 to 3.5). -/
def decodeMajor30 (w : Nat) : Option Instr :=
  if fld w 0 3 = 0 then some (.vadd (fb w 18 6) (fb w 12 6) (fb w 6 6) (fb w 3 3))
  else if fld w 0 3 = 1 then some (.vsub (fb w 18 6) (fb w 12 6) (fb w 6 6) (fb w 3 3))
  else if fld w 0 3 = 2 then some (.vmul (fb w 18 6) (fb w 12 6) (fb w 6 6) (fb w 3 3))
  else if fld w 0 3 = 3 then some (.vfma (fb w 18 6) (fb w 12 6) (fb w 6 6) (fb w 3 3))
  else if fld w 0 3 = 4 then some (.vfms (fb w 18 6) (fb w 12 6) (fb w 6 6) (fb w 3 3))
  else if fld w 0 3 = 5 ∧ fld w 6 6 = 0 then some (.vneg (fb w 18 6) (fb w 12 6) (fb w 3 3))
  else if fld w 0 3 = 6 ∧ fld w 6 6 = 0 then some (.vabs (fb w 18 6) (fb w 12 6) (fb w 3 3))
  else if fld w 0 3 = 7 then some (.vmin (fb w 18 6) (fb w 12 6) (fb w 6 6) (fb w 3 3))
  else none

/-- The words of major 0x31 (Tables 3.3 to 3.5). -/
def decodeMajor31 (w : Nat) : Option Instr :=
  if fld w 0 3 = 0 then some (.vmax (fb w 18 6) (fb w 12 6) (fb w 6 6) (fb w 3 3))
  else if fld w 0 3 = 1 ∧ fld w 6 6 = 0 then some (.vrcp (fb w 18 6) (fb w 12 6) (fb w 3 3))
  else if fld w 0 3 = 2 ∧ fld w 6 6 = 0 then some (.vrsq (fb w 18 6) (fb w 12 6) (fb w 3 3))
  else if fld w 0 3 = 3 ∧ fld w 6 6 = 0 then some (.vexp2 (fb w 18 6) (fb w 12 6) (fb w 3 3))
  else if fld w 0 3 = 4 ∧ fld w 6 6 = 0 then some (.vlog2 (fb w 18 6) (fb w 12 6) (fb w 3 3))
  else if fld w 0 3 = 5 then some (.vsel (fb w 18 6) (fb w 12 6) (fb w 6 6) (fb w 3 3))
  else none

/-- The words of major 0x32 (Tables 3.3 to 3.5). -/
def decodeMajor32 (w : Nat) : Option Instr :=
  if fld w 21 3 = 0 then some (.vcmp (fb w 18 3) (fb w 12 6) (fb w 6 6) (fb w 3 3) (fb w 0 3))
  else none

/-- The words of major 0x33 (Tables 3.3 to 3.5). -/
def decodeMajor33 (w : Nat) : Option Instr :=
  if fld w 0 3 = 0 then some (.vaddI32 (fb w 18 6) (fb w 12 6) (fb w 6 6) (fb w 3 3))
  else if fld w 0 3 = 1 then some (.vsubI32 (fb w 18 6) (fb w 12 6) (fb w 6 6) (fb w 3 3))
  else if fld w 0 3 = 2 then some (.vmulI32 (fb w 18 6) (fb w 12 6) (fb w 6 6) (fb w 3 3))
  else if fld w 0 3 = 3 then some (.vshlI32 (fb w 18 6) (fb w 12 6) (fb w 6 6) (fb w 3 3))
  else if fld w 0 3 = 4 then some (.vshrI32 (fb w 18 6) (fb w 12 6) (fb w 6 6) (fb w 3 3))
  else if fld w 0 3 = 5 then some (.vsraI32 (fb w 18 6) (fb w 12 6) (fb w 6 6) (fb w 3 3))
  else none

/-- The words of major 0x34 (Tables 3.3 to 3.5). -/
def decodeMajor34 (w : Nat) : Option Instr :=
  if fld w 0 3 = 0 then some (.vaddN32 (fb w 18 6) (fb w 12 6) (fb w 6 6) (fb w 3 3))
  else if fld w 0 3 = 1 then some (.vsubN32 (fb w 18 6) (fb w 12 6) (fb w 6 6) (fb w 3 3))
  else if fld w 0 3 = 2 then some (.vmulN32 (fb w 18 6) (fb w 12 6) (fb w 6 6) (fb w 3 3))
  else if fld w 0 3 = 3 then some (.vshlN32 (fb w 18 6) (fb w 12 6) (fb w 6 6) (fb w 3 3))
  else if fld w 0 3 = 4 then some (.vshrN32 (fb w 18 6) (fb w 12 6) (fb w 6 6) (fb w 3 3))
  else if fld w 0 3 = 5 then some (.vsraN32 (fb w 18 6) (fb w 12 6) (fb w 6 6) (fb w 3 3))
  else none

/-- The words of major 0x35 (Tables 3.3 to 3.5). -/
def decodeMajor35 (w : Nat) : Option Instr :=
  if fld w 0 3 = 0 then some (.vaddI16 (fb w 18 6) (fb w 12 6) (fb w 6 6) (fb w 3 3))
  else if fld w 0 3 = 1 then some (.vsubI16 (fb w 18 6) (fb w 12 6) (fb w 6 6) (fb w 3 3))
  else if fld w 0 3 = 2 then some (.vmulI16 (fb w 18 6) (fb w 12 6) (fb w 6 6) (fb w 3 3))
  else if fld w 0 3 = 3 then some (.vshlI16 (fb w 18 6) (fb w 12 6) (fb w 6 6) (fb w 3 3))
  else if fld w 0 3 = 4 then some (.vshrI16 (fb w 18 6) (fb w 12 6) (fb w 6 6) (fb w 3 3))
  else if fld w 0 3 = 5 then some (.vsraI16 (fb w 18 6) (fb w 12 6) (fb w 6 6) (fb w 3 3))
  else none

/-- The words of major 0x36 (Tables 3.3 to 3.5). -/
def decodeMajor36 (w : Nat) : Option Instr :=
  if fld w 0 3 = 0 then some (.vaddI8 (fb w 18 6) (fb w 12 6) (fb w 6 6) (fb w 3 3))
  else if fld w 0 3 = 1 then some (.vsubI8 (fb w 18 6) (fb w 12 6) (fb w 6 6) (fb w 3 3))
  else if fld w 0 3 = 2 then some (.vmulI8 (fb w 18 6) (fb w 12 6) (fb w 6 6) (fb w 3 3))
  else if fld w 0 3 = 3 then some (.vshlI8 (fb w 18 6) (fb w 12 6) (fb w 6 6) (fb w 3 3))
  else if fld w 0 3 = 4 then some (.vshrI8 (fb w 18 6) (fb w 12 6) (fb w 6 6) (fb w 3 3))
  else if fld w 0 3 = 5 then some (.vsraI8 (fb w 18 6) (fb w 12 6) (fb w 6 6) (fb w 3 3))
  else none

/-- The words of major 0x37 (Tables 3.3 to 3.5). -/
def decodeMajor37 (w : Nat) : Option Instr :=
  if fld w 0 3 = 0 then some (.vand (fb w 18 6) (fb w 12 6) (fb w 6 6) (fb w 3 3))
  else if fld w 0 3 = 1 then some (.vor (fb w 18 6) (fb w 12 6) (fb w 6 6) (fb w 3 3))
  else if fld w 0 3 = 2 then some (.vxor (fb w 18 6) (fb w 12 6) (fb w 6 6) (fb w 3 3))
  else if fld w 0 3 = 3 ∧ fld w 6 6 = 0 then some (.vnot (fb w 18 6) (fb w 12 6) (fb w 3 3))
  else if fld w 0 3 = 4 ∧ fld w 6 6 = 0 then some (.vmov (fb w 18 6) (fb w 12 6) (fb w 3 3))
  else none

/-- The words of major 0x38 (Tables 3.3 to 3.5). -/
def decodeMajor38 (w : Nat) : Option Instr :=
  if fld w 0 2 = 0 then some (.vcvt (fb w 18 6) (fb w 12 6) (fb w 8 4) (fb w 5 3) (fb w 3 2) (fb w 2 1))
  else none

/-- The words of major 0x39 (Tables 3.3 to 3.5). -/
def decodeMajor39 (w : Nat) : Option Instr :=
  if fld w 0 3 = 0 then some (.vqBfp (fb w 18 6) (fb w 12 6) (fb w 6 6) (fb w 3 3))
  else none

/-- The words of major 0x3A (Tables 3.3 to 3.5). -/
def decodeMajor3A (w : Nat) : Option Instr :=
  if fld w 0 6 = 0 then some (.vdqBfp (fb w 18 6) (fb w 12 6) (fb w 6 6))
  else none

/-- The words of major 0x3B (Tables 3.3 to 3.5). -/
def decodeMajor3B (w : Nat) : Option Instr :=
  if fld w 0 3 = 0 then some (.vperm (fb w 18 6) (fb w 12 6) (fb w 6 6) (fb w 3 3))
  else if fld w 0 3 = 1 then some (.vrotl (fb w 18 6) (fb w 12 6) (fb w 6 6) (fb w 3 3))
  else if fld w 0 3 = 2 then some (.vbcast (fb w 18 6) (fb w 12 6) (fb w 6 6) (fb w 3 3))
  else if fld w 0 6 = 3 ∧ fld w 23 1 = 0 then some (.vext (fb w 18 5) (fb w 12 6) (fb w 6 6))
  else if fld w 0 6 = 4 ∧ fld w 17 1 = 0 then some (.vins (fb w 18 6) (fb w 12 5) (fb w 6 6))
  else if fld w 0 3 = 5 then some (.vzip (fb w 18 6) (fb w 12 6) (fb w 6 6) (fb w 3 3))
  else if fld w 0 3 = 6 ∧ fld w 6 6 = 0 then some (.vunzip (fb w 18 6) (fb w 12 6) (fb w 3 3))
  else if fld w 0 12 = 7 then some (.vhad (fb w 18 6) (fb w 12 6))
  else none

/-- The words of major 0x3C (Tables 3.3 to 3.5). -/
def decodeMajor3C (w : Nat) : Option Instr :=
  if fld w 0 3 = 0 ∧ fld w 6 6 = 0 then some (.vredsum (fb w 18 6) (fb w 12 6) (fb w 3 3))
  else if fld w 0 3 = 1 ∧ fld w 6 6 = 0 then some (.vredmax (fb w 18 6) (fb w 12 6) (fb w 3 3))
  else if fld w 0 3 = 2 ∧ fld w 6 6 = 0 then some (.vredmin (fb w 18 6) (fb w 12 6) (fb w 3 3))
  else if fld w 0 3 = 3 ∧ fld w 10 2 = 0 then some (.vtag (fb w 18 6) (fb w 12 6) (fb w 6 4) (fb w 3 3))
  else none

/-- The words of major 0x3D (Tables 3.3 to 3.5). -/
def decodeMajor3D (w : Nat) : Option Instr :=
  if fld w 17 7 = 0 then some (.xchain (fb w 10 7) (fb w 5 5) (fb w 0 5))
  else if fld w 17 7 = 2 then some (.xstat (fb w 10 7) (fb w 5 5) (fb w 0 5))
  else if fld w 0 10 = 0 ∧ fld w 17 7 = 4 then some (.xkill (fb w 10 7))
  else if fld w 10 7 = 0 ∧ fld w 21 3 = 1 then some (.xrmw (fb w 17 4) (fb w 5 5) (fb w 0 5))
  else if fld w 0 10 = 0 ∧ fld w 18 6 = 16 then some (.mcall (fb w 10 8))
  else if fld w 13 11 = 544 then some (.mpset (fb w 10 3) (fb w 5 5) (fb w 0 5))
  else if fld w 0 5 = 0 ∧ fld w 14 10 = 288 then some (.mzero (fb w 13 1) (fb w 10 3) (fb w 5 5))
  else if fld w 0 5 = 0 ∧ fld w 13 11 = 608 then some (.manch (fb w 10 3) (fb w 5 5))
  else if fld w 13 11 = 640 then some (.zld (fb w 10 3) (fb w 5 5) (fb w 0 5))
  else if fld w 13 11 = 672 then some (.zst (fb w 10 3) (fb w 5 5) (fb w 0 5))
  else if fld w 18 6 = 22 then some (.mrload (fb w 10 8) (fb w 5 5) (fb w 0 5))
  else if fld w 13 11 = 736 then some (.mstat (fb w 10 3) (fb w 5 5) (fb w 0 5))
  else if fld w 0 5 = 0 ∧ fld w 10 14 = 8192 then some (.cset (fb w 5 5))
  else if fld w 0 5 = 0 ∧ fld w 10 14 = 8448 then some (.csend (fb w 5 5))
  else if fld w 0 5 = 0 ∧ fld w 10 14 = 8704 then some (.crecv (fb w 5 5))
  else if fld w 0 5 = 0 ∧ fld w 10 14 = 8960 then some (.creduce (fb w 5 5))
  else if fld w 0 5 = 0 ∧ fld w 10 14 = 9216 then some (.cbcast (fb w 5 5))
  else if fld w 10 14 = 9472 then some (.liftarm (fb w 5 5) (fb w 0 5))
  else if fld w 10 14 = 9728 then some (.liftdisarm (fb w 5 5) (fb w 0 5))
  else if fld w 10 14 = 9984 then some (.ctrig (fb w 5 5) (fb w 0 5))
  else if fld w 10 14 = 10240 then some (.crnew (fb w 5 5) (fb w 0 5))
  else if fld w 10 14 = 10496 then some (.crjoin (fb w 5 5) (fb w 0 5))
  else if fld w 10 14 = 10752 then some (.crleave (fb w 5 5) (fb w 0 5))
  else if fld w 0 5 = 0 ∧ fld w 10 14 = 11008 then some (.crfree (fb w 5 5))
  else if fld w 0 5 = 0 ∧ fld w 12 12 = 2816 then some (.phreg (fb w 10 2) (fb w 5 5))
  else if fld w 0 5 = 0 ∧ fld w 10 14 = 11520 then some (.phdrop (fb w 5 5))
  else if fld w 0 5 = 0 ∧ fld w 10 14 = 11776 then some (.phsig (fb w 5 5))
  else if fld w 0 5 = 0 ∧ fld w 11 13 = 6016 then some (.phwait (fb w 10 1) (fb w 5 5))
  else if fld w 18 6 = 48 then some (.launch (fb w 13 5) (fb w 10 3) (fb w 5 5) (fb w 0 5))
  else if fld w 10 14 = 12544 then some (.lstat (fb w 5 5) (fb w 0 5))
  else none

/-- The words of major 0x3E (Tables 3.3 to 3.5). -/
def decodeMajor3E (w : Nat) : Option Instr :=
  if fld w 10 4 = 0 then some (.mte (fb w 21 3) (fb w 14 7) (fb w 5 5) (fb w 0 5))
  else none

/-- The words of major 0x3F (Tables 3.3 to 3.5). -/
def decodeMajor3F (w : Nat) : Option Instr :=
  if fld w 10 4 = 0 then some (.mfe (fb w 21 3) (fb w 14 7) (fb w 5 5) (fb w 0 5))
  else none

/-- The instruction a word spells by its fixed bits (Tables 3.3 to 3.5). -/
def decodeRaw (w : Nat) : Option Instr :=
  match fld w 24 6 with
  | 1 => decodeMajor01 w
  | 2 => decodeMajor02 w
  | 3 => decodeMajor03 w
  | 4 => decodeMajor04 w
  | 5 => decodeMajor05 w
  | 6 => decodeMajor06 w
  | 7 => decodeMajor07 w
  | 8 => decodeMajor08 w
  | 9 => decodeMajor09 w
  | 15 => decodeMajor0F w
  | 16 => decodeMajor10 w
  | 17 => decodeMajor11 w
  | 18 => decodeMajor12 w
  | 19 => decodeMajor13 w
  | 20 => decodeMajor14 w
  | 21 => decodeMajor15 w
  | 22 => decodeMajor16 w
  | 23 => decodeMajor17 w
  | 32 => decodeMajor20 w
  | 33 => decodeMajor21 w
  | 34 => decodeMajor22 w
  | 35 => decodeMajor23 w
  | 36 => decodeMajor24 w
  | 37 => decodeMajor25 w
  | 38 => decodeMajor26 w
  | 39 => decodeMajor27 w
  | 40 => decodeMajor28 w
  | 41 => decodeMajor29 w
  | 42 => decodeMajor2A w
  | 43 => decodeMajor2B w
  | 44 => decodeMajor2C w
  | 45 => decodeMajor2D w
  | 48 => decodeMajor30 w
  | 49 => decodeMajor31 w
  | 50 => decodeMajor32 w
  | 51 => decodeMajor33 w
  | 52 => decodeMajor34 w
  | 53 => decodeMajor35 w
  | 54 => decodeMajor36 w
  | 55 => decodeMajor37 w
  | 56 => decodeMajor38 w
  | 57 => decodeMajor39 w
  | 58 => decodeMajor3A w
  | 59 => decodeMajor3B w
  | 60 => decodeMajor3C w
  | 61 => decodeMajor3D w
  | 62 => decodeMajor3E w
  | 63 => decodeMajor3F w
  | _ => none

/-- The majors Table 3.4 assigns. -/
def majorAssigned (m : Nat) : Bool :=
  (1 ≤ m ∧ m ≤ 9) ∨ (15 ≤ m ∧ m ≤ 23) ∨ (32 ≤ m ∧ m ≤ 45) ∨ (48 ≤ m ∧ m ≤ 63)

/-- The instruction of a 32-bit word with its S and Y bits (R64), or why it is none (R80, R81). -/
def decode (w : Nat) : Except DecodeErr GroupWord :=
  match decodeRaw w with
  | none => .error (if majorAssigned (fld w 24 6) then .noSuchCode (fld w 24 6) else .unassignedMajor (fld w 24 6))
  | some i =>
    if i.wf then .ok { stop := fld w 31 1 = 1, sync := fld w 30 1 = 1, instr := i }
    else .error (.badField (fld w 24 6))

/-- The micro-op a 64-bit word spells (Table 11.3); fields not shown must be zero. -/
def decodeUopRaw (w : Nat) : Option Instr :=
  match fld w 60 4 with
  | 1 => if fld w 0 44 = 0 then some (.zero (fb w 56 4) (fb w 55 1) (fb w 54 1) (fb w 44 10)) else none
  | 2 => if fld w 0 44 = 0 ∧ fld w 55 1 = 0 then some (.anchor (fb w 56 4) (fb w 54 1) (fb w 44 10)) else none
  | 3 => if fld w 0 42 = 0 then some (.loadb (fb w 56 4) (fb w 53 3) (fb w 45 8) (fb w 42 3)) else none
  | 4 =>
    if fld w 0 23 = 0 then
      some (.streama (fb w 56 4) (fb w 53 3) (fb w 45 8) (fb w 42 3) (fb w 38 4) (fb w 31 7) (fb w 24 7) (fb w 23 1))
    else none
  | 5 => if fld w 0 38 = 0 then some (.acc (fb w 56 4) (fb w 52 4) (fb w 45 7) (fb w 38 7)) else none
  | 6 => if fld w 1 59 = 0 then some (.trans (fb w 0 1)) else none
  | 7 => if fld w 0 42 = 0 then some (.had (fb w 56 4) (fb w 49 7) (fb w 42 7)) else none
  | 8 =>
    if fld w 0 18 = 0 then
      some (.drain (fb w 56 4) (fb w 52 4) (fb w 49 3) (fb w 46 3) (fb w 44 2) (fb w 43 1) (fb w 40 3) (fb w 33 7)
        (fb w 26 7) (fb w 18 8))
    else none
  | 9 => if fld w 0 60 = 0 then some .waitf else none
  | 10 => if fld w 32 15 = 0 then some (.uopLoop (fb w 48 12) (fb w 47 1) (fb w 0 32)) else none
  | _ => none

/-- The micro-op of a 64-bit word, or none where R275 calls the word invalid. -/
def decodeUop (w : Nat) : Option Instr :=
  match decodeUopRaw w with
  | some i => if i.wf then some i else none
  | none => none

/-- The decoder on a row of the opcode table: 32 bits are an instruction word, 64 a micro-op word; an event has no
encoding. -/
def decodeTableWord (nbits w : Nat) : Option Instr :=
  match nbits with
  | 32 => (decode w).toOption.map GroupWord.instr
  | 64 => decodeUop w
  | _ => none

/-- A field placed at bit lo. -/
def sh {n : Nat} (b : BitVec n) (lo : Nat) : Nat := b.toNat * 2 ^ lo

/-- The 30 low bits of an instruction's word, from the same tables; a micro-op or an event has no such word and is given 0. -/
def encodeInstr : Instr → Nat
  | .add d a b => 0x01000000 + sh d 19 + sh a 14 + sh b 9
  | .sub d a b => 0x01000008 + sh d 19 + sh a 14 + sh b 9
  | .mul d a b => 0x01000010 + sh d 19 + sh a 14 + sh b 9
  | .mulh d a b => 0x01000018 + sh d 19 + sh a 14 + sh b 9
  | .mulhn d a b => 0x01000020 + sh d 19 + sh a 14 + sh b 9
  | .div d a b => 0x01000028 + sh d 19 + sh a 14 + sh b 9
  | .divn d a b => 0x01000030 + sh d 19 + sh a 14 + sh b 9
  | .rem d a b => 0x01000038 + sh d 19 + sh a 14 + sh b 9
  | .remn d a b => 0x01000040 + sh d 19 + sh a 14 + sh b 9
  | .and d a b => 0x01000048 + sh d 19 + sh a 14 + sh b 9
  | .or d a b => 0x01000050 + sh d 19 + sh a 14 + sh b 9
  | .xor d a b => 0x01000058 + sh d 19 + sh a 14 + sh b 9
  | .shl d a b => 0x01000060 + sh d 19 + sh a 14 + sh b 9
  | .shr d a b => 0x01000068 + sh d 19 + sh a 14 + sh b 9
  | .sra d a b => 0x01000070 + sh d 19 + sh a 14 + sh b 9
  | .rotl d a b => 0x01000078 + sh d 19 + sh a 14 + sh b 9
  | .clz d a => 0x01000080 + sh d 19 + sh a 14
  | .ctz d a => 0x01000088 + sh d 19 + sh a 14
  | .popc d a => 0x01000090 + sh d 19 + sh a 14
  | .min d a b => 0x01000098 + sh d 19 + sh a 14 + sh b 9
  | .max d a b => 0x010000A0 + sh d 19 + sh a 14 + sh b 9
  | .minn d a b => 0x010000A8 + sh d 19 + sh a 14 + sh b 9
  | .maxn d a b => 0x010000B0 + sh d 19 + sh a 14 + sh b 9
  | .mov d a => 0x010000B8 + sh d 19 + sh a 14
  | .sel d a b p => 0x010000C0 + sh d 19 + sh a 14 + sh b 9 + sh p 0
  | .cmpEq k a b => 0x010000C8 + sh k 19 + sh a 14 + sh b 9
  | .cmpNe k a b => 0x010000D0 + sh k 19 + sh a 14 + sh b 9
  | .cmpLt k a b => 0x010000D8 + sh k 19 + sh a 14 + sh b 9
  | .cmpLe k a b => 0x010000E0 + sh k 19 + sh a 14 + sh b 9
  | .cmpLtn k a b => 0x010000E8 + sh k 19 + sh a 14 + sh b 9
  | .cmpLen k a b => 0x010000F0 + sh k 19 + sh a 14 + sh b 9
  | .addi d a i => 0x02000000 + sh d 19 + sh a 14 + sh i 0
  | .andi d a i => 0x03000000 + sh d 19 + sh a 14 + sh i 0
  | .ori d a i => 0x04000000 + sh d 19 + sh a 14 + sh i 0
  | .xori d a i => 0x05000000 + sh d 19 + sh a 14 + sh i 0
  | .shli d a n => 0x06000000 + sh d 19 + sh a 14 + sh n 0
  | .shri d a n => 0x06000020 + sh d 19 + sh a 14 + sh n 0
  | .srai d a n => 0x06000040 + sh d 19 + sh a 14 + sh n 0
  | .lhi d i => 0x07000000 + sh d 19 + sh i 0
  | .addb d a b => 0x08000000 + sh d 19 + sh a 14 + sh b 9
  | .movb d a b => 0x08000001 + sh d 19 + sh a 14 + sh b 9
  | .spb d a => 0x08000002 + sh d 19 + sh a 14
  | .movbLo d a => 0x08000003 + sh d 19 + sh a 14
  | .movbHi d a => 0x08000004 + sh d 19 + sh a 14
  | .kand d a b => 0x09000000 + sh d 19 + sh a 14 + sh b 9
  | .kor d a b => 0x09000001 + sh d 19 + sh a 14 + sh b 9
  | .kxor d a b => 0x09000002 + sh d 19 + sh a 14 + sh b 9
  | .knot d a => 0x09000003 + sh d 19 + sh a 14
  | .kmov d a => 0x09000004 + sh d 19 + sh a 14
  | .kfrom d a b => 0x09000005 + sh d 19 + sh a 14 + sh b 9
  | .ktoLo d a => 0x09000006 + sh d 19 + sh a 14
  | .ktoHi d a => 0x09000007 + sh d 19 + sh a 14
  | .nop => 0x0F000000
  | .br n k o => 0x10000000 + sh n 23 + sh k 20 + sh o 0
  | .bra n k o => 0x11000000 + sh n 23 + sh k 20 + sh o 0
  | .call n k o => 0x12000000 + sh n 23 + sh k 20 + sh o 0
  | .lbrk n k => 0x13000000 + sh n 23 + sh k 20
  | .loop c l n => 0x14000000 + sh c 19 + sh l 16 + sh n 0
  | .brl l => 0x15000000 + sh l 16
  | .brlRot l => 0x15008000 + sh l 16
  | .jr a => 0x16000000 + sh a 14
  | .ret => 0x16000001
  | .lidx d l => 0x16000002 + sh d 19 + sh l 14
  | .trap i => 0x17000000 + sh i 0
  | .eret => 0x17040000
  | .mfc l h n => 0x17080000 + sh l 13 + sh h 8 + sh n 0
  | .mtc l h n => 0x170C0000 + sh l 13 + sh h 8 + sh n 0
  | .rdst d a => 0x17100000 + sh d 13 + sh a 8
  | .freeze a => 0x17140000 + sh a 8
  | .thaw a => 0x17180000 + sh a 8
  | .yield => 0x171C0000
  | .sleep a => 0x17200000 + sh a 8
  | .ptime d => 0x17240000 + sh d 13
  | .exit a => 0x17280000 + sh a 8
  | .svget d => 0x172C0000 + sh d 13
  | .ldI8 t b x i => 0x20000000 + sh t 18 + sh b 15 + sh x 10 + sh i 0
  | .ldN8 t b x i => 0x20000040 + sh t 18 + sh b 15 + sh x 10 + sh i 0
  | .ldI16 t b x i => 0x20000080 + sh t 18 + sh b 15 + sh x 10 + sh i 0
  | .ldN16 t b x i => 0x200000C0 + sh t 18 + sh b 15 + sh x 10 + sh i 0
  | .ldW t b x i => 0x20000100 + sh t 18 + sh b 15 + sh x 10 + sh i 0
  | .ldb t b x i => 0x20000140 + sh t 18 + sh b 15 + sh x 10 + sh i 0
  | .ldfe t b x i => 0x20000180 + sh t 18 + sh b 15 + sh x 10 + sh i 0
  | .ldv t b x m i => 0x21000000 + sh t 18 + sh b 15 + sh x 10 + sh m 6 + sh i 0
  | .stB t b x st i => 0x22000000 + sh t 18 + sh b 15 + sh x 10 + sh st 6 + sh i 0
  | .stH t b x st i => 0x23000000 + sh t 18 + sh b 15 + sh x 10 + sh st 6 + sh i 0
  | .stW t b x st i => 0x24000000 + sh t 18 + sh b 15 + sh x 10 + sh st 6 + sh i 0
  | .stb t b x st i => 0x25000000 + sh t 18 + sh b 15 + sh x 10 + sh st 6 + sh i 0
  | .stv t b x st i => 0x26000000 + sh t 18 + sh b 15 + sh x 10 + sh st 6 + sh i 0
  | .stm t b k st i => 0x27000000 + sh t 18 + sh b 15 + sh k 12 + sh st 6 + sh i 0
  | .stvMc t b x st i => 0x28000000 + sh t 18 + sh b 15 + sh x 10 + sh st 6 + sh i 0
  | .vgath t b v k => 0x29000000 + sh t 18 + sh b 15 + sh v 9 + sh k 6
  | .vscat t b v k st => 0x2A000000 + sh t 18 + sh b 15 + sh v 9 + sh k 6 + sh st 2
  | .stAcc t b x st o => 0x2B000000 + sh t 18 + sh b 15 + sh x 10 + sh st 6 + sh o 2
  | .stvAcc t b x st o => 0x2C000000 + sh t 18 + sh b 15 + sh x 10 + sh st 6 + sh o 2
  | .mkfull a b => 0x2D000000 + sh a 14 + sh b 9
  | .mkempty a b => 0x2D000010 + sh a 14 + sh b 9
  | .fecheck d a b => 0x2D000020 + sh d 19 + sh a 14 + sh b 9
  | .swarm d a b => 0x2D000030 + sh d 19 + sh a 14 + sh b 9
  | .swait d a b => 0x2D000040 + sh d 19 + sh a 14 + sh b 9
  | .fbind p a => 0x2D000050 + sh p 19 + sh a 14
  | .funbind p => 0x2D000060 + sh p 19
  | .fdrain p => 0x2D000070 + sh p 19
  | .fence c => 0x2D000080 + sh c 0
  | .sfence st => 0x2D000090 + sh st 0
  | .tbind r h f => 0x2D0000A0 + sh r 19 + sh h 2 + sh f 0
  | .tclr r h f => 0x2D0000B0 + sh r 19 + sh h 2 + sh f 0
  | .tmask d r h f => 0x2D0000C0 + sh d 19 + sh r 14 + sh h 2 + sh f 0
  | .vadd d a b k => 0x30000000 + sh d 18 + sh a 12 + sh b 6 + sh k 3
  | .vsub d a b k => 0x30000001 + sh d 18 + sh a 12 + sh b 6 + sh k 3
  | .vmul d a b k => 0x30000002 + sh d 18 + sh a 12 + sh b 6 + sh k 3
  | .vfma d a b k => 0x30000003 + sh d 18 + sh a 12 + sh b 6 + sh k 3
  | .vfms d a b k => 0x30000004 + sh d 18 + sh a 12 + sh b 6 + sh k 3
  | .vneg d a k => 0x30000005 + sh d 18 + sh a 12 + sh k 3
  | .vabs d a k => 0x30000006 + sh d 18 + sh a 12 + sh k 3
  | .vmin d a b k => 0x30000007 + sh d 18 + sh a 12 + sh b 6 + sh k 3
  | .vmax d a b k => 0x31000000 + sh d 18 + sh a 12 + sh b 6 + sh k 3
  | .vrcp d a k => 0x31000001 + sh d 18 + sh a 12 + sh k 3
  | .vrsq d a k => 0x31000002 + sh d 18 + sh a 12 + sh k 3
  | .vexp2 d a k => 0x31000003 + sh d 18 + sh a 12 + sh k 3
  | .vlog2 d a k => 0x31000004 + sh d 18 + sh a 12 + sh k 3
  | .vsel d a b k => 0x31000005 + sh d 18 + sh a 12 + sh b 6 + sh k 3
  | .vcmp k a b p c => 0x32000000 + sh k 18 + sh a 12 + sh b 6 + sh p 3 + sh c 0
  | .vaddI32 d a b k => 0x33000000 + sh d 18 + sh a 12 + sh b 6 + sh k 3
  | .vsubI32 d a b k => 0x33000001 + sh d 18 + sh a 12 + sh b 6 + sh k 3
  | .vmulI32 d a b k => 0x33000002 + sh d 18 + sh a 12 + sh b 6 + sh k 3
  | .vshlI32 d a b k => 0x33000003 + sh d 18 + sh a 12 + sh b 6 + sh k 3
  | .vshrI32 d a b k => 0x33000004 + sh d 18 + sh a 12 + sh b 6 + sh k 3
  | .vsraI32 d a b k => 0x33000005 + sh d 18 + sh a 12 + sh b 6 + sh k 3
  | .vaddN32 d a b k => 0x34000000 + sh d 18 + sh a 12 + sh b 6 + sh k 3
  | .vsubN32 d a b k => 0x34000001 + sh d 18 + sh a 12 + sh b 6 + sh k 3
  | .vmulN32 d a b k => 0x34000002 + sh d 18 + sh a 12 + sh b 6 + sh k 3
  | .vshlN32 d a b k => 0x34000003 + sh d 18 + sh a 12 + sh b 6 + sh k 3
  | .vshrN32 d a b k => 0x34000004 + sh d 18 + sh a 12 + sh b 6 + sh k 3
  | .vsraN32 d a b k => 0x34000005 + sh d 18 + sh a 12 + sh b 6 + sh k 3
  | .vaddI16 d a b k => 0x35000000 + sh d 18 + sh a 12 + sh b 6 + sh k 3
  | .vsubI16 d a b k => 0x35000001 + sh d 18 + sh a 12 + sh b 6 + sh k 3
  | .vmulI16 d a b k => 0x35000002 + sh d 18 + sh a 12 + sh b 6 + sh k 3
  | .vshlI16 d a b k => 0x35000003 + sh d 18 + sh a 12 + sh b 6 + sh k 3
  | .vshrI16 d a b k => 0x35000004 + sh d 18 + sh a 12 + sh b 6 + sh k 3
  | .vsraI16 d a b k => 0x35000005 + sh d 18 + sh a 12 + sh b 6 + sh k 3
  | .vaddI8 d a b k => 0x36000000 + sh d 18 + sh a 12 + sh b 6 + sh k 3
  | .vsubI8 d a b k => 0x36000001 + sh d 18 + sh a 12 + sh b 6 + sh k 3
  | .vmulI8 d a b k => 0x36000002 + sh d 18 + sh a 12 + sh b 6 + sh k 3
  | .vshlI8 d a b k => 0x36000003 + sh d 18 + sh a 12 + sh b 6 + sh k 3
  | .vshrI8 d a b k => 0x36000004 + sh d 18 + sh a 12 + sh b 6 + sh k 3
  | .vsraI8 d a b k => 0x36000005 + sh d 18 + sh a 12 + sh b 6 + sh k 3
  | .vand d a b k => 0x37000000 + sh d 18 + sh a 12 + sh b 6 + sh k 3
  | .vor d a b k => 0x37000001 + sh d 18 + sh a 12 + sh b 6 + sh k 3
  | .vxor d a b k => 0x37000002 + sh d 18 + sh a 12 + sh b 6 + sh k 3
  | .vnot d a k => 0x37000003 + sh d 18 + sh a 12 + sh k 3
  | .vmov d a k => 0x37000004 + sh d 18 + sh a 12 + sh k 3
  | .vcvt d a t r o p => 0x38000000 + sh d 18 + sh a 12 + sh t 8 + sh r 5 + sh o 3 + sh p 2
  | .vqBfp d a st m => 0x39000000 + sh d 18 + sh a 12 + sh st 6 + sh m 3
  | .vdqBfp d a st => 0x3A000000 + sh d 18 + sh a 12 + sh st 6
  | .vperm d a b k => 0x3B000000 + sh d 18 + sh a 12 + sh b 6 + sh k 3
  | .vrotl d a n k => 0x3B000001 + sh d 18 + sh a 12 + sh n 6 + sh k 3
  | .vbcast d a n k => 0x3B000002 + sh d 18 + sh a 12 + sh n 6 + sh k 3
  | .vext d a n => 0x3B000003 + sh d 18 + sh a 12 + sh n 6
  | .vins d a n => 0x3B000004 + sh d 18 + sh a 12 + sh n 6
  | .vzip d a b k => 0x3B000005 + sh d 18 + sh a 12 + sh b 6 + sh k 3
  | .vunzip d a k => 0x3B000006 + sh d 18 + sh a 12 + sh k 3
  | .vhad d a => 0x3B000007 + sh d 18 + sh a 12
  | .vredsum d a k => 0x3C000000 + sh d 18 + sh a 12 + sh k 3
  | .vredmax d a k => 0x3C000001 + sh d 18 + sh a 12 + sh k 3
  | .vredmin d a k => 0x3C000002 + sh d 18 + sh a 12 + sh k 3
  | .vtag d a t x => 0x3C000003 + sh d 18 + sh a 12 + sh t 6 + sh x 3
  | .xchain c a b => 0x3D000000 + sh c 10 + sh a 5 + sh b 0
  | .xstat c a b => 0x3D040000 + sh c 10 + sh a 5 + sh b 0
  | .xkill c => 0x3D080000 + sh c 10
  | .xrmw o a b => 0x3D200000 + sh o 17 + sh a 5 + sh b 0
  | .mcall r => 0x3D400000 + sh r 10
  | .mpset n a b => 0x3D440000 + sh n 10 + sh a 5 + sh b 0
  | .mzero k t a => 0x3D480000 + sh k 13 + sh t 10 + sh a 5
  | .manch t a => 0x3D4C0000 + sh t 10 + sh a 5
  | .zld t a b => 0x3D500000 + sh t 10 + sh a 5 + sh b 0
  | .zst t a b => 0x3D540000 + sh t 10 + sh a 5 + sh b 0
  | .mrload r a b => 0x3D580000 + sh r 10 + sh a 5 + sh b 0
  | .mstat t a b => 0x3D5C0000 + sh t 10 + sh a 5 + sh b 0
  | .cset a => 0x3D800000 + sh a 5
  | .csend a => 0x3D840000 + sh a 5
  | .crecv a => 0x3D880000 + sh a 5
  | .creduce a => 0x3D8C0000 + sh a 5
  | .cbcast a => 0x3D900000 + sh a 5
  | .liftarm a b => 0x3D940000 + sh a 5 + sh b 0
  | .liftdisarm a b => 0x3D980000 + sh a 5 + sh b 0
  | .ctrig a b => 0x3D9C0000 + sh a 5 + sh b 0
  | .crnew a b => 0x3DA00000 + sh a 5 + sh b 0
  | .crjoin a b => 0x3DA40000 + sh a 5 + sh b 0
  | .crleave a b => 0x3DA80000 + sh a 5 + sh b 0
  | .crfree a => 0x3DAC0000 + sh a 5
  | .phreg r a => 0x3DB00000 + sh r 10 + sh a 5
  | .phdrop a => 0x3DB40000 + sh a 5
  | .phsig a => 0x3DB80000 + sh a 5
  | .phwait p a => 0x3DBC0000 + sh p 10 + sh a 5
  | .launch c f a b => 0x3DC00000 + sh c 13 + sh f 10 + sh a 5 + sh b 0
  | .lstat a b => 0x3DC40000 + sh a 5 + sh b 0
  | .mte e i a b => 0x3E000000 + sh e 21 + sh i 14 + sh a 5 + sh b 0
  | .mfe e i a b => 0x3F000000 + sh e 21 + sh i 14 + sh a 5 + sh b 0
  | .zero _ _ _ _ | .anchor _ _ _ | .loadb _ _ _ _ | .streama _ _ _ _ _ _ _ _ | .acc _ _ _ _ | .trans _
  | .had _ _ _ | .drain _ _ _ _ _ _ _ _ _ _ | .waitf | .uopLoop _ _ _ | .groupIssue _ | .loadReturn _ _
  | .storeArrive _ | .storeAck _ _ _ | .heldNotice _ _ | .streamHeld _ _ | .xrmwApply _ | .recordClaim _ _
  | .footprintRegister _ _ | .unitArrive _ _ _ | .unitAck _ _ _ | .recordReturn _ _ | .channelFault _ _
  | .killComplete _ _ | .channelResume _ _ | .channelDrop _ _ | .channelKill _ _ | .feedFill _ _
  | .feedDrainWrite _ _ | .matrixCommandTurn _ | .routineStart _ | .contributionLand _ | .routineComplete _
  | .routineLimit _ | .messageSend _ | .messageLand _ | .messageAck _ _ _ | .countWrite _ _ | .cardTake _
  | .jobAdmit _ | .place _ | .contextSwitch _ _ | .longiterExpiry _ | .park _ | .contextSave _ | .wake _
  | .sleepExpiry _ | .gangWake _ | .deadlineOverrun _ | .coreRetire _ _ | .registerWrite _ _
  | .flitReceive _ _ | .nakReceive _ _ | .replayTimeout _ | .totalsSend _ | .totalsReceive _ _ _
  | .replayWindowEnd _ | .correctedErrorPost _ | .retrain _ | .trainingEnd _ _ _ | .routeTimeout _
  | .timingFlit _ _ _ _ _ | .wlWrite _ _ _ | .wlChangeDone _ _ | .multicastArrive _ _ | .multicastAck _ _ _ _
  | .sessionOpen _ | .sessionClose _ | .slotStore _ _ _ _ _ | .sessionValue _ _ | .sessionForwardTimeout _
  | .roundend _ | .sessionTimeout _ | .closePacket _ | .withdraw _ _ | .reopen _ _ | .withdrawMarker _ _ _
  | .recontrib _ | .exclude _ | .staleReturn _ _ | .flush _ | .migrationStart _ _ | .migrationSwitch _
  | .migrationApply _ | .migrationCandidate _ _ | .headWrite _ _ | .recordRetry _ _ | .recordDrop _ _
  | .connectionThaw _ _ | .memoryError _ | .patrolScrub _ _ _ | .errorWindowEnd _ | .hostOpen _
  | .hostClose _ | .hostSubmit _ | .hostMread _ | .hostMwrite _ | .hostCatread _ | .hostCatwrite _
  | .hostImage _ | .hostAttest _ | .hostAck _ | .retransmitTimeout _ _ | .ackTimer _ | .pkgReset _
  | .powerLoss | .tempSample _ _ _ | .stepDown _ | .stepUp _ | .trip _ | .hbmTempChange _ _ _ _
  | .powerControl _ | .burst _ | .linkDown _ | .linkTraining _ _ _ | .matrixCommandComplete _
  | .copyTrafficLand _ | .creditReturn _ _ _ | .jobEndBySystemSoftware _ | .datagramDrop _
  | .remoteAccessWindowEnd _ => 0

/-- The word of an instruction with its S and Y bits (R64). -/
def encode (gw : GroupWord) : Nat :=
  (if gw.stop then 2 ^ 31 else 0) + (if gw.sync then 2 ^ 30 else 0) + encodeInstr gw.instr

/-- The 64-bit word of a micro-op (Table 11.3); any other instruction is given 0. -/
def encodeUop : Instr → Nat
  | .zero ts kind am anc =>
    1 * 2 ^ 60 + sh ts 56 + sh kind 55 + sh am 54 + sh anc 44
  | .anchor ts am anc => 2 * 2 ^ 60 + sh ts 56 + sh am 54 + sh anc 44
  | .loadb fmt mm swz desc =>
    3 * 2 ^ 60 + sh fmt 56 + sh mm 53 + sh swz 45 + sh desc 42
  | .streama fmt mm swz desc ts row0 nr s5 =>
    4 * 2 ^ 60 + sh fmt 56 + sh mm 53 + sh swz 45 + sh desc 42 + sh ts 38
      + sh row0 31 + sh nr 24 + sh s5 23
  | .acc td tsrc row0 nr =>
    5 * 2 ^ 60 + sh td 56 + sh tsrc 52 + sh row0 45 + sh nr 38
  | .trans t => 6 * 2 ^ 60 + t.toNat
  | .had ts row0 nr => 7 * 2 ^ 60 + sh ts 56 + sh row0 49 + sh nr 42
  | .drain ts ofmt mm rm po pd desc row0 nr swz =>
    8 * 2 ^ 60 + sh ts 56 + sh ofmt 52 + sh mm 49 + sh rm 46 + sh po 44
      + sh pd 43 + sh desc 40 + sh row0 33 + sh nr 26 + sh swz 18
  | .waitf => 9 * 2 ^ 60
  | .uopLoop len cm count => 10 * 2 ^ 60 + sh len 48 + sh cm 47 + count.toNat
  | .add _ _ _ | .sub _ _ _ | .mul _ _ _ | .mulh _ _ _ | .mulhn _ _ _ | .div _ _ _ | .divn _ _ _ | .rem _ _ _
  | .remn _ _ _ | .and _ _ _ | .or _ _ _ | .xor _ _ _ | .shl _ _ _ | .shr _ _ _ | .sra _ _ _ | .rotl _ _ _
  | .clz _ _ | .ctz _ _ | .popc _ _ | .min _ _ _ | .max _ _ _ | .minn _ _ _ | .maxn _ _ _ | .mov _ _
  | .sel _ _ _ _ | .cmpEq _ _ _ | .cmpNe _ _ _ | .cmpLt _ _ _ | .cmpLe _ _ _ | .cmpLtn _ _ _ | .cmpLen _ _ _
  | .addi _ _ _ | .andi _ _ _ | .ori _ _ _ | .xori _ _ _ | .shli _ _ _ | .shri _ _ _ | .srai _ _ _ | .lhi _ _
  | .addb _ _ _ | .movb _ _ _ | .spb _ _ | .movbLo _ _ | .movbHi _ _ | .kand _ _ _ | .kor _ _ _ | .kxor _ _ _
  | .knot _ _ | .kmov _ _ | .kfrom _ _ _ | .ktoLo _ _ | .ktoHi _ _ | .nop | .br _ _ _ | .bra _ _ _
  | .call _ _ _ | .lbrk _ _ | .loop _ _ _ | .brl _ | .brlRot _ | .jr _ | .ret | .lidx _ _ | .trap _ | .eret
  | .mfc _ _ _ | .mtc _ _ _ | .rdst _ _ | .freeze _ | .thaw _ | .yield | .sleep _ | .ptime _ | .exit _
  | .svget _ | .ldI8 _ _ _ _ | .ldN8 _ _ _ _ | .ldI16 _ _ _ _ | .ldN16 _ _ _ _ | .ldW _ _ _ _ | .ldb _ _ _ _
  | .ldfe _ _ _ _ | .ldv _ _ _ _ _ | .stB _ _ _ _ _ | .stH _ _ _ _ _ | .stW _ _ _ _ _ | .stb _ _ _ _ _
  | .stv _ _ _ _ _ | .stm _ _ _ _ _ | .stvMc _ _ _ _ _ | .vgath _ _ _ _ | .vscat _ _ _ _ _ | .stAcc _ _ _ _ _
  | .stvAcc _ _ _ _ _ | .mkfull _ _ | .mkempty _ _ | .fecheck _ _ _ | .swarm _ _ _ | .swait _ _ _
  | .fbind _ _ | .funbind _ | .fdrain _ | .fence _ | .sfence _ | .tbind _ _ _ | .tclr _ _ _ | .tmask _ _ _ _
  | .vadd _ _ _ _ | .vsub _ _ _ _ | .vmul _ _ _ _ | .vfma _ _ _ _ | .vfms _ _ _ _ | .vneg _ _ _ | .vabs _ _ _
  | .vmin _ _ _ _ | .vmax _ _ _ _ | .vrcp _ _ _ | .vrsq _ _ _ | .vexp2 _ _ _ | .vlog2 _ _ _ | .vsel _ _ _ _
  | .vcmp _ _ _ _ _ | .vaddI32 _ _ _ _ | .vsubI32 _ _ _ _ | .vmulI32 _ _ _ _ | .vshlI32 _ _ _ _
  | .vshrI32 _ _ _ _ | .vsraI32 _ _ _ _ | .vaddN32 _ _ _ _ | .vsubN32 _ _ _ _ | .vmulN32 _ _ _ _
  | .vshlN32 _ _ _ _ | .vshrN32 _ _ _ _ | .vsraN32 _ _ _ _ | .vaddI16 _ _ _ _ | .vsubI16 _ _ _ _
  | .vmulI16 _ _ _ _ | .vshlI16 _ _ _ _ | .vshrI16 _ _ _ _ | .vsraI16 _ _ _ _ | .vaddI8 _ _ _ _
  | .vsubI8 _ _ _ _ | .vmulI8 _ _ _ _ | .vshlI8 _ _ _ _ | .vshrI8 _ _ _ _ | .vsraI8 _ _ _ _ | .vand _ _ _ _
  | .vor _ _ _ _ | .vxor _ _ _ _ | .vnot _ _ _ | .vmov _ _ _ | .vcvt _ _ _ _ _ _ | .vqBfp _ _ _ _
  | .vdqBfp _ _ _ | .vperm _ _ _ _ | .vrotl _ _ _ _ | .vbcast _ _ _ _ | .vext _ _ _ | .vins _ _ _
  | .vzip _ _ _ _ | .vunzip _ _ _ | .vhad _ _ | .vredsum _ _ _ | .vredmax _ _ _ | .vredmin _ _ _
  | .vtag _ _ _ _ | .xchain _ _ _ | .xstat _ _ _ | .xkill _ | .xrmw _ _ _ | .mcall _ | .mpset _ _ _
  | .mzero _ _ _ | .manch _ _ | .zld _ _ _ | .zst _ _ _ | .mrload _ _ _ | .mstat _ _ _ | .cset _ | .csend _
  | .crecv _ | .creduce _ | .cbcast _ | .liftarm _ _ | .liftdisarm _ _ | .ctrig _ _ | .crnew _ _
  | .crjoin _ _ | .crleave _ _ | .crfree _ | .phreg _ _ | .phdrop _ | .phsig _ | .phwait _ _
  | .launch _ _ _ _ | .lstat _ _ | .mte _ _ _ _ | .mfe _ _ _ _ | .groupIssue _ | .loadReturn _ _
  | .storeArrive _ | .storeAck _ _ _ | .heldNotice _ _ | .streamHeld _ _ | .xrmwApply _ | .recordClaim _ _
  | .footprintRegister _ _ | .unitArrive _ _ _ | .unitAck _ _ _ | .recordReturn _ _ | .channelFault _ _
  | .killComplete _ _ | .channelResume _ _ | .channelDrop _ _ | .channelKill _ _ | .feedFill _ _
  | .feedDrainWrite _ _ | .matrixCommandTurn _ | .routineStart _ | .contributionLand _ | .routineComplete _
  | .routineLimit _ | .messageSend _ | .messageLand _ | .messageAck _ _ _ | .countWrite _ _ | .cardTake _
  | .jobAdmit _ | .place _ | .contextSwitch _ _ | .longiterExpiry _ | .park _ | .contextSave _ | .wake _
  | .sleepExpiry _ | .gangWake _ | .deadlineOverrun _ | .coreRetire _ _ | .registerWrite _ _
  | .flitReceive _ _ | .nakReceive _ _ | .replayTimeout _ | .totalsSend _ | .totalsReceive _ _ _
  | .replayWindowEnd _ | .correctedErrorPost _ | .retrain _ | .trainingEnd _ _ _ | .routeTimeout _
  | .timingFlit _ _ _ _ _ | .wlWrite _ _ _ | .wlChangeDone _ _ | .multicastArrive _ _ | .multicastAck _ _ _ _
  | .sessionOpen _ | .sessionClose _ | .slotStore _ _ _ _ _ | .sessionValue _ _ | .sessionForwardTimeout _
  | .roundend _ | .sessionTimeout _ | .closePacket _ | .withdraw _ _ | .reopen _ _ | .withdrawMarker _ _ _
  | .recontrib _ | .exclude _ | .staleReturn _ _ | .flush _ | .migrationStart _ _ | .migrationSwitch _
  | .migrationApply _ | .migrationCandidate _ _ | .headWrite _ _ | .recordRetry _ _ | .recordDrop _ _
  | .connectionThaw _ _ | .memoryError _ | .patrolScrub _ _ _ | .errorWindowEnd _ | .hostOpen _
  | .hostClose _ | .hostSubmit _ | .hostMread _ | .hostMwrite _ | .hostCatread _ | .hostCatwrite _
  | .hostImage _ | .hostAttest _ | .hostAck _ | .retransmitTimeout _ _ | .ackTimer _ | .pkgReset _
  | .powerLoss | .tempSample _ _ _ | .stepDown _ | .stepUp _ | .trip _ | .hbmTempChange _ _ _ _
  | .powerControl _ | .burst _ | .linkDown _ | .linkTraining _ _ _ | .matrixCommandComplete _
  | .copyTrafficLand _ | .creditReturn _ _ _ | .jobEndBySystemSoftware _ | .datagramDrop _
  | .remoteAccessWindowEnd _ => 0

end Sys2Proof
end

