-- ==== Sys2Proof/Machine/State.lean ====
section
/-!
DEFINITION. The state of one MD-480 package as plain data (spec/01_machine_state.md and the object tables of
chapters 7 to 14 and 18), the named stops, and the state after reset. A `Table` lists only the numbered objects that
differ from their reset value. Other packages, the host, sensors and memory upsets are the environment: what they send
is the payload of an event, what this package sends them stands in `State.egress`.
-/

namespace Sys2Proof.Machine

/-- A numbered collection, keys strictly rising; an unlisted number holds the collection's default. -/
abbrev Table (α : Type) := List (Nat × α)

/-- Why a step stops. Both stops are the spec's own. -/
inductive Fault where
  /-- every clock of the package is stopped: a die reached its trip point (R387). Raised by `step`. Safe. -/
  | clockStopped
  /-- power is removed and all state is lost (R1, R387). Raised by `step`. Safe. -/
  | powerLost
  deriving DecidableEq, Repr

/-- What the model declines. -/
inductive Refusal where
  /-- an instruction with no meaning in the model. Raised by the arms of `exec` that name it. Safe. -/
  | notModelled (mnemonic : String)
  deriving DecidableEq, Repr

/-! ### The context of a sequencer (R12) -/

/-- A register with its taint mask (R15). -/
structure TReg (w : Nat) where
  val : BitVec w
  taint : Mask
  deriving DecidableEq, Repr

/-- A physical vector register: value, format tag, auxiliary and taint mask (R15, R18). -/
structure VReg where
  val : Vec
  tag : BitVec 4
  aux : BitVec 3
  taint : Mask
  deriving DecidableEq, Repr

/-- A level of the loop stack (R25). -/
structure LoopLevel where
  valid : Bool
  count : W32
  index : W32
  start : W64
  stop : W64
  deriving DecidableEq, Repr

/-- The home of a location as far as its issuer's package knows it: package, die code (4: where a Piazza translates) and, in
a scratchpad, the core's number (R125, R143). -/
structure Dest where
  pkg : BitVec 15
  die : Nat
  core : Option Nat
  deriving DecidableEq, Repr

/-- A dropped store not yet reported to its issuer (R127): stream, homes, dropped address. A multicast store counts as homed at
every member (R143). -/
structure Loss where
  stream : BitVec 4
  dests : List Dest
  addr : W64
  deriving DecidableEq, Repr

/-- A trap: cause code, slot, whole-group flag, word position, and the value of cr.badaddr (R32, Table 1.6). -/
structure Trap where
  code : BitVec 8
  slot : BitVec 3
  whole : Bool
  word : BitVec 4
  bad : W64
  /-- the void tag that RMT_FAULT clears (R232) -/
  tags : Mask := 0
  /-- the loss that RMT_FAULT reports (R127) -/
  loss : Option Loss := none
  deriving DecidableEq, Repr

/-- A walk of the affine copy unit: its captured descriptor, its position, and the failure that stopped it
(R291, R292, R294). -/
structure Walk where
  desc : Vector W64 8
  i1 : Nat
  i2 : Nat
  i3 : Nat
  off : Nat
  bytes : Nat
  failed : Option (BitVec 8 × W64)
  deriving DecidableEq, Repr

/-- A feed port (R22): binding 0 unbound, 1 fill, 2 drain; format, swizzle, the entries held, oldest first, its walk.
`closing`: it was unbound in the group of its last push, whose entry is still to be written (R142). -/
structure FeedPort where
  bind : BitVec 2
  tag : BitVec 4
  aux : BitVec 3
  swz : Byte
  entries : List Vec
  walk : Option Walk
  closing : Bool
  deriving DecidableEq, Repr

/-- An entry of the taint tag table (R33), with the die whose Curb holds the entry (R255) and, once the store was
dropped, the dropped address (R232). `bound`: its store has committed while the context held no slot (R34). -/
structure TagEntry where
  die : Nat
  entry : BitVec 12
  stream : BitVec 4
  seqno : BitVec 12
  void : Option W64
  bound : Bool
  /-- the homes of the loaded locations (for the scopes of R143) -/
  dests : List Dest
  deriving DecidableEq, Repr

/-- The states of a sequencer (Table 1.7). -/
inductive SeqState where
  | queued | resident | running | parked | frozen | retired
  deriving DecidableEq, Repr

/-- Where a full/empty bit stands: a scratchpad line, or bit i of the byte at a place, in the bitmap of a save copy
(R254). -/
inductive FeRef where
  | line (l : Nat)
  | bit (place i : Nat)
  deriving DecidableEq, Repr

/-- What a group waits for (R252, R256). -/
inductive Wait where
  /-- a load on an empty line, at the address it names -/
  | emptyLine (va : W64)
  /-- an `ldfe` on an empty line, or behind an earlier one (R137) -/
  | consume (va : W64)
  /-- `swait` on the sync word at an address, for a generation past `gen` -/
  | syncWord (va : W64) (gen : W32)
  /-- the bound wait of `phsig` (R204) -/
  | phaserBound (crew : W32)
  /-- `phwait` (R204) -/
  | phaserPhase (crew : W32)
  /-- a pop of an empty fill port -/
  | fillPort (p : Nat)
  /-- `sleep` until a cycle count of the die -/
  | sleepUntil (cycle : Nat)
  /-- operands whose tags have not bound (R117, R172, R217) -/
  | taint
  /-- a fence, `sfence`, the release fence of `phsig`, or an SC access (R119, R143, R144) -/
  | fence
  /-- no free Curb entry, 1,024 stores of a stream, or a stream's release rule for the own scratchpad (R123 to R125) -/
  | storeRoom
  /-- a full engine queue (R173) -/
  | engineRoom
  /-- the reply of another package (R227, R221) -/
  | reply
  /-- a full drain port (R23), or entries not yet written (R141) -/
  | drainPort (p : Nat)
  /-- the waits of `exit` (R225) and of `mstat` (R195) -/
  | engineDone
  deriving DecidableEq, Repr

/-- A request that a waiting group has made of another package: which access of the group makes it, the number it is answered
under, whether it changes something there, the home at which it keeps an `ldfe`'s place, and the reply once it has come (R227,
R334, R221, R137). -/
structure Ask where
  pos : Nat
  tag : Nat
  effect : Bool
  place : Option (BitVec 15 × Via × W64 × W64)
  reply : Option Reply
  deriving DecidableEq, Repr

/-- Why a context leaves its slot (Table 10.1). -/
inductive Depart where
  | freeze | park | requeue
  deriving DecidableEq, Repr

/-- A sequencer: its context (R12, Table 1.10) and what the scheduler and the engines hold for it. -/
structure Seqr where
  handle : BitVec 24
  index : BitVec 16
  job : BitVec 16
  st : SeqState
  cls : BitVec 3
  sup : Bool
  recon : Bool
  core : BitVec 6
  cdie : BitVec 2
  pc : W64
  g : Vector (TReg 32) 32
  b : Vector (TReg 64) 8
  v : Vector VReg 56
  k : Vector (TReg 64) 8
  ls : Vector LoopLevel 6
  mp : Vector W64 8
  ports : Vector FeedPort 8
  /-- staging registers of classes xc, mx, fd, cl: key 64 × class number (0 to 3) + index (R28, Table 1.10) -/
  staging : Table W64
  vrot : BitVec 5
  krot : BitVec 2
  rmode : BitVec 3
  ovf : BitVec 2
  seed : W32
  fstat : W32
  ctaint : Mask
  sv : BitVec 2
  bankstall : W32
  parkLimit : W32
  holdmax : W32
  roerr : W32
  cause : W32
  epc : W64
  badaddr : W64
  trapBase : W64
  tags : Vector (Option TagEntry) 16
  /-- next sequence number of each stream (R124); stream 0 is not numbered -/
  nextSeq : Vector (BitVec 12) 16
  /-- physical tiles mapped to z0 on, physical lots mapped to lot 0 on (R27, R247) -/
  tiles : List Nat
  lots : List Nat
  /-- tile descriptors of a context that holds no slot, by name (words 0x0C8 to 0x0CF of its image) -/
  tileWords : List W64
  /-- launch refusals since the last accepted launch (R207) -/
  launchRefused : W32
  /-- completed matrix calls (R190) -/
  calls : W32
  /-- error of the matrix engine held for the sequencer: cause and the address of its `mcall` group (R191) -/
  held : Option (BitVec 8 × W64)
  /-- losses of dropped stores not yet reported (R127) -/
  losses : List Loss
  /-- the wait in progress with the cycle of its die at which it began (R256) -/
  wait : Option (Wait × Nat)
  /-- a recorded pre-emption request: the cycle it was made (R258) -/
  preempt : Option Nat
  /-- a departure that has reached its boundary and whose save is not complete (R253) -/
  depart : Option Depart
  /-- the step at which the slot was taken, for R249's most recent -/
  residentSince : Nat
  /-- last value read by `ptime` (R224) -/
  lastPtime : W64
  /-- crews joined, earliest first (R259) -/
  joined : List W32
  /-- held streams: Curb die, entry and part (of a multicast store, the branch), cycle at which the HELD notice arrived, virtual
  address (R342) -/
  heldStreams : List (Nat × Nat × Nat × Nat × W64)
  /-- STREAM_HELD traps due at the next boundary, by address (R342) -/
  heldDue : List W64
  /-- the requests its waiting group has made of other packages, and the number of the next -/
  asks : List Ask
  askNext : Nat
  /-- its next group, tried at the end of the last step, waits (R251) -/
  stuck : Bool
  /-- cr.sv is still to be written in its image (R264) -/
  svDue : Bool
  /-- a restore that stopped at a missing part of its save area: the parts of it that are done (R254) -/
  restoring : Option Nat
  /-- its image has been written in its save area: creation writes none (R245) -/
  imaged : Bool
  /-- the `ptime` at which a parked sleeper wakes (R223) -/
  wakeAt : W64
  /-- the line that a pop of an empty fill port was stalled on when it parked (R257) -/
  wakeLine : Option W64
  /-- the wake condition has held since it parked (R257) -/
  wakeDue : Bool
  /-- the parts, and the lots, of its save that are done (R253, R254) -/
  savedParts : Nat
  savedLots : Nat
  /-- no group has completed since its last restore (R191) -/
  resumed : Bool
  /-- its gang parks: it is parked at its next point of R260 -/
  gangPark : Bool
  /-- the sequencer on which its pre-emption request fell (R249) -/
  target : Option (BitVec 24)
  deriving DecidableEq, Repr

/-! ### The group in flight -/

/-- How the group in flight stands. -/
inductive Flow where
  /-- it proceeds -/
  | ok
  /-- a member traps (R74) -/
  | trap (t : Trap)
  /-- a member waits -/
  | wait (w : Wait)
  deriving DecidableEq, Repr

/-- The group in flight (R65 to R74): the register state from before the group, the position and slot of the member that
executes, the address of the group's last word, the next PC a branch chose, what the members raised and count, and the
members not yet executed with their positions and slots. `since`: the order number that the next store would have taken before
the group; `late`: the queues lag, so that a store of the group, or its engine command, is performed later (R71, R73); `sync`:
what lags is performed before the group (R67). -/
structure Issue where
  pre : Option Seqr
  since : Option Nat
  late : Bool
  sync : Bool
  pos : Nat
  len : Nat
  slot : BitVec 3
  npc : Option W64
  flow : Flow
  raised : BitVec 7
  roerrs : Nat
  bankCycles : Nat
  seedDrawn : Bool
  pops : List Nat
  /-- replies of other packages that the member has used so far -/
  taken : Nat
  queue : List (Nat × BitVec 3 × Instr)
  deriving DecidableEq, Repr

/-- A part of an MWRITE that is not committed: its connection, the number of its request, the address space, and its bytes; with
none, it is committed (R382). -/
structure HostPart where
  conn : Nat
  req : Nat
  asid : BitVec 8
  bytes : List (W64 × Byte)
  deriving DecidableEq, Repr

/-- An action of the agenda: an event of the part, a micro-op step of a core's running routine, a group of a sequencer,
or what the package itself sends to its own Piazza: a session value of a FULL slot (R322), the
marker of a withdrawn one (R326), a multicast packet or the
acknowledgment of one of its branches (R315), the requests of a host connection that waited, and a part of its write that a
FULL slot or a migrating frame held, that another package answered, or that was dropped there (R322, R337, R382). -/
inductive Action where
  | event (i : Instr)
  | value (session : Nat) (v : SessionValue)
  | mark (session leaf lvl : Nat)
  | packet (p : McPacket) (port : Nat)
  | acked (group id br : Nat) (lost : Option W64)
  | pump (conn : Nat)
  | hostWrite (p : HostPart)
  | hostDropped (p : HostPart) (status : Byte)
  | engine (core : Nat)
  | issue (h : BitVec 24)
  deriving DecidableEq, Repr

/-! ### Jobs and crews (R196 to R205, R261) -/

/-- A job: its number, address space, card snapshot, deadline counter, the number of its sequencers not yet retired, the
first nonzero exit status, END once it has ended, the variant and the measurements of R263. -/
structure Job where
  num : BitVec 16
  asid : BitVec 8
  card : Vector W64 32
  deadline : W64
  left : Nat
  status : W32
  ended : Option (BitVec 32)
  retired : Bool
  sv : BitVec 2
  lastDone : W64
  sigTimes : List (Nat × W64)
  /-- its completion record is written or abandoned (R198, R397) -/
  doneWritten : Bool
  /-- its deadline has passed, and it ends once its residents are saved (R265) -/
  overrun : Bool
  deriving DecidableEq, Repr

/-- State of a registration (Table 10.4). -/
inductive Mst where
  | none | pending | active | dropping
  deriving DecidableEq, Repr

/-- A member of a crew (Table 10.4). -/
structure Member where
  joined : Bool
  sp : W32
  wp : W32
  mst : Mst
  role : BitVec 2
  waiting : Bool
  deriving DecidableEq, Repr

/-- A crew with its phaser (R199, Table 10.3): `home` is the die code 0 to 3, or 4 for the Piazza; `woken`: its gang has been
woken and waits to be placed together (R260). -/
structure Crew where
  handle : W32
  area : Nat
  home : Nat
  phaser : Nat
  gang : Bool
  gangx : Bool
  p : W32
  pst : BitVec 2
  gpark : Bool
  woken : Bool
  parker : BitVec 16
  members : Table Member
  deriving DecidableEq, Repr

/-! ### Cores and matrix engines -/

/-- An accumulator tile (Table 1.4): its descriptor, its nonzero cells and its poisoned cells. -/
structure Tile where
  kind : BitVec 2
  anchor : BitVec 10
  o : Bool
  x : Bool
  nan : Bool
  busy : Bool
  cells : Table (BitVec 48)
  poisoned : List Nat
  deriving DecidableEq, Repr

/-- A directory entry of the routine store (Table 11.2). -/
structure DirEntry where
  valid : Bool
  offset : BitVec 14
  length : BitVec 15
  owner : BitVec 17
  deriving DecidableEq, Repr

/-- What an `mcall` captures (R190, R270). -/
structure CallArgs where
  routine : Nat
  mp : Vector W64 8
  fd : Vector W64 64
  rmode : BitVec 3
  ovf : BitVec 2
  gen : W32
  deriving DecidableEq, Repr

/-- A command of a core's matrix queue (R188). -/
inductive MatOp where
  | call (a : CallArgs)
  | zero (tile : Nat) (f48 : Bool) (anchor : BitVec 10)
  | anch (tile : Nat) (anchor : BitVec 10)
  | load (tile first count : Nat) (addr stride : W64)
  | store (tile first count : Nat) (addr stride sync : W64)
  | rload (n count offset : Nat) (addr : W64)
  deriving DecidableEq, Repr

/-- A queued command with its sequencer and the address of its group; `started`: its turn has come; `reg`: the number of
its registration in the footprint table of its die (R241). -/
structure MatCmd where
  handle : BitVec 24
  job : BitVec 16
  gaddr : W64
  op : MatOp
  started : Bool
  reg : Option Nat
  deriving DecidableEq, Repr

/-- A stationary operand (R269): its format, mantissa width code, and K-indexed elements per column as exact codes with
block scales: for BF16 and FP8 the element bits, for BFP the mantissas and the scale words. -/
structure Stationary where
  fmt : BitVec 4
  mm : BitVec 3
  /-- column n, then K index: element code -/
  elems : List (List Nat)
  /-- column n, then block: scale word (BFP) -/
  scales : List (List W32)
  deriving DecidableEq, Repr

/-- A streamed row whose contributions have not landed (R273): target physical tile and row, pass exponent correction,
and the row operand with the stationary operand it met. -/
structure PassRow where
  tile : Nat
  row : Nat
  s5 : Bool
  a : Stationary
  b : Stationary
  deriving DecidableEq, Repr

/-- An open LOOP of a routine (R276): first and last body word, and the passes left. -/
structure UopLoop where
  first : Nat
  last : Nat
  left : Nat
  deriving DecidableEq, Repr

/-- The routine that runs on a core (R190, R269, R270, R273). -/
structure Routine where
  args : CallArgs
  pos : Nat
  loops : List UopLoop
  t : Bool
  active : Option Stationary
  shadow : Option Stationary
  /-- walks by DESC -/
  walks : Table Walk
  flags : BitVec 7
  gen : W32
  pending : List PassRow
  /-- rows of the micro-op at `pos` that have entered the array, or have left it -/
  rows : Nat
  /-- the STREAMA at `pos` has made its stationary operand the active one -/
  begun : Bool
  /-- the LOADB that filled the shadow buffer before its turn (R273) -/
  ahead : Option Nat
  /-- the first landing of the row that a DRAIN wrote last (R280) -/
  rowFrom : Nat
  /-- the cycle of the die at the first micro-op -/
  began : Nat
  stopped : Option (BitVec 8)
  done : Bool
  deriving DecidableEq, Repr

/-- A core (R13, R266). -/
structure Core where
  slots : Vector (Option (BitVec 24)) 4
  run : Option Nat
  /-- the cycle of its die at which it last issued a group or switched (R251) -/
  lastIssue : Nat
  switches : W32
  parks : W32
  ret : Bool
  tiles : Table Tile
  mq : List MatCmd
  routine : Option Routine
  store : Table W64
  dir : Table DirEntry
  deriving DecidableEq, Repr

/-! ### Compute dies -/

/-- How a part of a Curb entry stands at its destination. -/
inductive PartState where
  | waiting | parked | committed | dropped (addr : W64)
  deriving DecidableEq, Repr

/-- A contiguous part of a store: its destination (package and die, R125), how its addresses read, the address and the
virtual address of its first byte, the lease expiry it carries (R333), its effects, and how it stands. -/
structure Part where
  pkg : BitVec 15
  die : Nat
  via : Via
  addr : W64
  va : W64
  exp : W64
  effects : List Effect
  st : PartState
  deriving DecidableEq, Repr

/-- Kinds of stores in the Curb: plain stores alone are forwarded (R121). -/
inductive StoreKind where
  | plain | accum | mcast | mark | rmw
  deriving DecidableEq, Repr

/-- An entry of a die's Curb (R121 to R126, R187). -/
structure CurbEntry where
  num : Nat
  handle : BitVec 24
  job : BitVec 16
  asid : BitVec 8
  sup : Bool
  kind : StoreKind
  sc : Bool
  stream : BitVec 4
  seqno : BitVec 12
  group : Option (BitVec 10)
  offset : W64
  /-- its place in the order of releases, once released (R125, R229) -/
  released : Option Nat
  /-- its place in the order of acceptance -/
  order : Nat
  parts : List Part
  deriving DecidableEq, Repr

/-- A translation: the package that holds the home and how the address reads there (R331), or the multicast group with
the offset as address; the SC attribute; and the lease expiry carried with the request (R333). -/
structure Xlat where
  pkg : BitVec 15
  via : Via
  addr : W64
  mc : Option (BitVec 10)
  sc : Bool
  exp : W64
  deriving DecidableEq, Repr

/-- A part of a store not yet placed: its translated address and its effects on the piece's addresses. -/
structure Draft where
  x : Xlat
  va : W64
  effects : List Effect
  deriving DecidableEq, Repr

/-- An M access or an E command whose queue lags (R71, R73): a store with its translated parts, or a command that waits in the E
slot, with the registers from before its group and its position and slot there. -/
inductive LateWork where
  | store (kind : StoreKind) (stream : BitVec 4) (group : Option (BitVec 10)) (offset : W64) (ds : List Draft)
  | command (pre : Seqr) (pos : Nat) (slot : BitVec 3) (i : Instr)
  deriving DecidableEq, Repr

/-- A member of an issued group of a sequencer that has not been performed, and the number of groups issued since. -/
structure Late where
  handle : BitVec 24
  groups : Nat
  work : LateWork
  deriving DecidableEq, Repr

/-- A copy channel (Table 12.1, R181, R285). `acked` lists the acknowledged units at or above the watermark. -/
structure Channel where
  state : BitVec 3
  killed : Bool
  killing : Bool
  pend : List W64
  last : BitVec 5
  fkind : BitVec 3
  retcnt : W32
  wmark : Nat
  sent : Nat
  acked : List Nat
  /-- units at or above the watermark that their home has written or applied (R286) -/
  applied : List Nat
  faddr : W64
  /-- the record it walks, claimed or about to be -/
  cur : Option W64
  claim : W32
  job : BitVec 16
  /-- index entries of the rows reached, in order (R177) -/
  idxs : List W32
  /-- destination lines of the record already marked full, by their virtual number (R179, R287) -/
  marked : List Nat
  snap : Vector W64 8
  /-- a record is claimed, and it has been released by the footprint table -/
  claimed : Bool
  started : Bool
  /-- the fault that stops it once its sent units are acknowledged (R288): state, FKIND, FADDR, CODE -/
  stopping : Option (BitVec 3 × BitVec 3 × W64 × BitVec 8)
  /-- its fault record: die and slot in the trap queue (R184) -/
  faultSlot : Option Nat
  deriving DecidableEq, Repr

/-- An installed footprint declaration (R239): job and regions (base, length, read, write). -/
structure FootDecl where
  job : BitVec 16
  regions : List (W64 × Nat × Bool × Bool)
  deriving DecidableEq, Repr

/-- A live engine job of a footprint table, in order of registration (R241): its number and entry. -/
structure FootJob where
  who : EngineJob
  job : BitVec 16
  entry : Nat
  num : Nat
  deriving DecidableEq, Repr

/-- A request of another package that this package has sent on to a third, where its home is now (R254, R330, R337): the number
it is answered under there, the request, and the distance its addresses have moved. -/
structure Proxy where
  num : Nat
  req : ExtRequest
  dist : W64
  deriving DecidableEq, Repr

/-- A cached translation (R398): its storage position, address space, virtual page, leaf and expiry. -/
structure CacheEntry where
  pos : Nat
  asid : BitVec 8
  vpage : W64
  leaf : W64
  exp : W64
  deriving DecidableEq, Repr

/-- What a home port keeps of a source of accumulating units (R286): package, die and channel of the source, its claim, the
lowest unit not yet confirmed, and the units above it that have been applied, with the old word of a returning one. -/
structure UnitRecord where
  pkg : BitVec 15
  die : Nat
  ch : Nat
  claim : W32
  low : Nat
  done : List (Nat × W32)
  deriving DecidableEq, Repr

/-- What a migrating frame holds (R337): an arriving request, bytes at their places, landed bytes to count in a sync word,
the write of a multicast packet to member die `die`, or a part of a host connection's write. `mark`: the bit that becomes full
with the bytes. -/
inductive HeldWrite where
  | arrive (src : ArriveSrc)
  | bytes (l : List (Nat × Byte)) (mark : Option FeRef)
  | count (place n : Nat)
  | member (group id die : Nat)
  | host (p : HostPart)
  deriving DecidableEq, Repr

/-- A migration in progress (R337): the physical addresses of the old and the new frame and of the leaf, when the leaf was
switched, and the writes held at each frame in arrival order. -/
structure Migration where
  old : W64
  fresh : W64
  leaf : W64
  switched : Option W64
  heldOld : List HeldWrite
  heldNew : List HeldWrite
  deriving DecidableEq, Repr

/-- A translation unit (R329, R333, Table 14.3): `cache` newest first. -/
structure TransUnit where
  lease : W32
  migthr : W32
  migpte : W64
  mignew : W64
  migst : BitVec 3
  roots : Table W64
  cache : List CacheEntry
  migration : Option Migration
  /-- remote accesses of each granule in the window: count, last requester package and die, and the granules with a record; the
  window is that of 2^20 ticks with this number (R336) -/
  remote : Table (Nat × BitVec 15 × Nat)
  posted : List Nat
  window : Nat
  deriving DecidableEq, Repr

/-- A record of a trap queue (Table 14.6), and what it is about: the parked request of a kind-4 record. -/
structure TrapRec where
  kind : BitVec 4
  code : BitVec 8
  master : W32
  job : BitVec 16
  addr : W64
  pt : W64
  info : W64
  parked : Option Nat
  deriving DecidableEq, Repr

/-- A die trap queue (Table 14.5): records by slot, and records waiting for room (R339). -/
structure TrapQueue where
  head : BitVec 11
  tail : BitVec 11
  lost : W32
  qsync : W64
  recs : Table TrapRec
  holding : List TrapRec
  deriving DecidableEq, Repr

/-- What is parked at a home until ACT is written (R341, R397): a part of a Curb entry, a request of another package, a
landing unit of an accumulate record, a host write, a write of the Piazza, a branch of a multicast packet (a port, or
64 + a member die), or a tree packet of this package that its root returned. -/
inductive ParkedWork where
  | store (die entry part : Nat)
  | outside (r : ExtRequest)
  | copyUnit (die ch unit : Nat)
  | hostWrite (p : HostPart)
  | result (session : Nat)
  | completion (job : BitVec 16)
  | refusal (asid : BitVec 8) (done : W64)
  | branch (group id br : Nat)
  | packet (p : McPacket)
  | crewArea (job : BitVec 16) (va : W64) (bytes : List Byte)
  | saveArea (h : BitVec 24)
  deriving DecidableEq, Repr

/-- Parked work: its number, the die and slot of its record, what it is. -/
structure Parked where
  num : Nat
  die : Nat
  slot : Option Nat
  work : ParkedWork
  deriving DecidableEq, Repr

/-- Die thermal status (Table 18.5). -/
structure Thermal where
  temp : BitVec 16
  level : BitVec 2
  stepNo : BitVec 4
  events : W32
  warn : BitVec 16
  deriving DecidableEq, Repr

/-- HBM stack status (Table 18.6). -/
structure Hbm where
  temp : BitVec 16
  refx : BitVec 2
  throt : Bool
  deriving DecidableEq, Repr

/-- Memory error counters (Table 14.8); `posted`: the window's kind-5 record is posted; `window`: the number of the window of 2^20
ticks that CECNT counts in (R344). -/
structure Errors where
  window : Nat
  cecnt : W32
  uecnt : W32
  cethr : W32
  posted : Bool
  deriving DecidableEq, Repr

/-- A compute die. `curb` oldest entry first. Of dies 4 and 5 only the error counters are used (R344). -/
structure Die where
  cycle : Nat
  curb : List CurbEntry
  foot : Table FootDecl
  live : List FootJob
  queue : TrapQueue
  errors : Errors
  hbm : Table Hbm
  deriving DecidableEq, Repr

/-! ### Landings: copy traffic that is on its way (R179, R278, R296) -/

/-- A piece of a landing: virtual address, where its translation leads with the lease expiry it carries, and its bytes. -/
structure LandPiece where
  va : W64
  pkg : BitVec 15
  via : Via
  addr : W64
  exp : W64
  bytes : List Byte
  deriving DecidableEq, Repr

/-- Copy traffic of a core's matrix engine, or of drain port `port` of its sequencer, sent and not landed: its core, its sequencer
and the address of its command's group, the pieces it writes, the lines that are full once nothing else of the engine writes them
(by virtual number), the sync word and the count added to it. -/
structure Landing where
  num : Nat
  core : Nat
  port : Option Nat
  handle : BitVec 24
  gaddr : W64
  pieces : List LandPiece
  lines : List Nat
  sync : W64
  count : Nat
  deriving DecidableEq, Repr

/-! ### Launches and the scheduler -/

/-- An entry of the pending-launch store (R207, R208). -/
structure LaunchEntry where
  card : Vector W64 32
  serial : BitVec 24
  order : Nat
  asid : BitVec 8
  parent : BitVec 16
  state : BitVec 3
  fin : BitVec 2
  job : BitVec 16
  occupied : Bool
  /-- taken by the scheduler, with the declarations it has validated (R240) -/
  taken : Option (List (List W64))
  deriving DecidableEq, Repr

/-- A host submission (R245, R383). -/
structure Submission where
  num : Nat
  order : Nat
  conn : Nat
  tag : W64
  asid : BitVec 8
  card : Vector W64 32
  restore : Bool
  /-- taken by the scheduler, with the declarations it has validated (R240) -/
  taken : Option (List (List W64))
  deriving DecidableEq, Repr

/-! ### Collective engine -/

/-- A message queued on a send end (R212): how it was issued and its header counter. -/
structure QueuedMsg where
  bcast : Bool
  reduce : Bool
  nv : Bool
  nctr : BitVec 13
  deriving DecidableEq, Repr

/-- A collective channel (Table 12.3) with its queued messages and its messages not acknowledged. -/
structure Coll where
  peer : W64
  shape : W64
  buf : W64
  sync : W64
  state : BitVec 2
  errk : BitVec 2
  cred : BitVec 12
  head : BitVec 12
  tail : BitVec 12
  job : BitVec 16
  mseq : W32
  disc : W32
  queued : List QueuedMsg
  unacked : List W32
  frozen : Bool
  /-- messages held at a frozen receive end, and acknowledged bytes held at a send end (R396) -/
  heldMsgs : List Message
  heldAcks : Nat
  /-- credits of each receiver (R212) -/
  credits : Table Nat
  /-- of a send end, the number of its settings; of a receive end, the channel and the setting whose messages MSEQ counts, and
  whether one of them was discarded, after which those on their way land as they arrive (R296, R297, log entry 41) -/
  setting : Nat
  heard : Option (BitVec 15 × BitVec 12 × Nat × Bool)
  deriving DecidableEq, Repr

/-- A lift entry (Table 12.4); `order` orders waiting commands, and `owed` holds those that still wait after the entry was armed
again (R213, R299). -/
structure Lift where
  state : BitVec 2
  pend : Bool
  err : Bool
  job : BitVec 16
  thresh : W32
  cmd : W64
  count : W32
  order : Nat
  owed : List (W64 × Nat)
  deriving DecidableEq, Repr

/-! ### Multicast, sessions, links -/

/-- A multicast packet in flight at this Piazza (R315): the port it came from (127: this package), its packet, the dies
(64 + d), the channel (99) and the ports that have not acknowledged, the branches returned toward the source (R316), and the
address of a dropped branch. -/
structure McFlight where
  id : Nat
  src : Nat
  packet : McPacket
  owing : List Nat
  back : List Nat
  lost : Option W64
  deriving DecidableEq, Repr

/-- A multicast group entry (Table 13.5). -/
structure McGroup where
  valid : Bool
  dies : BitVec 4
  root : BitVec 15
  parent : BitVec 7
  job : BitVec 16
  child : W64
  base : Vector W64 4
  flight : List McFlight
  discarded : Nat
  deriving DecidableEq, Repr

/-- A slot of a session (Table 13.6) with its buffer: the bytes written this round. `stale`: it has been CLOSED since an
earlier round (R327). -/
structure Slot where
  leaf : BitVec 17
  lvl : BitVec 4
  valid : Bool
  closed : Bool
  full : Bool
  bytes : Table Byte
  stale : Bool
  deriving DecidableEq, Repr

/-- A value kept at a node (R320, R327): node of the leaf tree, its elements, and the flags raised below it. -/
structure NodeVal where
  lvl : Nat
  idx : Nat
  elems : List W32
  flags : BitVec 7
  deriving DecidableEq, Repr

/-- A reduction session entry (Table 13.6) with what the Piazza keeps for its round. -/
structure Session where
  state : BitVec 3
  mode : BitVec 2
  op : BitVec 3
  ifmt : BitVec 4
  ofmt : BitVec 4
  anchor : BitVec 10
  root : Bool
  outmc : Bool
  job : BitVec 16
  err : Bool
  nleaf : BitVec 17
  nelem : BitVec 15
  gen : W32
  timeout : W32
  parent : BitVec 7
  outgrp : BitVec 10
  child : W64
  outa : W64
  outsync : W64
  stata : W64
  disc : W32
  dup : W32
  slots : Table Slot
  /-- nodes kept here: at the root all that arrived (ARRIVAL: one running combination), elsewhere those waiting for the
  parent port -/
  nodes : List NodeVal
  /-- EXACT: the running sums, and for each element whether a NaN (bit 0), +∞ (1), −∞ (2) was seen -/
  sums : List (Int × Nat)
  present : List Nat
  withdrawn : List Nat
  flags : BitVec 7
  /-- ptime of the first value of the round (R325) -/
  started : Option W64
  /-- WITHDRAW markers waiting for the parent port behind the kept values: first leaf and LVL (R320, R326) -/
  marks : List (Nat × Nat)
  /-- stores held because their slot is FULL (R322), oldest first -/
  heldStores : List HeldWrite
  busy : Bool
  timedOut : Bool
  wd : Bool
  noret : Bool
  recon : Bool
  /-- STATE 0 was written during EMIT (Table 13.8) -/
  closing : Bool
  /-- emission: 0 none, 1 COMPLETE, 2 PARTIAL, 3 RECOVERED; the step of R324 that is next, or 10 + the step whose packet is
  in flight -/
  emit : Nat
  emitStep : Nat
  deriving DecidableEq, Repr

/-! ### What the package sends -/

/-- A packet sent to another package, to a link, or to the host (R312, R306, R380). -/
inductive Packet where
  /-- read of n bytes at an address: package, reading of the address, the requester's die and sequencer, the number it is answered
  under, and what is meant (as in `Effect.read`) with its operand -/
  | read (pkg : BitVec 15) (via : Via) (die : Nat) (h : BitVec 24) (tag what : Nat) (operand : W32) (expiry addr : W64) (n : Nat)
  /-- a request of a store: the number of the store of its stream that goes to the same destination before it, if that is not yet
  acknowledged, and the number of requests that the store makes of that package (R125); the issuer's die; the identity of a
  read-modify-write (R286) -/
  | store (pkg : BitVec 15) (die : Nat) (h : BitVec 24) (job : BitVec 16) (stream : BitVec 4) (seqno : BitVec 12)
      (pred : Option (BitVec 12)) (of : Nat) (unit : Option (UnitId × Nat)) (via : Via) (expiry : W64) (effects : List Effect)
  /-- reply to a read of another package's sequencer -/
  | readReply (pkg : BitVec 15) (h : BitVec 24) (tag : Nat) (r : Reply)
  /-- acknowledgment of another package's store -/
  | storeAck (pkg : BitVec 15) (h : BitVec 24) (stream : BitVec 4) (seqno : BitVec 12) (k : AckKind)
  | heldNotice (pkg : BitVec 15) (h : BitVec 24) (stream : BitVec 4) (seqno : BitVec 12)
  | returned (pkg : BitVec 15) (h : BitVec 24) (stream : BitVec 4) (seqno : BitVec 12) (unit : Option UnitId)
  /-- catalogue read -/
  | catRead (pkg : BitVec 15) (h : BitVec 24) (tag : Nat) (key : W64)
  /-- the claim of a transfer record, and its return: the new OWN and STATUS (R178) -/
  | recordOwn (pkg : BitVec 15) (via : Via) (expiry addr : W64) (own : Bool) (status : BitVec 5)
  /-- a unit of a record, or bytes that another engine or the Piazza writes, with the identity of the unit and its source's
  watermark (R284, R286), and the addresses whose lines it completes (R179) -/
  | copyUnit (pkg : BitVec 15) (unit : Option (UnitId × Nat)) (via : Via) (expiry : W64) (effects : List Effect)
      (lines : List W64)
  /-- landed bytes counted into a sync word of another package (R138) -/
  | syncAdd (pkg : BitVec 15) (via : Via) (expiry : W64) (addr : W64) (n : Nat)
  | message (pkg : BitVec 15) (m : Message)
  | messageAck (pkg : BitVec 15) (ch : BitVec 12) (mseq : W32) (disc : BitVec 2)
  | credit (pkg : BitVec 15) (ch : BitVec 12) (n : BitVec 12)
  | multicast (port : Nat) (p : McPacket)
  | multicastAck (port group id : Nat) (lost : Option W64)
  /-- a branch that cannot be delivered is returned toward the source (R314, R316) -/
  | branchReturned (port group id br : Nat)
  /-- a tree packet that is no store, one branch of which its root cannot deliver, returns to its source (R316) -/
  | treeReturned (pkg : BitVec 15) (p : McPacket)
  /-- a flit that goes on to a die over its port (R302, R312) -/
  | toDie (die : Nat) (vc : BitVec 3) (payload : BitVec 448)
  | sessionValue (port s : Nat) (v : SessionValue)
  /-- a WITHDRAW marker, ROUNDEND, CLOSE and the word that opens slots again, each with the session's fields (R317) -/
  | sessionMark (port s leaf lvl : Nat) (fields shape : W64)
  | roundend (port s : Nat) (fields shape : W64)
  | closeSlots (port s : Nat) (fields shape : W64)
  | reopenSlots (port s : Nat) (fields shape : W64)
  | flit (port : Nat) (f : Flit)
  /-- a totals flit with the values it carries, and a timing flit with the package followed (R304, R309): the spec gives no
  layout of their payload -/
  | totals (port : Nat) (high : Bool) (t : List (W32 × W32)) (f : Flit)
  | timing (port : Nat) (ref : BitVec 15) (f : Flit)
  /-- a flit of a packet that passes through this package: its destination, virtual channel and payload (R312, R313) -/
  | transit (pkg : BitVec 15) (vc : BitVec 3) (payload : BitVec 448)
  /-- the root's acknowledgment of a tree packet to the emission of another package that sent it (R315, R324) -/
  | rootAck (pkg : BitVec 15) (group id : Nat) (lost : Option W64)
  /-- a datagram to the host on a connection, or unsequenced (SEQ 0) -/
  | host (d : Datagram)
  deriving DecidableEq, Repr

/-! ### Ports -/

/-- Flow-control and link-layer state of a port (Table 13.4, R306, R307, R309). -/
structure Port where
  state : BitVec 3
  peerpkg : BitVec 15
  peerport : BitVec 6
  islocal : Bool
  dis : Bool
  cethr : BitVec 16
  rtthr : BitVec 16
  repl : W32
  lastrepl : W32
  crcerr : W32
  retrains : W32
  txflits : W64
  rxflits : W64
  sent : Vector W32 8
  freedp : Vector W32 8
  freed : Vector W32 8
  reach : Table W64
  nextSeq : BitVec 12
  expect : BitVec 12
  nakSent : Bool
  retry : List Flit
  failed : Nat
  posted : Bool
  /-- REPL has reached lk.rtthr in this window -/
  retrained : Bool
  frozen : Bool
  /-- flits that wait to be sent for the first time: their packet, virtual channel and payload (R309, R314) -/
  outq : List (Packet × BitVec 3 × BitVec 448)
  /-- the piled deficits of R301: collective, program-issued -/
  deficit : Nat × Nat
  deriving DecidableEq, Repr

/-- A circuit of the base die (Table 13.1). -/
structure Circuit where
  wl : Byte
  active : Byte
  pend : Bool
  deriving DecidableEq, Repr

/-! ### Host port and platform -/

/-- A host connection (R380, R381). -/
structure Conn where
  isOpen : Bool
  asid : BitVec 8
  sup : Bool
  srcAddr : BitVec 128
  srcPort : BitVec 16
  /-- the address of the device that the OPEN named (R379) -/
  ownAddr : BitVec 128
  openSeq : W32
  expect : W32
  own : W32
  unacked : List (W32 × Nat × Datagram)
  ahead : List Datagram
  /-- the order of acceptance of the SUBMITs that have been received and not yet executed (R245) -/
  orders : List (W32 × Nat)
  frozen : Bool
  /-- an arrival waits for an ACK (R380) -/
  ackDue : Bool
  /-- an MWRITE is not yet committed: its number, its tag, the parts that are not, and whether a dropped part has ended it (R382) -/
  writing : Option (Nat × W64 × Nat × Bool)
  /-- CLOSE has been executed, and replies are kept until the host has them (R380, R381) -/
  closing : Bool
  deriving DecidableEq, Repr

/-- Power control (Table 18.7) with the burst rate of R390 (bursts due in each 10 µs interval). -/
structure Power where
  target : BitVec 12
  cap : BitVec 12
  mode : BitVec 2
  power : BitVec 12
  bursts : W32
  evsync : W64
  rate : Nat
  deriving DecidableEq, Repr

/-! ### The package -/

/-- The state of one package. -/
structure State where
  pkg : BitVec 15
  powered : Bool
  clockStopped : Bool
  powerFault : Bool
  ptime : W64
  timeRef : BitVec 15
  /-- the package that each link last named in a timing flit (R304) -/
  timeRefs : Table (BitVec 15)
  synced : Bool
  slew : BitVec 16
  steps : W32
  mem : List Host.Cell
  empties : List Nat
  /-- the `ldfe`s that wait at each line, in arrival order: package and sequencer (R137) -/
  ldfeQueue : List (FeRef × BitVec 15 × BitVec 24)
  /-- stores of other packages that wait for their predecessor in their stream (R125) -/
  reorder : List ExtRequest
  unitRecords : List UnitRecord
  /-- requests of other packages that this one has sent on, and the number of the next (R254, R330, R337) -/
  proxies : List Proxy
  proxyNext : Nat
  /-- parts of host writes whose home is in another package, by the number they are answered under (R382) -/
  hostFar : List (Nat × HostPart)
  /-- of each stream of a sequencer of another package the number of the last store that committed here, and how many of its
  requests are still to commit (R125) -/
  streamsDone : List ((BitVec 15 × BitVec 24 × BitVec 4) × BitVec 12 × Nat)
  poison : List Nat
  refusedWrites : W32
  absentReads : W32
  ctx : Seqr
  seqs : List Seqr
  issue : Issue
  /-- members of issued groups not yet performed, oldest first (R71, R73) -/
  late : List Late
  curCore : Nat
  agenda : List Action
  freeCtr : Nat
  egress : List Packet
  /-- packets that wait for a route (R314) -/
  unrouted : List Packet
  jobs : List Job
  jobNext : BitVec 16
  handleNext : BitVec 24
  crews : List Crew
  cores : Table Core
  dies : Table Die
  channels : Table Channel
  /-- translation units of dies 0 to 4 -/
  trans : Table TransUnit
  /-- leases that were in force on this package until a write of LEASE replaced them: die, ticks, and the package times between
  which they were (R335) -/
  leases : List (Nat × Nat × W64 × W64)
  landings : List Landing
  landNext : Nat
  parked : List Parked
  parkNext : Nat
  thermal : Table Thermal
  launches : Table LaunchEntry
  serial : BitVec 24
  submissions : List Submission
  orderNext : Nat
  /-- queued sequencers in order of entry -/
  runQueue : List (BitVec 24)
  colls : Table Coll
  lifts : Table Lift
  wcoll : Byte
  wprog : Byte
  groups : Table McGroup
  mcNext : Nat
  sessions : Table Session
  ports : Table Port
  circuits : Table Circuit
  conns : Table Conn
  /-- the addresses at which the device listens, and the allow table (R379) -/
  listen : List (BitVec 128)
  allow : List (BitVec 128)
  /-- no configuration was accepted at boot: recovery has no allow table (log entry 52) -/
  allowAll : Bool
  dropped : W32
  recovery : Bool
  /-- the images that the boot ROM has loaded, accepted or not (R384, R385) -/
  images : List BootImage
  upload : List (Nat × Byte)
  /-- the images that uploads have put in the flash (R384) -/
  flash : List BootImage
  power : Power
  deriving DecidableEq, Repr

/-! ### Reset values -/

/-- A register file entry at creation: zero with an empty mask (R14). -/
def TReg.zero (w : Nat) : TReg w := { val := 0, taint := 0 }

/-- A vector register at creation (R14). -/
def VReg.zero : VReg := { val := 0, tag := 0, aux := 0, taint := 0 }

/-- A loop level at creation (R14). -/
def LoopLevel.zero : LoopLevel := { valid := false, count := 0, index := 0, start := 0, stop := 0 }

/-- A feed port at creation (R14). -/
def FeedPort.zero : FeedPort := { bind := 0, tag := 0, aux := 0, swz := 0, entries := [], walk := none, closing := false }

/-- A context with every register zero (R14), in STATE retired; the scheduler's fields are set at creation. -/
def Seqr.blank : Seqr where
  handle := 0
  index := 0
  job := 0
  st := .retired
  cls := 0
  sup := false
  recon := false
  core := 0
  cdie := 0
  pc := 0
  g := Vector.replicate 32 (TReg.zero 32)
  b := Vector.replicate 8 (TReg.zero 64)
  v := Vector.replicate 56 VReg.zero
  k := Vector.replicate 8 (TReg.zero 64)
  ls := Vector.replicate 6 LoopLevel.zero
  mp := Vector.replicate 8 0
  ports := Vector.replicate 8 FeedPort.zero
  staging := []
  vrot := 0
  krot := 0
  rmode := 0
  ovf := 0
  seed := 1
  fstat := 0
  ctaint := 0
  sv := 0
  bankstall := 0
  parkLimit := 20000
  holdmax := 1200000
  roerr := 0
  cause := 0
  epc := 0
  badaddr := 0
  trapBase := 0
  tags := Vector.replicate 16 none
  nextSeq := Vector.replicate 16 0
  tiles := []
  lots := []
  tileWords := []
  launchRefused := 0
  calls := 0
  held := none
  losses := []
  wait := none
  preempt := none
  depart := none
  residentSince := 0
  lastPtime := 0
  joined := []
  heldStreams := []
  heldDue := []
  asks := []
  askNext := 0
  stuck := false
  svDue := false
  restoring := none
  imaged := false
  wakeAt := 0
  wakeLine := none
  wakeDue := false
  savedParts := 0
  savedLots := 0
  resumed := false
  gangPark := false
  target := none

/-- No group in flight. -/
def Issue.idle : Issue where
  pre := none
  since := none
  late := false
  sync := false
  pos := 0
  len := 1
  slot := 7
  npc := none
  flow := .ok
  raised := 0
  roerrs := 0
  bankCycles := 0
  seedDrawn := false
  pops := []
  taken := 0
  queue := []

/-- A tile at reset: kind unset (Table 1.4); its cells read zero (log entry 9). -/
def Tile.reset : Tile :=
  { kind := 0, anchor := 0, o := false, x := false, nan := false, busy := false, cells := [], poisoned := [] }

/-- A core at reset (Table 10.6); its routine store and directory list nothing beyond the library (R282). -/
def Core.reset : Core where
  slots := Vector.replicate 4 none
  run := none
  lastIssue := 0
  switches := 0
  parks := 0
  ret := false
  tiles := []
  mq := []
  routine := none
  store := []
  dir := []

/-- A copy channel at reset (Table 12.1). -/
def Channel.reset : Channel where
  state := 0
  killed := false
  killing := false
  pend := []
  last := 0
  fkind := 0
  retcnt := 0
  wmark := 0
  sent := 0
  acked := []
  applied := []
  faddr := 0
  cur := none
  claim := 0
  job := 0
  idxs := []
  marked := []
  snap := Vector.replicate 8 0
  claimed := false
  started := false
  stopping := none
  faultSlot := none

/-- A translation unit at reset (Table 14.3). -/
def TransUnit.reset : TransUnit where
  lease := 50000
  migthr := 0
  migpte := 0
  mignew := 0
  migst := 0
  roots := []
  cache := []
  migration := none
  remote := []
  posted := []
  window := 0

/-- A trap queue at reset (Table 14.5; QSYNC: log entry 7). -/
def TrapQueue.reset : TrapQueue := { head := 0, tail := 0, lost := 0, qsync := 0, recs := [], holding := [] }

/-- Error counters at reset (Table 14.8). -/
def Errors.reset : Errors := { window := 0, cecnt := 0, uecnt := 0, cethr := 64, posted := false }

/-- A compute die at reset. -/
def Die.reset : Die where
  cycle := 0
  curb := []
  foot := []
  live := []
  queue := .reset
  errors := .reset
  hbm := []

/-- Die thermal status at reset (Table 18.5). -/
def Thermal.reset : Thermal := { temp := 0, level := 0, stepNo := 0, events := 0, warn := 1600 }

/-- HBM stack status at reset (Table 18.6). -/
def Hbm.reset : Hbm := { temp := 0, refx := 0, throt := false }

/-- An entry of the pending-launch store at reset. -/
def LaunchEntry.reset : LaunchEntry where
  card := Vector.replicate 32 0
  serial := 0
  order := 0
  asid := 0
  parent := 0
  state := 5
  fin := 0
  job := 0
  occupied := false
  taken := none

/-- A collective channel at reset (Table 12.3). -/
def Coll.reset : Coll where
  peer := 0
  shape := 0
  buf := 0
  sync := 0
  state := 0
  errk := 0
  cred := 0
  head := 0
  tail := 0
  job := 0
  mseq := 0
  disc := 0
  queued := []
  unacked := []
  frozen := false
  heldMsgs := []
  heldAcks := 0
  credits := []
  setting := 0
  heard := none

/-- A lift entry at reset (Table 12.4). -/
def Lift.reset : Lift :=
  { state := 0, pend := false, err := false, job := 0, thresh := 0, cmd := 0, count := 0, order := 0, owed := [] }

/-- A multicast group entry at reset (Table 13.5). -/
def McGroup.reset : McGroup where
  valid := false
  dies := 0
  root := 0
  parent := 0
  job := 0
  child := 0
  base := Vector.replicate 4 0
  flight := []
  discarded := 0

/-- A session slot at reset (Table 13.6). -/
def Slot.reset : Slot := { leaf := 0, lvl := 0, valid := false, closed := false, full := false, bytes := [], stale := false }

/-- A session entry at reset (Table 13.6). -/
def Session.reset : Session where
  state := 0
  mode := 0
  op := 0
  ifmt := 0
  ofmt := 0
  anchor := 0
  root := false
  outmc := false
  job := 0
  err := false
  nleaf := 0
  nelem := 0
  gen := 0
  timeout := 0
  parent := 127
  outgrp := 0
  child := 0
  outa := 0
  outsync := 0
  stata := 0
  disc := 0
  dup := 0
  slots := []
  nodes := []
  sums := []
  present := []
  withdrawn := []
  flags := 0
  started := none
  marks := []
  heldStores := []
  busy := false
  timedOut := false
  wd := false
  noret := false
  recon := false
  closing := false
  emit := 0
  emitStep := 0

/-- A port at reset (Table 13.4). -/
def Port.reset : Port where
  state := 0
  peerpkg := 0
  peerport := 0
  islocal := false
  dis := false
  cethr := 16
  rtthr := 256
  repl := 0
  lastrepl := 0
  crcerr := 0
  retrains := 0
  txflits := 0
  rxflits := 0
  sent := Vector.replicate 8 0
  freedp := Vector.replicate 8 0
  freed := Vector.replicate 8 0
  reach := []
  nextSeq := 0
  expect := 0
  nakSent := false
  retry := []
  failed := 0
  posted := false
  retrained := false
  frozen := false
  outq := []
  deficit := (0, 0)

/-- A circuit at reset (R302). -/
def Circuit.reset : Circuit := { wl := 32, active := 32, pend := false }

/-- A host connection at reset: closed (R381). -/
def Conn.reset : Conn where
  isOpen := false
  asid := 0
  sup := false
  ownAddr := 0
  srcAddr := 0
  srcPort := 0
  openSeq := 0
  expect := 0
  own := 0
  unacked := []
  ahead := []
  orders := []
  frozen := false
  ackDue := false
  writing := none
  closing := false

/-- Power control at reset (Table 18.7). -/
def Power.reset : Power := { target := 0, cap := 2800, mode := 0, power := 0, bursts := 0, evsync := 0, rate := 0 }

/-- The package right after reset: every object at its reset value, no job and no sequencer, memory listing nothing
(log entries 1 to 13 name the values the spec does not give). -/
def State.reset : State where
  pkg := 0
  powered := true
  clockStopped := false
  powerFault := false
  ptime := 0
  timeRef := 0
  timeRefs := []
  synced := false
  slew := 0
  steps := 0
  mem := []
  empties := []
  ldfeQueue := []
  reorder := []
  unitRecords := []
  proxies := []
  proxyNext := 0
  hostFar := []
  streamsDone := []
  poison := []
  refusedWrites := 0
  absentReads := 0
  ctx := .blank
  seqs := []
  issue := .idle
  late := []
  curCore := 0
  agenda := []
  freeCtr := 0
  egress := []
  unrouted := []
  jobs := []
  jobNext := 1
  handleNext := 1
  crews := []
  cores := []
  dies := []
  channels := []
  trans := []
  leases := []
  landings := []
  landNext := 0
  parked := []
  parkNext := 0
  thermal := []
  launches := []
  serial := 0
  submissions := []
  orderNext := 0
  runQueue := []
  colls := []
  lifts := []
  wcoll := 1
  wprog := 1
  groups := []
  mcNext := 0
  sessions := []
  ports := []
  circuits := []
  conns := []
  listen := []
  allow := []
  allowAll := false
  dropped := 0
  recovery := false
  images := []
  upload := []
  flash := []
  power := .reset

end Sys2Proof.Machine
end

