-- ==== Sys2Proof/Machine/Ops.lean ====
section
/-!
DEFINITION. The named operations over registers, memory and the package's objects that the meanings share: tables,
memory bytes, lanes, rotating register numbers (R19), taint masks (R15, R33), sync words (R138), full/empty bits (R136),
trap records (R339), taking a trap (R218) and returning from one (R219).
-/

namespace Sys2Proof.Machine

/-- The outcome of an instruction that takes its effect. -/
abbrev Out : Type := Host.Outcome State Fault Refusal

/-! ### Tables -/

/-- The object with number `k`, or `d` where the table lists none. -/
def tget {α : Type} (d : α) : Table α → Nat → α
  | [], _ => d
  | (k', v) :: t, k => if k = k' then v else tget d t k

/-- The table with object `k` set to `v`; keys stay strictly rising. -/
def tset {α : Type} (k : Nat) (v : α) : Table α → Table α
  | [] => [(k, v)]
  | (k', v') :: t => if k < k' then (k, v) :: (k', v') :: t else if k = k' then (k, v) :: t else (k', v') :: tset k v t

/-- The table without object `k`. -/
def terase {α : Type} (k : Nat) (t : Table α) : Table α := t.filter (fun e => e.1 ≠ k)

/-- Replaces element `i` of a list, if it has one. -/
def lset {α : Type} (i : Nat) (v : α) (l : List α) : List α := l.set i v

/-- Applies `f` to the elements that satisfy `p`. -/
def lmod {α : Type} (p : α → Bool) (f : α → α) (l : List α) : List α := l.map (fun x => if p x then f x else x)

/-- The first free number of 0 to n − 1, counted cyclically from a free starting point (log entry 6). -/
def pickFree (start n : Nat) (isFree : Nat → Bool) : Option Nat :=
  ((List.range n).find? (fun i => isFree ((start + i) % n))).map (fun i => (start + i) % n)

/-! ### Memory -/

/-- What an unlisted address reads as (log entry 3). -/
def Memory.unlisted : Byte := 0

/-- One byte of memory. -/
def Memory.read : List Host.Cell → Nat → Byte
  | [], _ => Memory.unlisted
  | (a', v) :: m, a => if a = a' then v else Memory.read m a

/-- Writes one byte and keeps the canonical form: a byte equal to what an unlisted address reads as is not listed. -/
def Memory.write (a : Nat) (v : Byte) : List Host.Cell → List Host.Cell
  | [] => if v = Memory.unlisted then [] else [(a, v)]
  | (a', v') :: m =>
    if a < a' then (if v = Memory.unlisted then (a', v') :: m else (a, v) :: (a', v') :: m)
    else if a = a' then (if v = Memory.unlisted then m else (a, v) :: m)
    else (a', v') :: Memory.write a v m

/-- Every address of `m` lies above `a`. -/
def Memory.above (a : Nat) (m : List Host.Cell) : Bool := m.all (fun c => decide (a < c.1))

/-- The canonical form: addresses strictly rising, no entry equal to what an unlisted address reads as. -/
def Memory.wf : List Host.Cell → Bool
  | [] => true
  | (a, v) :: m => decide (v ≠ Memory.unlisted) && Memory.above a m && Memory.wf m

/-- The little-endian number in n bytes from `a` (R4). -/
def Memory.readLE (m : List Host.Cell) (a : Nat) : Nat → Nat
  | 0 => 0
  | n + 1 => (Memory.read m a).toNat + 256 * Memory.readLE m (a + 1) n

/-- The bytes of a number, least significant first. -/
def leBytes (v : Nat) : Nat → List Byte
  | 0 => []
  | n + 1 => BitVec.ofNat 8 v :: leBytes (v / 256) n

/-- The number that bytes spell, least significant first. -/
def ofBytes : List Byte → Nat
  | [] => 0
  | b :: bs => b.toNat + 256 * ofBytes bs

/-- Pairs consecutive addresses from `a` with bytes. -/
def atAddrs (a : Nat) : List Byte → List (Nat × Byte)
  | [] => []
  | b :: bs => (a, b) :: atAddrs (a + 1) bs

/-- The 32-byte granule of an address (R344). -/
def granuleOf (a : Nat) : Nat := a / 32

/-- The scratchpad line of an address: 128 bytes (R113, R120). -/
def lineOf (a : Nat) : Nat := a / 128

/-- Writes bytes at their home: a write that covers a whole granule clears its poison mark (R344). -/
def State.writeBytes (s : State) (bs : List (Nat × Byte)) : State :=
  { s with
    mem := bs.foldl (fun m b => Memory.write b.1 b.2 m) s.mem
    poison := s.poison.filter (fun g =>
      !((List.range 32).all (fun i => bs.any (fun b => b.1 = 32 * g + i)))) }

/-- Writes the n low bytes of a number, least significant first. -/
def State.writeLE (s : State) (a v n : Nat) : State := s.writeBytes (atAddrs a (leBytes v n))

/-- The little-endian number in n bytes from `a`. -/
def State.readLE (s : State) (a n : Nat) : Nat := Memory.readLE s.mem a n

/-- A byte of the n from `a` lies in a poisoned granule. -/
def State.poisoned (s : State) (a n : Nat) : Bool := (List.range n).any (fun i => s.poison.contains (granuleOf (a + i)))

/-! ### The physical map (R3, R328) -/

/-- The package of a physical address. -/
def paPkg (pa : W64) : BitVec 15 := BitVec.ofNat 15 (pa.toNat / 2 ^ 49)

/-- The place of a physical address within its package: die code and offset. -/
def paLocal (pa : W64) : Nat := pa.toNat % 2 ^ 49

/-- The die code of a place. -/
def dieOf (a : Nat) : Nat := a / 2 ^ 46 % 8

/-- The offset of a place on its die. -/
def offOf (a : Nat) : Nat := a % 2 ^ 46

/-- The offset is HBM of a compute die (Table 14.1). -/
def isHbm (a : Nat) : Bool := dieOf a < 4 && offOf a < 0x2400000000

/-- The offset is a lot of a core's scratchpad (Table 14.1). -/
def isScratch (a : Nat) : Bool :=
  dieOf a < 4 && decide (0x200000000000 ≤ offOf a) && offOf a < 0x20000C000000 &&
    (offOf a - 0x200000000000) % 0x400000 < 0x300000

/-- The offset is a reduction session slot of the Piazza (Table 14.1). -/
def isSession (a : Nat) : Bool := dieOf a = 4 && decide (0x100000000000 ≤ offOf a) && offOf a < 0x100020000000

/-- The core, 0 to 191, whose scratchpad holds a place. -/
def scratchCore (a : Nat) : Nat := 48 * dieOf a + (offOf a - 0x200000000000) / 0x400000

/-- The place of byte o of physical lot n of core c of die d (Table 14.1). -/
def lotPlace (core n o : Nat) : Nat :=
  core / 48 * 2 ^ 46 + 0x200000000000 + core % 48 * 0x400000 + n * 0x10000 + o

/-- The physical address of a place of package p. -/
def paOf (p : BitVec 15) (a : Nat) : W64 := BitVec.ofNat 64 (p.toNat * 2 ^ 49 + a)

/-! ### Lanes (R15, R41) -/

/-- Lane l of a vector. -/
def lane (v : Vec) (l : Nat) : W32 := v.extractLsb' (32 * l) 32

/-- The number whose 2 ^ w digits are `f 0`, `f 1`, … -/
def packNat (w : Nat) (f : Nat → Nat) : Nat → Nat
  | 0 => 0
  | n + 1 => packNat w f n + f n * 2 ^ (w * n)

/-- The vector with the given 64 lanes. -/
def ofLanes (f : Nat → W32) : Vec := BitVec.ofNat 2048 (packNat 32 (fun l => (f l).toNat) 64)

/-- Element i of width w of a vector. -/
def elem (w : Nat) (v : Vec) (i : Nat) : BitVec w := v.extractLsb' (w * i) w

/-- The vector with n elements of width w, and zeros above. -/
def ofElems (w n : Nat) (f : Nat → BitVec w) : Vec := BitVec.ofNat 2048 (packNat w (fun i => (f i).toNat) n)

/-- The bytes of a vector, lowest address first. -/
def vecBytes (v : Vec) : List Byte := (List.range 256).map (fun i => elem 8 v i)

/-! ### Objects of the package -/

/-- Core n, 0 to 191. -/
def State.coreOf (s : State) (n : Nat) : Core := tget .reset s.cores n

/-- Changes core n. -/
def State.modCore (s : State) (n : Nat) (f : Core → Core) : State := { s with cores := tset n (f (s.coreOf n)) s.cores }

/-- Compute die d. -/
def State.dieAt (s : State) (d : Nat) : Die := tget .reset s.dies d

/-- Changes die d. -/
def State.modDie (s : State) (d : Nat) (f : Die → Die) : State := { s with dies := tset d (f (s.dieAt d)) s.dies }

/-- The translation unit of die d (4: the Piazza's). -/
def State.tu (s : State) (d : Nat) : TransUnit := tget .reset s.trans d

/-- Changes a translation unit. -/
def State.modTu (s : State) (d : Nat) (f : TransUnit → TransUnit) : State :=
  { s with trans := tset d (f (s.tu d)) s.trans }

/-- Copy channel c of die d. -/
def State.chan (s : State) (d c : Nat) : Channel := tget .reset s.channels (128 * d + c)

/-- Changes a copy channel. -/
def State.modChan (s : State) (d c : Nat) (f : Channel → Channel) : State :=
  { s with channels := tset (128 * d + c) (f (s.chan d c)) s.channels }

/-- Collective channel c. -/
def State.coll (s : State) (c : Nat) : Coll := tget .reset s.colls c

/-- Changes a collective channel. -/
def State.modColl (s : State) (c : Nat) (f : Coll → Coll) : State := { s with colls := tset c (f (s.coll c)) s.colls }

/-- Lift entry e. -/
def State.lift (s : State) (e : Nat) : Lift := tget .reset s.lifts e

/-- Changes a lift entry. -/
def State.modLift (s : State) (e : Nat) (f : Lift → Lift) : State := { s with lifts := tset e (f (s.lift e)) s.lifts }

/-- Session n. -/
def State.session (s : State) (n : Nat) : Session := tget .reset s.sessions n

/-- Changes a session. -/
def State.modSession (s : State) (n : Nat) (f : Session → Session) : State :=
  { s with sessions := tset n (f (s.session n)) s.sessions }

/-- Slot k of a session. -/
def Session.slot (x : Session) (k : Nat) : Slot := tget .reset x.slots k

/-- Changes a slot of a session. -/
def Session.modSlot (x : Session) (k : Nat) (f : Slot → Slot) : Session :=
  { x with slots := tset k (f (x.slot k)) x.slots }

/-- Multicast group g. -/
def State.group (s : State) (g : Nat) : McGroup := tget .reset s.groups g

/-- Changes a multicast group. -/
def State.modGroup (s : State) (g : Nat) (f : McGroup → McGroup) : State :=
  { s with groups := tset g (f (s.group g)) s.groups }

/-- Port p. -/
def State.port (s : State) (p : Nat) : Port := tget .reset s.ports p

/-- Changes a port. -/
def State.modPort (s : State) (p : Nat) (f : Port → Port) : State := { s with ports := tset p (f (s.port p)) s.ports }

/-- Host connection c. -/
def State.conn (s : State) (c : Nat) : Conn := tget .reset s.conns c

/-- Changes a host connection. -/
def State.modConn (s : State) (c : Nat) (f : Conn → Conn) : State := { s with conns := tset c (f (s.conn c)) s.conns }

/-- Thermal status of die d. -/
def State.therm (s : State) (d : Nat) : Thermal := tget .reset s.thermal d

/-- Changes a die's thermal status. -/
def State.modTherm (s : State) (d : Nat) (f : Thermal → Thermal) : State :=
  { s with thermal := tset d (f (s.therm d)) s.thermal }

/-- The job with a number. -/
def State.jobOf (s : State) (j : BitVec 16) : Option Job := s.jobs.find? (fun x => x.num = j && !x.retired)

/-- Changes a job. -/
def State.modJob (s : State) (j : BitVec 16) (f : Job → Job) : State :=
  { s with jobs := lmod (fun x => x.num = j && !x.retired) f s.jobs }

/-- A job that has been admitted and has not ended (R265). -/
def State.jobLive (s : State) (j : BitVec 16) : Bool :=
  match s.jobOf j with
  | some x => x.ended = none
  | none => false

/-- Every sequencer of the package. -/
def State.allSeqs (s : State) : List Seqr := s.ctx :: s.seqs

/-- The sequencer with a handle. -/
def State.seqOf (s : State) (h : BitVec 24) : Option Seqr := s.allSeqs.find? (fun q => q.handle = h && h ≠ 0)

/-- Changes the sequencer with a handle. -/
def State.modSeq (s : State) (h : BitVec 24) (f : Seqr → Seqr) : State :=
  { s with
    ctx := if s.ctx.handle = h then f s.ctx else s.ctx
    seqs := lmod (fun q => q.handle = h) f s.seqs }

/-- Makes the sequencer with a handle the one whose context the machine holds inline. -/
def State.select (s : State) (h : BitVec 24) : State :=
  if s.ctx.handle = h then s
  else
    match s.seqs.find? (fun q => q.handle = h) with
    | none => s
    | some q => { s with ctx := q, seqs := s.ctx :: s.seqs.filter (fun x => x.handle ≠ h) }

/-- The number of the core that holds a sequencer: 0 to 191, or 192 + 2d + i for service core i of die d (R1). -/
def Seqr.coreNo (q : Seqr) : Nat :=
  if q.core.toNat < 48 then 48 * q.cdie.toNat + q.core.toNat else 192 + 2 * q.cdie.toNat + (q.core.toNat - 48)

/-- The sequencer holds a context slot (Table 1.7); a departing context keeps its slot until it is saved (R253). -/
def Seqr.isResident (q : Seqr) : Bool := q.st = .resident || q.st = .running || q.depart.isSome

/-- Word n of a job card (Table 8.1). -/
def Job.word (j : Job) (n : Nat) : W64 := j.card[n]?.getD 0

/-- A field of a 64-bit word. -/
def fieldOf (w : W64) (lo n : Nat) : Nat := w.toNat / 2 ^ lo % 2 ^ n

/-- The number of sequencers of a job (w1 NSEQ). -/
def Job.nseq (j : Job) : Nat := fieldOf (j.word 1) 0 17
/-- The priority class of a job (w1 CLASS). -/
def Job.cls (j : Job) : Nat := fieldOf (j.word 1) 17 3
/-- Lots of each sequencer (w1 LOTS). -/
def Job.lots (j : Job) : Nat := fieldOf (j.word 1) 20 6
/-- Tiles of each sequencer (w1 TILES). -/
def Job.tiles (j : Job) : Nat := fieldOf (j.word 1) 26 4
/-- The longest iteration of a job (w3 LONGITER). -/
def Job.longiter (j : Job) : Nat := fieldOf (j.word 3) 0 32
/-- The base of the save areas (w6 SAVEAREA). -/
def Job.saveArea (j : Job) : W64 := j.word 6
/-- The stride of the save areas (w7 SAVESTR). -/
def Job.saveStride (j : Job) : Nat := fieldOf (j.word 7) 0 32
/-- The crew area (w5 CREWAREA). -/
def Job.crewArea (j : Job) : W64 := j.word 5
/-- Crew records created at start (w1 NCREW). -/
def Job.ncrew (j : Job) : Nat := fieldOf (j.word 1) 32 4
/-- Further crew records (w4 MAXCREW). -/
def Job.maxcrew (j : Job) : Nat := fieldOf (j.word 4) 32 12
/-- The stride K of the crew area (R261). -/
def Job.crewStride (j : Job) : Nat := 64 + 64 * ((j.nseq + 511) / 512) + 16 * j.nseq
/-- PART names core n, 0 to 191 (w8 to w10). -/
def Job.hasCore (j : Job) (n : Nat) : Bool := (j.word (8 + n / 64)).getLsbD (n % 64)
/-- The schedule crew (w1 SCHED). -/
def Job.sched (j : Job) : Nat := fieldOf (j.word 1) 36 4
/-- The variants beyond the first (w1 NVAR). -/
def Job.nvar (j : Job) : Nat := fieldOf (j.word 1) 30 2
/-- The sub-partitions beyond the first (w18 NSUB). -/
def Job.nsub (j : Job) : Nat := fieldOf (j.word 18) 48 2
/-- The share of sub-partition p under variant v (w14 to w17). -/
def Job.share (j : Job) (v p : Nat) : Nat := fieldOf (j.word (14 + v)) (9 * p) 9

/-- The address space in which a job's masters translate (R329). -/
def State.asidOf (s : State) (j : BitVec 16) : BitVec 8 := ((s.jobOf j).map Job.asid).getD 0

/-! ### Registers of the executing context -/

/-- The register state that the group's members read: that from before the group (R65). -/
def State.src (s : State) : Seqr := s.issue.pre.getD s.ctx

/-- The physical number of a logical vector register below 56 (R19). -/
def physV (vrot : BitVec 5) (n : Nat) : Nat := if n < 24 then n else 24 + (n - 24 + vrot.toNat) % 32

/-- The physical number of a logical predicate (R19). -/
def physK (krot : BitVec 2) (n : Nat) : Nat := if n < 4 then n else 4 + (n - 4 + krot.toNat) % 4

/-- Reads g[n] with its mask; g0 reads zero with a zero mask (R15). -/
def Seqr.rg (q : Seqr) (n : BitVec 5) : TReg 32 := if n = 0 then .zero 32 else q.g[n.toNat]?.getD (.zero 32)

/-- Reads b[n] with its mask. -/
def Seqr.rb (q : Seqr) (n : BitVec 3) : TReg 64 := q.b[n.toNat]?.getD (.zero 64)

/-- Reads k[n] with its mask; k0 reads all ones with a zero mask (R15, R24). -/
def Seqr.rk (q : Seqr) (n : BitVec 3) : TReg 64 :=
  if n = 0 then { val := BitVec.allOnes 64, taint := 0 } else q.k[physK q.krot n.toNat]?.getD (.zero 64)

/-- Reads the vector register with a logical number below 56. -/
def Seqr.rv (q : Seqr) (n : Nat) : VReg := q.v[physV q.vrot n]?.getD .zero

/-- Reads g[n] as the group's members see it. -/
def State.rg (s : State) (n : BitVec 5) : TReg 32 := s.src.rg n
/-- Reads b[n] as the group's members see it. -/
def State.rb (s : State) (n : BitVec 3) : TReg 64 := s.src.rb n
/-- Reads k[n] as the group's members see it. -/
def State.rk (s : State) (n : BitVec 3) : TReg 64 := s.src.rk n

/-- Writes g[n]; g0 discards (R16). -/
def State.wg (s : State) (n : BitVec 5) (v : W32) (m : Mask) : State :=
  if n = 0 then s else { s with ctx := { s.ctx with g := s.ctx.g.setIfInBounds n.toNat { val := v, taint := m } } }

/-- Writes b[n]. -/
def State.wb (s : State) (n : BitVec 3) (v : W64) (m : Mask) : State :=
  { s with ctx := { s.ctx with b := s.ctx.b.setIfInBounds n.toNat { val := v, taint := m } } }

/-- Writes k[n], the physical register chosen by the base from before the group (R20); k0 discards (R16). -/
def State.wk (s : State) (n : BitVec 3) (v : W64) (m : Mask) : State :=
  if n = 0 then s
  else { s with ctx := { s.ctx with k := s.ctx.k.setIfInBounds (physK s.src.krot n.toNat) { val := v, taint := m } } }

/-- Writes the vector register with a logical number below 56 (R18, R20). -/
def State.wv (s : State) (n : Nat) (r : VReg) : State :=
  { s with ctx := { s.ctx with v := s.ctx.v.setIfInBounds (physV s.src.vrot n) r } }

/-- ORs a mask into cr.ctaint (R104). -/
def State.orCtaint (s : State) (m : Mask) : State := { s with ctx := { s.ctx with ctaint := s.ctx.ctaint ||| m } }

/-- ORs flags, in the bit places of Table 1.5, into cr.fstat and into the group's raised flags (R31, R394). -/
def State.flag (s : State) (f : BitVec 7) : State :=
  { s with
    ctx := { s.ctx with fstat := s.ctx.fstat ||| f.zeroExtend 32 }
    issue := { s.issue with raised := s.issue.raised ||| f } }

/-- A 32-bit counter that holds at all ones (R29). -/
def satAdd (c : W32) (n : Nat) : W32 := BitVec.ofNat 32 (Nat.min (c.toNat + n) 0xFFFFFFFF)

/-- Counts an ignored write in cr.roerr (R29). -/
def State.roerrUp (s : State) : State :=
  { s with
    ctx := { s.ctx with roerr := satAdd s.ctx.roerr 1 }
    issue := { s.issue with roerrs := s.issue.roerrs + 1 } }

/-- Staging register `i` of class number `c` (0 xc, 1 mx, 2 fd, 3 cl; Table 1.10). -/
def Seqr.stagingOf (q : Seqr) (c i : Nat) : W64 := tget 0 q.staging (64 * c + i)

/-- Adds a packet to those the package has sent. -/
def State.emit (s : State) (p : Packet) : State := { s with egress := s.egress ++ [p] }

/-- Adds an action to the agenda. -/
def State.later (s : State) (a : Action) : State := { s with agenda := s.agenda ++ [a] }

/-- Advances the counter of the free values. -/
def State.drawFree (s : State) : State := { s with freeCtr := s.freeCtr + 1 }

/-! ### Sync words -/

/-- Adds n landed bytes to the sync word at a place (R138): the loop of the rule in closed form. -/
def State.syncAdd (s : State) (a n : Nat) : State :=
  let target := s.readLE a 4
  let count := s.readLE (a + 4) 4 + n
  let gen := s.readLE (a + 8) 4
  if target = 0 then s.writeLE (a + 4) (Nat.min count 0xFFFFFFFF) 4
  else (s.writeLE (a + 4) (count % target) 4).writeLE (a + 8) ((gen + count / target) % 2 ^ 32) 4

/-! ### Writes at a migrating frame (R337) -/

/-- A place of a package lies in a frame. -/
def inFrame (pkg : BitVec 15) (frame : W64) (a : Nat) : Bool := paPkg frame = pkg && paLocal frame / 2 ^ 21 = a / 2 ^ 21

/-- A place lies in a frame of a migration. -/
def Migration.has (m : Migration) (pkg : BitVec 15) (a : Nat) : Bool := inFrame pkg m.old a || inFrame pkg m.fresh a

/-- The migration that holds writes at a place (R337): a die's migration may move a page to another die's HBM. -/
def State.migrationAt (s : State) (a : Nat) : Option Migration :=
  if isHbm a then
    (List.range 4).findSome? (fun d => match (s.tu d).migration with
      | some m => if m.has s.pkg a then some m else none
      | none => none)
  else none

/-- A migration with a write held at one of its frames. -/
def Migration.hold (m : Migration) (pkg : BitVec 15) (a : Nat) (w : HeldWrite) : Migration :=
  if inFrame pkg m.old a then (if m.heldOld.contains w then m else { m with heldOld := m.heldOld ++ [w] })
  else if inFrame pkg m.fresh a then (if m.heldNew.contains w then m else { m with heldNew := m.heldNew ++ [w] })
  else m

/-- Holds a write at the home of a migrating frame (R337). -/
def State.migrationHold (s : State) (a : Nat) (w : HeldWrite) : State :=
  { s with trans := s.trans.map (fun t => (t.1, { t.2 with migration := t.2.migration.map (fun m => m.hold s.pkg a w) })) }

/-- Counts n landed bytes in the sync word at a place, or holds the count there while its page migrates (R138, R337). -/
def State.countAt (s : State) (a n : Nat) : State :=
  if (s.migrationAt a).isSome then s.migrationHold a (.count a n) else s.syncAdd a n

/-! ### Trap records -/

/-- The trap queue of a die with a record posted at TAIL. -/
def TrapQueue.push (q : TrapQueue) (r : TrapRec) : TrapQueue :=
  { q with recs := tset (q.tail.toNat % 1024) r q.recs, tail := q.tail + 1 }

/-- The number of records pending (R339). -/
def TrapQueue.pending (q : TrapQueue) : Nat := (q.tail - q.head).toNat

/-- Posts a record to the trap queue of die d (R339): it adds 64 to the sync word at QSYNC; a full queue holds the
record or, for kinds 5, 6 and 9, drops and counts it. -/
def State.post (s : State) (d : Nat) (r : TrapRec) : State :=
  let q := (s.dieAt d).queue
  if q.pending < 1024 then
    let s := s.modDie d (fun x => { x with queue := q.push { r with pt := s.ptime } })
    if paPkg q.qsync = s.pkg then s.countAt (paLocal q.qsync) 64 else s
  else if r.kind = 5 || r.kind = 6 || r.kind = 9 then
    s.modDie d (fun x => { x with queue := { q with lost := q.lost + 1 } })
  else s.modDie d (fun x => { x with queue := { q with holding := q.holding ++ [r] } })

/-- A trap-queue record with the given fields (Table 14.6). -/
def mkRec (kind : BitVec 4) (code : BitVec 8) (master : W32) (job : BitVec 16) (addr info : W64) : TrapRec :=
  { kind := kind, code := code, master := master, job := job, addr := addr, pt := 0, info := info, parked := none }

/-- The die whose queue takes records about a die: die 0 for the Piazza and the base die (R339). -/
def queueDie (d : Nat) : Nat := if d < 4 then d else 0

/-! ### Taking a trap and returning from one -/

/-- cr.cause of a trap (Table 1.6). -/
def Trap.causeWord (t : Trap) : W32 :=
  t.code.zeroExtend 32 ||| (t.slot.zeroExtend 32 <<< 8) ||| ((if t.whole then 1 else 0) <<< 11)
    ||| (t.word.zeroExtend 32 <<< 12)

/-- Clears tag bits from every mask of a context and from cr.ctaint (R33, R232). -/
def Seqr.clearTags (q : Seqr) (m : Mask) : Seqr :=
  { q with
    g := q.g.map (fun r => { r with taint := r.taint &&& ~~~m })
    b := q.b.map (fun r => { r with taint := r.taint &&& ~~~m })
    k := q.k.map (fun r => { r with taint := r.taint &&& ~~~m })
    v := q.v.map (fun r => { r with taint := r.taint &&& ~~~m })
    ctaint := q.ctaint &&& ~~~m
    tags := Vector.ofFn (fun i => if m.getLsbD i then none else q.tags[i]) }

/-- Frees the wait of a context; a reply still to come answers none of its later requests. -/
def Seqr.noWait (q : Seqr) : Seqr := { q with wait := none, asks := [] }

/-- What a context loses when it takes a trap: the void tag that RMT_FAULT reports (R232), or the loss (R127), the matrix
error it reports (R191), the held stream it reports (R342), the failure of a walk that it reports: the walk then tries its
address again, and a closing port whose entries are written is unbound (R142, R292). -/
def Seqr.report (q : Seqr) (t : Trap) : Seqr :=
  if t.code = 0x14 then
    { q.clearTags t.tags with losses := q.losses.filter (fun l => t.loss ≠ some l) }
  else if t.slot = 7 && q.held = some (t.code, t.bad) then { q with held := none }
  else if t.code = 0x0E then { q with heldDue := q.heldDue.filter (fun a => a ≠ t.bad) }
  else if t.code = 0x08 || t.code = 0x09 || t.code = 0x15 then
    { q with ports := q.ports.map (fun f =>
        if f.walk.bind Walk.failed = some (t.code, t.bad) then
          if f.closing && f.entries.isEmpty then .zero
          else { f with walk := f.walk.map (fun w => { w with failed := none }) }
        else f) }
  else q

/-- An `ldfe` joins those that wait at a line (R137). -/
def State.joinLdfe (s : State) (f : FeRef) (pkg : BitVec 15) (h : BitVec 24) : State :=
  if s.ldfeQueue.contains (f, pkg, h) then s else { s with ldfeQueue := s.ldfeQueue ++ [(f, pkg, h)] }

/-- No `ldfe` that arrived earlier waits at the line. -/
def State.ldfeFirst (s : State) (f : FeRef) (pkg : BitVec 15) (h : BitVec 24) : Bool :=
  match s.ldfeQueue.find? (fun e => e.1 = f) with
  | none => true
  | some e => e.2 = (pkg, h)

/-- A sequencer's `ldfe` waits no more. -/
def State.leaveLdfe (s : State) (pkg : BitVec 15) (h : BitVec 24) : State :=
  { s with ldfeQueue := s.ldfeQueue.filter (fun e => e.2 ≠ (pkg, h)) }

/-- A waiting group gives up the places that its `ldfe` keeps at lines of other packages (R137, R252). -/
def State.leaveWaits (s : State) (q : Seqr) : State :=
  q.asks.foldl (fun s a =>
    match a.place with
    | some (pkg, via, exp, addr) => s.emit (.read pkg via q.cdie.toNat q.handle a.tag 7 0 exp addr 4)
    | none => s) s

/-- A group that waits has had an effect on another package: it completes before anything else happens to its context (R252). -/
def Seqr.midGroup (q : Seqr) : Bool := q.asks.any Ask.effect

/-- TAKING A TRAP (R32, R74, R218): cr.cause, cr.epc and cr.badaddr are written with cr.epc the address of the group; a
user context issues no more, departs from its slot to STATE frozen (R250) and a kind-1 record is posted to its die's queue; a
supervisor context goes on at cr.trap, whose bits are taken as they are, [1:0] among them (DESIGN CHOICE, log entry 70). -/
def State.takeTrap (s : State) (t : Trap) : State :=
  let q := s.ctx.report t
  let q := { q.noWait with cause := t.causeWord, epc := q.pc, badaddr := t.bad, resumed := false }
  let s := { (s.leaveLdfe s.pkg q.handle).leaveWaits s.ctx with issue := { s.issue with flow := .trap t } }
  if q.sup then { s with ctx := { q with pc := q.trapBase } }
  else
    State.post { s with ctx := { q with depart := some .freeze, preempt := none } } q.cdie.toNat
      (mkRec 1 t.code (q.handle.zeroExtend 32) q.job t.bad q.pc)

/-- A trap of the member that executes: its slot and word position (Table 1.6). -/
def State.trapOf (s : State) (code : BitVec 8) (bad : W64) : Trap :=
  { code := code, slot := s.issue.slot, whole := false, word := BitVec.ofNat 4 s.issue.pos, bad := bad }

/-- The member that executes takes a trap. -/
def State.raise (s : State) (code : BitVec 8) (bad : W64) : State := s.takeTrap (s.trapOf code bad)

/-- RMT_FAULT of the member that executes, for void tag i with its dropped address (R232). -/
def State.raiseVoid (s : State) (i : Nat) (bad : W64) : State :=
  s.takeTrap { s.trapOf 0x14 bad with tags := 1 <<< i }

/-- RMT_FAULT of the member that executes, for a loss (R127). -/
def State.raiseLoss (s : State) (l : Loss) : State := s.takeTrap { s.trapOf 0x14 l.addr with loss := some l }

/-- A trap that no instruction of the group raises: SLOT 7, G 0, WORD 0 (R32). -/
def State.raiseHeld (s : State) (code : BitVec 8) (bad : W64) : State :=
  s.takeTrap { code := code, slot := 7, whole := false, word := 0, bad := bad }

/-- RETURNING FROM A TRAP: the next group is the one at cr.epc, and nothing else changes (R219). The bits of cr.epc are taken as
they are, [1:0] among them (DESIGN CHOICE, log entry 70). -/
def State.trapReturn (s : State) : State := { s with issue := { s.issue with npc := some s.src.epc } }

/-- The waits that can park (R252). -/
def Wait.parkable : Wait → Bool
  | .emptyLine _ | .consume _ | .syncWord _ _ | .phaserBound _ | .phaserPhase _ | .fillPort _ | .sleepUntil _ => true
  | _ => false

/-- The member that executes waits: nothing of its group has an effect, and the wait is recorded with the cycle at which
it began (R252, R256). A held matrix error ends a wait that can park with its trap (R191). -/
def State.stall (s : State) (w : Wait) : State :=
  match s.ctx.held with
  | some (c, a) =>
    if w.parkable then s.raiseHeld c a
    else { s with issue := { s.issue with flow := .wait w } }
  | none => { s with issue := { s.issue with flow := .wait w } }

/-- Records a wait of the context: one already in progress keeps the cycle at which it began. -/
def State.recordWait (s : State) (w : Wait) : State :=
  let since := match s.ctx.wait with
    | some (w', c) => if w' = w then c else (s.dieAt s.ctx.cdie.toNat).cycle
    | none => (s.dieAt s.ctx.cdie.toNat).cycle
  { s with ctx := { s.ctx with wait := some (w, since) } }

/-- An instruction before which a held matrix error is taken (R191). -/
def State.heldFirst (s : State) (go : State → State) : State :=
  match s.ctx.held with
  | some (c, a) => s.raiseHeld c a
  | none => go s

/-- A hold on tainted operands (R117, R172, R217): a void tag among them raises RMT_FAULT with the dropped address
(R232), a live one holds. -/
def State.hold (s : State) (m : Mask) (go : State → State) : State :=
  if m = 0 then go s
  else if (List.range 16).all (fun i => !(m.getLsbD i && (s.src.tags[i]?.getD none).isSome)) then go s
  else
    match (List.range 16).findSome? (fun i =>
      if m.getLsbD i then ((s.src.tags[i]?.getD none).bind TagEntry.void).map (fun a => (i, a)) else none) with
    | some (i, a) => s.raiseVoid i a
    | none => s.stall .taint

/-- Trap codes of Table 14.4. -/
def cIllEnc : BitVec 8 := 0x01
def cIllGroup : BitVec 8 := 0x02
def cPriv : BitVec 8 := 0x03
def cFmtTag : BitVec 8 := 0x04
def cSwizzle : BitVec 8 := 0x05
def cOvf : BitVec 8 := 0x06
def cAlign : BitVec 8 := 0x07
def cXlate : BitVec 8 := 0x08
def cPerm : BitVec 8 := 0x09
def cLoopDepth : BitVec 8 := 0x0A
def cPort : BitVec 8 := 0x0B
def cPhaser : BitVec 8 := 0x0C
def cEngine : BitVec 8 := 0x0D
def cStreamHeld : BitVec 8 := 0x0E
def cDeadline : BitVec 8 := 0x10
def cTrapInsn : BitVec 8 := 0x12
def cMatrix : BitVec 8 := 0x13
def cRmtFault : BitVec 8 := 0x14
def cPoison : BitVec 8 := 0x15

end Sys2Proof.Machine
end

