-- ==== Sys2Proof/Machine/Flags.lean ====
section
/-!
DEFINITION. Number formats, rounding and flags (spec/02_number_formats.md): exact values as dyadics, the rounding modes
of R46 and R47, overflow policies and flags (R48 to R50), the FP32 operations of R132, R155 to R157, block floating point
(R51 to R55), and the accumulator cells (R58 to R62).
-/

namespace Sys2Proof.Machine

/-! ### Flags (Table 1.5) and exact values -/

def fNV : BitVec 7 := 1
def fDZ : BitVec 7 := 2
def fOF : BitVec 7 := 4
def fUF : BitVec 7 := 8
def fNX : BitVec 7 := 16
def fNI : BitVec 7 := 32
def fSAT : BitVec 7 := 64

/-- The flag f when the condition holds. -/
def flagIf (c : Bool) (f : BitVec 7) : BitVec 7 := if c then f else 0

/-- An exact value: a NaN (signalling or quiet), an infinity, or (−1)^neg × m × 2^e, where m = 0 is a signed zero. -/
inductive Num where
  | nan (signalling : Bool)
  | inf (neg : Bool)
  | fin (neg : Bool) (m : Nat) (e : Int)
  deriving DecidableEq, Repr

/-- A floating-point layout (Table 2.2). -/
structure Fmt where
  expBits : Nat
  fracBits : Nat
  bias : Nat
  /-- E4M3: no infinity, NaN only with all fraction bits set -/
  noInf : Bool
  deriving DecidableEq, Repr

def fp32 : Fmt := { expBits := 8, fracBits := 23, bias := 127, noInf := false }
def bf16 : Fmt := { expBits := 8, fracBits := 7, bias := 127, noInf := false }
def e4m3 : Fmt := { expBits := 4, fracBits := 3, bias := 7, noInf := true }
def e5m2 : Fmt := { expBits := 5, fracBits := 2, bias := 15, noInf := false }
def f48 : Fmt := { expBits := 8, fracBits := 39, bias := 127, noInf := false }

/-- The width of a layout's elements. -/
def Fmt.width (f : Fmt) : Nat := 1 + f.expBits + f.fracBits

/-- The canonical NaN (R43). -/
def Fmt.qnan (f : Fmt) : Nat :=
  if f.noInf then 2 ^ (f.expBits + f.fracBits) - 1
  else (2 ^ f.expBits - 1) * 2 ^ f.fracBits + 2 ^ (f.fracBits - 1)

/-- The largest finite value's bits, without sign. -/
def Fmt.maxBits (f : Fmt) : Nat :=
  if f.noInf then 2 ^ (f.expBits + f.fracBits) - 2 else (2 ^ f.expBits - 1) * 2 ^ f.fracBits - 1

/-- The sign bit. -/
def Fmt.signBit (f : Fmt) (neg : Bool) : Nat := if neg then 2 ^ (f.expBits + f.fracBits) else 0

/-- Infinity's bits, without sign, in a layout that has one. -/
def Fmt.infBits (f : Fmt) : Nat := (2 ^ f.expBits - 1) * 2 ^ f.fracBits

/-- The smallest exponent of a normal number. -/
def Fmt.emin (f : Fmt) : Int := 1 - (f.bias : Int)

/-- The exact value of an element (R42, R43). -/
def Fmt.value (f : Fmt) (bits : Nat) : Num :=
  let neg : Bool := bits / 2 ^ (f.expBits + f.fracBits) % 2 = 1
  let e := bits / 2 ^ f.fracBits % 2 ^ f.expBits
  let fr := bits % 2 ^ f.fracBits
  if f.noInf && e = 2 ^ f.expBits - 1 && fr = 2 ^ f.fracBits - 1 then .nan false
  else if !f.noInf && e = 2 ^ f.expBits - 1 then
    if fr = 0 then .inf neg else .nan (!f.fracBits ≤ 2 && fr < 2 ^ (f.fracBits - 1))
  else if e = 0 then .fin neg fr (f.emin - f.fracBits)
  else .fin neg (2 ^ f.fracBits + fr) (f.emin - f.fracBits + (e - 1 : Nat))

/-- The value is a signalling NaN. -/
def Num.isSnan : Num → Bool
  | .nan s => s
  | _ => false

/-- The value is a NaN. -/
def Num.isNan : Num → Bool
  | .nan _ => true
  | _ => false

/-- The value is an infinity. -/
def Num.isInf : Num → Bool
  | .inf _ => true
  | _ => false

/-- The value is a zero. -/
def Num.isZero : Num → Bool
  | .fin _ 0 _ => true
  | _ => false

/-- The sign of a value; a NaN counts as positive. -/
def Num.neg : Num → Bool
  | .nan _ => false
  | .inf n => n
  | .fin n _ _ => n

/-- The integer with the sign and magnitude given. -/
def signed (neg : Bool) (m : Nat) : Int := if neg then -(m : Int) else m

/-- The exact value of an integer times 2^e. -/
def Num.ofInt (z : Int) (e : Int) : Num := .fin (z < 0) z.natAbs e

/-! ### Rounding (R46, R47) -/

/-- One step of the generator of R47. -/
def seedStep (x : W32) : W32 :=
  let x := x ^^^ (x <<< 13)
  let x := x ^^^ (x >>> 17)
  x ^^^ (x <<< 5)

/-- The draw of R47: the high half of the new state. -/
def seedDraw (x : W32) : Nat := x.toNat / 2 ^ 16

/-- The seed after a write: zero is stored as one (R30). -/
def seedFix (x : W32) : W32 := if x = 0 then 1 else x

/-- Rounds the magnitude num / den of a value with the given sign to an integer in a mode of R46, with the draw r for
SR; the second part says the value was inexact. -/
def roundQ (neg : Bool) (num den mode r : Nat) : Nat × Bool :=
  let q := num / den
  let rem := num % den
  let up : Bool := match mode with
    | 0 => 2 * rem > den || (2 * rem = den && q % 2 = 1)
    | 1 => false
    | 2 => !neg && rem ≠ 0
    | 3 => neg && rem ≠ 0
    | _ => decide (65536 ≤ rem * 65536 / den + r)
  (q + (if up then 1 else 0), decide (rem ≠ 0))

/-- Rounds the magnitude m × 2^e to a multiple of 2^q: the multiple and whether it was inexact. -/
def roundAt (neg : Bool) (m : Nat) (e q : Int) (mode r : Nat) : Nat × Bool :=
  if q ≤ e then (m * 2 ^ (e - q).toNat, false) else roundQ neg m (2 ^ (q - e).toNat) mode r

/-- Bits below the leading one's place plus one. -/
def bitLen (m : Nat) : Nat := if m = 0 then 0 else Nat.log2 m + 1

/-- A rounded nonzero value: significand and unit exponent in the layout, inexactness, tininess after rounding (R50),
and whether it exceeds the largest finite value (R48). -/
structure Rounded where
  sig : Nat
  unit : Int
  inexact : Bool
  tiny : Bool
  ovf : Bool
  deriving DecidableEq, Repr

/-- Rounds the nonzero magnitude m × 2^e into a layout (R46, R48, R50). -/
def Fmt.round (f : Fmt) (neg : Bool) (m : Nat) (e : Int) (mode r : Nat) : Rounded :=
  let top : Int := e + (bitLen m : Int) - 1
  let u : Int := max top f.emin - f.fracBits
  let (sig, inx) := roundAt neg m e u mode r
  let (sig', _) := roundAt neg m e (top - f.fracBits) mode r
  let tiny : Bool := top < f.emin && (top + 1 < f.emin || sig' < 2 ^ (f.fracBits + 1))
  -- value sig × 2^u against the largest finite value
  let emax : Int := if f.noInf then (f.bias : Int) + 1 else f.bias
  let ovf : Bool :=
    if f.noInf then
      u > emax - f.fracBits || (u = emax - f.fracBits && sig > 2 ^ (f.fracBits + 1) - 2)
    else u > emax - f.fracBits || (u = emax - f.fracBits && sig ≥ 2 ^ (f.fracBits + 1))
  { sig := sig, unit := u, inexact := inx, tiny := tiny, ovf := ovf }

/-- The bits, without sign, of a rounded value that does not overflow. -/
def Fmt.pack (f : Fmt) (r : Rounded) : Nat := (r.unit - (f.emin - f.fracBits)).toNat * 2 ^ f.fracBits + r.sig

/-- An overflow rounds to infinity, not to the largest finite value, in this mode and sign (Table 2.3, row 01). -/
def overToInf (mode : Nat) (neg : Bool) : Bool :=
  match mode with
  | 1 => false
  | 2 => !neg
  | 3 => neg
  | _ => true

/-- A delivered element: its bits, the flags it raises, and whether policy 11 traps. -/
structure Delivered where
  bits : Nat
  flags : BitVec 7
  trap : Bool
  deriving DecidableEq, Repr

/-- An exact value delivered into a layout with infinities by an arithmetic operation (R155, R157): no policy. -/
def Fmt.arith (f : Fmt) (x : Num) (mode r : Nat) : Delivered :=
  match x with
  | .nan _ => { bits := f.qnan, flags := 0, trap := false }
  | .inf n => { bits := f.signBit n + f.infBits, flags := 0, trap := false }
  | .fin n 0 _ => { bits := f.signBit n, flags := 0, trap := false }
  | .fin n m e =>
    let q := f.round n m e mode r
    if q.ovf then
      { bits := f.signBit n + (if overToInf mode n then f.infBits else f.maxBits), flags := fOF ||| fNX, trap := false }
    else
      { bits := f.signBit n + f.pack q
        flags := flagIf q.inexact fNX ||| flagIf (q.inexact && q.tiny) fUF, trap := false }

/-- An exact value converted into a layout under an overflow policy (R48 to R50, R163). -/
def Fmt.convert (f : Fmt) (x : Num) (mode r policy : Nat) : Delivered :=
  let ovf (n : Bool) : Delivered :=
    match policy with
    | 0 => { bits := f.signBit n + f.maxBits, flags := fOF ||| fSAT ||| fNX, trap := false }
    | 1 =>
      if f.noInf then { bits := f.qnan, flags := fOF ||| fNI ||| fNX, trap := false }
      else { bits := f.signBit n + (if overToInf mode n then f.infBits else f.maxBits), flags := fOF ||| fNX,
             trap := false }
    | 2 => { bits := f.qnan, flags := fOF ||| fNX, trap := false }
    | _ => { bits := 0, flags := 0, trap := true }
  match x with
  | .nan s => { bits := f.qnan, flags := flagIf s fNV, trap := false }
  | .inf n => if f.noInf then ovf n else { bits := f.signBit n + f.infBits, flags := 0, trap := false }
  | .fin n 0 _ => { bits := f.signBit n, flags := 0, trap := false }
  | .fin n m e =>
    let q := f.round n m e mode r
    if q.ovf then ovf n
    else
      { bits := f.signBit n + f.pack q
        flags := flagIf q.inexact fNX ||| flagIf (q.inexact && q.tiny) fUF, trap := false }

/-- The bounds of an integer format of width w (R45). -/
def intMin (w : Nat) (sgn : Bool) : Int := if sgn then -(2 ^ (w - 1) : Nat) else 0
def intMax (w : Nat) (sgn : Bool) : Int := if sgn then (2 ^ (w - 1) : Nat) - 1 else (2 ^ w : Nat) - 1

/-- The w low bits of an integer. -/
def intBits (w : Nat) (z : Int) : Nat := (BitVec.ofInt w z).toNat

/-- An exact value converted to an integer format (R48, R49): `fromInt` chooses the column of Table 2.3. A nonzero value that
rounds to 0 sets NX and not UF: an integer format has no smallest normal (DESIGN CHOICE, log entry 78). -/
def toIntFmt (w : Nat) (sgn : Bool) (fromInt : Bool) (x : Num) (mode r policy : Nat) : Delivered :=
  let indef : Nat := if sgn then 2 ^ (w - 1) else 2 ^ w - 1
  let bound (n : Bool) : Nat := intBits w (if n then intMin w sgn else intMax w sgn)
  let ovf (sat other : Nat) (more : BitVec 7) : Delivered :=
    match policy with
    | 0 => { bits := sat, flags := fOF ||| fSAT ||| fNX ||| more, trap := false }
    | 3 => { bits := 0, flags := 0, trap := true }
    | _ => { bits := other, flags := fOF ||| fNX ||| more, trap := false }
  match x with
  | .nan _ => ovf 0 indef fNV
  | .inf n => ovf (bound n) indef fNV
  | .fin n m e =>
    let (a, inx) := roundAt n m e 0 mode r
    let z := signed n a
    if intMin w sgn ≤ z ∧ z ≤ intMax w sgn then
      { bits := intBits w z, flags := flagIf inx fNX, trap := false }
    else ovf (bound n) (if fromInt then intBits w z else indef) 0

/-! ### Exact operations -/

/-- The mantissa of a finite value at a smaller unit exponent. -/
def atUnit (neg : Bool) (m : Nat) (e u : Int) : Int := signed neg (m * 2 ^ (e - u).toNat)

/-- The exact sum, with the zero sign of IEEE 754 in the mode (R44); ∞ − ∞ is NaN. -/
def numAdd (mode : Nat) (a b : Num) : Num :=
  match a, b with
  | .nan s, .nan t => .nan (s || t)
  | .nan s, _ => .nan s
  | _, .nan t => .nan t
  | .inf n, .inf n' => if n = n' then .inf n else .nan true
  | .inf n, _ => .inf n
  | _, .inf n => .inf n
  | .fin n m e, .fin n' m' e' =>
    let u := min e e'
    let z := atUnit n m e u + atUnit n' m' e' u
    if z = 0 then
      if m = 0 ∧ m' = 0 ∧ n = n' then .fin n 0 0 else .fin (mode = 3) 0 0
    else Num.ofInt z u

/-- The exact product; 0 × ∞ is NaN. -/
def numMul (a b : Num) : Num :=
  match a, b with
  | .nan s, .nan t => .nan (s || t)
  | .nan s, _ => .nan s
  | _, .nan t => .nan t
  | .inf n, y => if y.isZero then .nan true else .inf (n != y.neg)
  | x, .inf n => if x.isZero then .nan true else .inf (n != x.neg)
  | .fin n m e, .fin n' m' e' => .fin (n != n') (m * m') (e + e')

/-- The negated value; a NaN stays. -/
def numNeg : Num → Num
  | .nan s => .nan s
  | .inf n => .inf (!n)
  | .fin n m e => .fin (!n) m e

/-- The value times 2^k. -/
def numScale (x : Num) (k : Int) : Num :=
  match x with
  | .fin n m e => .fin n m (e + k)
  | y => y

/-- Compares two values that are not NaN: a < b, with −0 = +0. -/
def numLt (a b : Num) : Bool :=
  match a, b with
  | .nan _, _ => false
  | _, .nan _ => false
  | .inf n, .inf n' => n && !n'
  | .inf n, _ => n
  | _, .inf n => !n
  | .fin n m e, .fin n' m' e' =>
    let u := min e e'
    atUnit n m e u < atUnit n' m' e' u

/-- Equality of two values that are not NaN, with −0 = +0. -/
def numEq (a b : Num) : Bool := !a.isNan && !b.isNan && !numLt a b && !numLt b a

/-- The FP32 value of a word. -/
def val32 (x : W32) : Num := fp32.value x.toNat

/-- The flags of an operation for its NaN operands and an invalid result: NV for a signalling operand and for a NaN
that no operand brought (R43, R50). -/
def nvOf (ops : List Num) (res : Num) : BitVec 7 :=
  flagIf (ops.any Num.isSnan || (res.isNan && !ops.any Num.isNan)) fNV

/-- An FP32 result word with its flags. -/
def deliver32 (ops : List Num) (x : Num) (mode r : Nat) : W32 × BitVec 7 :=
  let d := fp32.arith x mode r
  (BitVec.ofNat 32 d.bits, d.flags ||| nvOf ops x)

/-- RoundFP32(a + b) (R155). -/
def fpAdd (mode r : Nat) (a b : W32) : W32 × BitVec 7 :=
  deliver32 [val32 a, val32 b] (numAdd mode (val32 a) (val32 b)) mode r

/-- RoundFP32(a − b) (R155). -/
def fpSub (mode r : Nat) (a b : W32) : W32 × BitVec 7 :=
  deliver32 [val32 a, val32 b] (numAdd mode (val32 a) (numNeg (val32 b))) mode r

/-- RoundFP32(a × b) (R155). -/
def fpMul (mode r : Nat) (a b : W32) : W32 × BitVec 7 :=
  deliver32 [val32 a, val32 b] (numMul (val32 a) (val32 b)) mode r

/-- RoundFP32(c ± a × b) with one rounding; 0 × ∞ sets NV even when c is NaN (R155). -/
def fpFma (negate : Bool) (mode r : Nat) (a b c : W32) : W32 × BitVec 7 :=
  let x := val32 a
  let y := val32 b
  let p := numMul x y
  let (w, fl) := deliver32 [x, y, val32 c] (numAdd mode (if negate then numNeg p else p) (val32 c)) mode r
  (w, fl ||| flagIf (p.isNan && !x.isNan && !y.isNan) fNV)

/-- The canonical FP32 NaN. -/
def qnan32 : W32 := 0x7FC00000

/-- FMax of R132: −0 below +0, NaN if either is. -/
def fMax (a b : W32) : W32 :=
  if (val32 a).isNan || (val32 b).isNan then qnan32
  else if numLt (val32 a) (val32 b) then b
  else if numLt (val32 b) (val32 a) then a
  else if a.msb then b else a

/-- FMin of R132. -/
def fMin (a b : W32) : W32 :=
  if (val32 a).isNan || (val32 b).isNan then qnan32
  else if numLt (val32 a) (val32 b) then a
  else if numLt (val32 b) (val32 a) then b
  else if a.msb then a else b

/-- NV for a signalling NaN among the operands. -/
def snanFlag (ops : List W32) : BitVec 7 := flagIf (ops.any (fun x => (val32 x).isSnan)) fNV

/-! ### The approximation instructions (R157) -/

/-- The largest r below 2^k more than the start with r² ≤ n, bit by bit. -/
def isqrtFrom (n : Nat) : Nat → Nat → Nat
  | 0, r => r
  | k + 1, r => if (r + 2 ^ k) * (r + 2 ^ k) ≤ n then isqrtFrom n k (r + 2 ^ k) else isqrtFrom n k r

/-- The integer square root. -/
def isqrt (n : Nat) : Nat := isqrtFrom n (bitLen n / 2 + 1) 0

/-- A truncated quotient or root with a sticky bit below it: it rounds as the exact value does. -/
def sticky (q : Nat) (inexact : Bool) : Nat := 2 * q + (if inexact then 1 else 0)

/-- The exact 1/a of a finite nonzero a, with a sticky bit. -/
def numRcp (n : Bool) (m : Nat) (e : Int) : Num :=
  let k := bitLen m + 32
  .fin n (sticky (2 ^ k / m) (2 ^ k % m ≠ 0)) (-(k : Int) - 1 - e)

/-- The exact 1/√a of a finite positive a, with a sticky bit. -/
def numRsq (m : Nat) (e : Int) : Num :=
  let (m, e) := if e % 2 = 0 then (m, e) else (2 * m, e - 1)
  let k := bitLen m + 32
  let q := isqrt (2 ^ (2 * k) / m)
  .fin false (sticky q (q * q * m ≠ 2 ^ (2 * k))) (-(k : Int) - 1 - e / 2)

/-- The fraction bits of the fixed-point numbers used for 2^a (log entry 24). -/
def expPrec : Nat := 160

/-- 2^f for the fraction f = x / 2^n of n bits, in fixed point: the product of 2^(2^−i) over the set bits of f. -/
def exp2Frac : Nat → Nat → Nat → Nat → Nat
  | 0, _, _, acc => acc
  | n + 1, x, root, acc =>
    let root' := isqrt (root * 2 ^ expPrec)
    exp2Frac n (x % 2 ^ n) root' (if x / 2 ^ n = 1 then acc * root' / 2 ^ expPrec else acc)

/-- 2^a of a finite a: exact for an integer, otherwise to 150 bits with a sticky bit (log entry 24). -/
def numExp2 (n : Bool) (m : Nat) (e : Int) : Num :=
  if m = 0 then .fin false 1 0
  else if e + bitLen m > 9 then (if n then .fin false 1 (-1000) else .fin false 1 1000)
  else if e + bitLen m < -30 then .fin false (if n then 2 ^ 40 - 1 else 2 ^ 40 + 1) (-40)
  else if e ≥ 0 then .fin false 1 (signed n (m * 2 ^ e.toNat))
  else
    let bits := (-e).toNat
    let z := signed n m
    let whole := z / (2 ^ bits : Nat)
    let frac := (z % (2 ^ bits : Nat)).toNat
    if frac = 0 then .fin false 1 whole
    else .fin false (sticky (exp2Frac bits frac (2 * 2 ^ expPrec) (2 ^ expPrec)) true) (whole - expPrec - 1)

/-- n fraction bits of log2 of x / 2^p in [1, 2), by repeated squaring. -/
def log2Frac (p : Nat) : Nat → Nat → Nat → Nat
  | 0, _, acc => acc
  | n + 1, x, acc =>
    let y := x * x / 2 ^ p
    if y ≥ 2 ^ (p + 1) then log2Frac p n (y / 2) (2 * acc + 1) else log2Frac p n y (2 * acc)

/-- log2 of a finite positive a: exact for a power of two, otherwise to 128 fraction bits with a sticky bit
(log entry 24). -/
def numLog2 (m : Nat) (e : Int) : Num :=
  let l := bitLen m - 1
  let whole : Int := e + l
  if m = 2 ^ l then Num.ofInt whole 0
  else
    let f := log2Frac 300 128 (m * 2 ^ (300 - l)) 0
    Num.ofInt (2 * (whole * (2 ^ 128 : Nat) + f) + 1) (-129)

/-- `vrcp` of a lane (Table 6.3). -/
def fpRcp (a : W32) : W32 × BitVec 7 :=
  match val32 a with
  | .nan s => (qnan32, flagIf s fNV)
  | .inf n => (BitVec.ofNat 32 (fp32.signBit n), 0)
  | .fin n 0 _ => (BitVec.ofNat 32 (fp32.signBit n + fp32.infBits), fDZ)
  | .fin n m e => deliver32 [] (numRcp n m e) 0 0

/-- `vrsq` of a lane (Table 6.3). -/
def fpRsq (a : W32) : W32 × BitVec 7 :=
  match val32 a with
  | .nan s => (qnan32, flagIf s fNV)
  | .inf n => if n then (qnan32, fNV) else (0, 0)
  | .fin n 0 _ => (BitVec.ofNat 32 (fp32.signBit n + fp32.infBits), fDZ)
  | .fin n m e => if n then (qnan32, fNV) else deliver32 [] (numRsq m e) 0 0

/-- `vexp2` of a lane (Table 6.3). -/
def fpExp2 (a : W32) : W32 × BitVec 7 :=
  match val32 a with
  | .nan s => (qnan32, flagIf s fNV)
  | .inf n => (if n then 0 else BitVec.ofNat 32 fp32.infBits, 0)
  | .fin n m e => deliver32 [] (numExp2 n m e) 0 0

/-- `vlog2` of a lane (Table 6.3). -/
def fpLog2 (a : W32) : W32 × BitVec 7 :=
  match val32 a with
  | .nan s => (qnan32, flagIf s fNV)
  | .inf n => if n then (qnan32, fNV) else (BitVec.ofNat 32 fp32.infBits, 0)
  | .fin _ 0 _ => (BitVec.ofNat 32 (fp32.signBit true + fp32.infBits), fDZ)
  | .fin n m e => if n then (qnan32, fNV) else deliver32 [] (numLog2 m e) 0 0

/-! ### Compares (R158) -/

/-- The FP32 condition of `vcmp` with its NV flag (Table 6.4). -/
def fpCmp (c : Nat) (a b : W32) : Bool × BitVec 7 :=
  let x := val32 a
  let y := val32 b
  let un := x.isNan || y.isNan
  let quiet := flagIf (x.isSnan || y.isSnan) fNV
  match c with
  | 0 => (numEq x y, quiet)
  | 1 => (!numEq x y, quiet)
  | 2 => (!un && numLt x y, flagIf un fNV)
  | 3 => (!un && !numLt y x, flagIf un fNV)
  | 4 => (!un && numLt y x, flagIf un fNV)
  | 5 => (!un && !numLt x y, flagIf un fNV)
  | _ => (un, quiet)

/-- The integer condition of `vcmp` (Table 6.4). -/
def intCmp (c : Nat) (sgn : Bool) (a b : W32) : Bool :=
  let lt (x y : W32) : Bool := if sgn then x.slt y else x.ult y
  match c with
  | 0 => a = b
  | 1 => a ≠ b
  | 2 => lt a b
  | 3 => !lt b a
  | 4 => lt b a
  | 5 => !lt a b
  | _ => false

/-! ### Accumulate-on-write (Table 5.2) -/

/-- A 16-bit half of a word. -/
def half (x : W32) (i : Nat) : Nat := x.toNat / 2 ^ (16 * i) % 2 ^ 16

/-- One half of add.bf16. -/
def addBf16 (a b : Nat) : Nat := (bf16.arith (numAdd 0 (bf16.value a) (bf16.value b)) 0 0).bits

/-- The new memory word of Table 5.2 for the old word and the data; operation 12 of `xrmw`, which compares, is not here,
and swap is 11 of Table R185, not of this table. -/
def accumOp (op : Nat) (old d : W32) : W32 :=
  match op with
  | 0 => old + d
  | 1 => (fpAdd 0 0 old d).1
  | 2 => fMax old d
  | 3 => fMin old d
  | 4 => if old.slt d then d else old
  | 5 => if d.slt old then d else old
  | 6 => if old.ult d then d else old
  | 7 => if d.ult old then d else old
  | 8 => old &&& d
  | 9 => old ||| d
  | 10 => old ^^^ d
  | _ => BitVec.ofNat 32 (addBf16 (half old 0) (half d 0) + addBf16 (half old 1) (half d 1) * 2 ^ 16)

/-- The new word of `xrmw` operation op (R185): 0 to 10 as Table 5.2, 11 swap, 12 compare and swap. -/
def rmwOp (op : Nat) (old d c : W32) : W32 :=
  if op ≤ 10 then accumOp op old d else if op = 11 then d else if old = c then d else old

/-! ### Tags (Table 2.1) -/

/-- The floating-point layout of a tag, where it has one. -/
def tagFmt (t : Nat) : Option Fmt :=
  match t with
  | 1 => some fp32
  | 2 => some bf16
  | 3 => some e4m3
  | 4 => some e5m2
  | _ => none

/-- The element width of a tag 1 to 7 or 9. -/
def tagWidth (t : Nat) : Nat :=
  match t with
  | 2 | 6 => 16
  | 3 | 4 | 7 => 8
  | _ => 32

/-- The tag's integers are signed. -/
def tagSigned (t : Nat) : Bool := t ≠ 9

/-- The exact value of an element of a tag 1 to 7 or 9. -/
def tagValue (t bits : Nat) : Num :=
  match tagFmt t with
  | some f => f.value bits
  | none =>
    if tagSigned t then Num.ofInt (BitVec.ofNat (tagWidth t) bits).toInt 0 else .fin false bits 0

/-- One element converted from tag s to tag t (R163). -/
def convElem (s t : Nat) (bits mode r policy : Nat) : Delivered :=
  let x := tagValue s bits
  match tagFmt t with
  | some f =>
    if s = t then
      match x with
      | .nan sn => { bits := f.qnan, flags := flagIf sn fNV, trap := false }
      | _ => { bits := bits, flags := 0, trap := false }
    else f.convert x mode r policy
  | none => toIntFmt (tagWidth t) (tagSigned t) ((tagFmt s).isNone) x mode r policy

/-! ### Block floating point (R51 to R55) -/

/-- A quantised block: mantissas, scale word, flags, trap, and the generator after its draws. -/
structure Quantised where
  mants : List Nat
  scale : W32
  flags : BitVec 7
  trap : Bool
  seed : W32
  deriving DecidableEq, Repr

/-- a × 2^x ≥ b × 2^y. -/
def geScaled (a : Nat) (x : Int) (b : Nat) (y : Int) : Bool :=
  let u := min x y
  decide (b * 2 ^ (y - u).toNat ≤ a * 2 ^ (x - u).toNat)

/-- The smallest scale, as exponent e and fraction f, at least maxabs × 2^(m−1) / P for maxabs = mm × 2^ee (R55); none
if it exceeds the largest. -/
def bfpScale (m : Nat) (mm : Nat) (ee : Int) : Option (Nat × Nat) :=
  let p := 2 ^ (m - 1) - 1
  match (List.range 254).find? (fun (i : Nat) => geScaled (31 * p) ((i : Int) + 1 - 131) mm (ee + m - 1)) with
  | none => none
  | some i =>
    let x : Int := ((i : Nat) : Int) + 1 - 131
    -- least f with (16 + f) × 2^x × P ≥ mm × 2^(ee + m − 1)
    match (List.range 16).find? (fun f => geScaled ((16 + f) * p) x mm (ee + m - 1)) with
    | some f => some ((i + 1 : Nat), f)
    | none => none

/-- The mantissa of one element under scale (e, f): rounded, and whether inexact. -/
def bfpMant (m e f : Nat) (x : Num) (mode r : Nat) : Int × Bool :=
  match x with
  | .fin n mm ee =>
    let k : Int := ee + m - 1 - ((e : Int) - 131)
    let (q, inx) :=
      if k ≥ 0 then roundQ n (mm * 2 ^ k.toNat) (16 + f) mode r
      else roundQ n mm ((16 + f) * 2 ^ (-k).toNat) mode r
    (signed n q, inx)
  | _ => (0, false)

/-- Quantises the elements in order, drawing once for each under SR. -/
def bfpMants (m e f mode : Nat) (clamp : Bool) : List Num → W32 → List Nat × Bool × W32
  | [], seed => ([], false, seed)
  | x :: xs, seed =>
    let seed' := if mode = 4 then seedStep seed else seed
    let (q, inx) := bfpMant m e f x mode (seedDraw seed')
    let p : Int := (2 ^ (m - 1) - 1 : Nat)
    let q := if clamp then max (-p) (min p q) else q
    let (qs, i2, out) := bfpMants m e f mode clamp xs seed'
    (intBits m q :: qs, inx || i2, out)

/-- Steps the generator n times. -/
def seedSteps : Nat → W32 → W32
  | 0, x => x
  | n + 1, x => seedSteps n (seedStep x)

/-- The scale word of Table 2.5. -/
def scaleWord (e f m n : Nat) : W32 := BitVec.ofNat 32 (e * 16 + f + (m - 2) * 2 ^ 12 + (n - 1) * 2 ^ 15)

/-- The larger of two magnitudes, as mantissa and exponent. -/
def magMax (a b : Nat × Int) : Nat × Int := if geScaled a.1 a.2 b.1 b.2 then a else b

/-- Quantises a block of 1 to 32 exact values (R55, Table 2.6). Under SR every valid element draws, whatever the case
(R47). -/
def quantise (m : Nat) (xs : List Num) (mode policy : Nat) (seed : W32) : Quantised :=
  let n := xs.length
  let zeros := List.replicate 32 0
  let drawn := if mode = 4 then seedSteps n seed else seed
  if xs.any (fun x => x.isNan || x.isInf) then
    { mants := zeros, scale := scaleWord 255 0 m n, flags := fNV, trap := false, seed := drawn }
  else
    let mx := xs.foldl (fun acc x => match x with
      | .fin _ mm ee => magMax acc (mm, ee)
      | _ => acc) (0, 0)
    if mx.1 = 0 then { mants := zeros, scale := scaleWord 0 0 m n, flags := 0, trap := false, seed := drawn }
    else
      match bfpScale m mx.1 mx.2 with
      | some (e, f) =>
        let (qs, inx, out) := bfpMants m e f mode false xs seed
        { mants := qs ++ List.replicate (32 - n) 0, scale := scaleWord e f m n, flags := flagIf inx fNX, trap := false,
          seed := out }
      | none =>
        match policy with
        | 0 =>
          let (qs, _, out) := bfpMants m 254 15 mode true xs seed
          { mants := qs ++ List.replicate (32 - n) 0, scale := scaleWord 254 15 m n, flags := fSAT ||| fOF ||| fNX,
            trap := false, seed := out }
        | 3 => { mants := zeros, scale := 0, flags := 0, trap := true, seed := seed }
        | _ => { mants := zeros, scale := scaleWord 255 0 m n, flags := fOF, trap := false, seed := drawn }

/-- A field of a scale word. -/
def scE (w : W32) : Nat := w.toNat / 16 % 256
def scF (w : W32) : Nat := w.toNat % 16
def scMM2 (w : W32) : Nat := w.toNat / 2 ^ 12 % 8
def scVcm1 (w : W32) : Nat := w.toNat / 2 ^ 15 % 32
def scReserved (w : W32) : Nat := w.toNat / 2 ^ 20

/-- The exact value of element j of a block with mantissa bits q (R51, R52, R54). -/
def bfpValue (m : Nat) (sc : W32) (j q : Nat) : Num :=
  if j > scVcm1 sc then .fin false 0 0
  else if scReserved sc ≠ 0 then .nan true
  else if scE sc = 0 then .fin false 0 0
  else if scE sc = 255 then .nan false
  else
    let z := (BitVec.ofNat m q).toInt
    if z = 0 then .fin false 0 0
    else Num.ofInt (z * (16 + scF sc : Nat)) ((scE sc : Int) - 131 - (m - 1 : Nat))

/-! ### Accumulator cells (R58 to R62) -/

/-- What an update of a cell sets: the tile's O, X and V and the flag NV. -/
structure CellOut where
  cell : BitVec 48
  o : Bool
  x : Bool
  v : Bool
  nv : Bool
  deriving DecidableEq, Repr

/-- The largest magnitude of an A48 cell. -/
def a48Max : Nat := 2 ^ 47 - 1

/-- The invalid marker (R58). -/
def a48Invalid : BitVec 48 := 0x800000000000

/-- Adds one contribution to an A48 cell (R59). -/
def a48Add (anchor : Int) (c : BitVec 48) (p : Num) : CellOut :=
  let keep : CellOut := { cell := c, o := false, x := false, v := false, nv := false }
  match p with
  | .nan _ => if c = a48Invalid then keep else { keep with cell := a48Invalid, o := true, nv := true }
  | .inf n => if c = a48Invalid then keep else { keep with cell := BitVec.ofInt 48 (signed n a48Max), o := true }
  | .fin n m e =>
    let (a, inx) := roundAt n m e anchor 0 0
    if c = a48Invalid then { keep with x := inx }
    else
      let z := c.toInt + signed n a
      if z.natAbs > a48Max then { keep with cell := BitVec.ofInt 48 (signed (z < 0) a48Max), o := true, x := inx }
      else { keep with cell := BitVec.ofInt 48 z, x := inx }

/-- The exact value of a cell (R62): an A48 invalid marker counts as a NaN. -/
def cellValue (f48kind : Bool) (anchor : Int) (c : BitVec 48) : Num :=
  if f48kind then f48.value c.toNat
  else if c = a48Invalid then .nan true else Num.ofInt c.toInt anchor

/-- Adds one contribution to an F48 cell (R61): the contribution is rounded to F48 once, then the sum. -/
def f48Add (c : BitVec 48) (p : Num) : CellOut :=
  let d := f48.arith p 0 0
  let s := numAdd 0 (f48.value c.toNat) (f48.value d.bits)
  let r := f48.arith s 0 0
  let inx : Bool := (d.flags &&& fNX) ≠ 0
  { cell := BitVec.ofNat 48 r.bits, o := false, x := inx, v := s.isNan, nv := s.isNan }

/-- Re-anchors an A48 cell (R192): the new cell, O and X. -/
def a48Anchor (old new : Int) (c : BitVec 48) : CellOut :=
  let keep : CellOut := { cell := c, o := false, x := false, v := false, nv := false }
  if c = a48Invalid then keep
  else
    let (a, inx) := roundAt (c.toInt < 0) c.toInt.natAbs old new 0 0
    if a > a48Max then { keep with cell := BitVec.ofInt 48 (signed (c.toInt < 0) a48Max), o := true, x := inx }
    else { keep with cell := BitVec.ofInt 48 (signed (c.toInt < 0) a), x := inx }

end Sys2Proof.Machine
end

