-- ==== Sys2Proof/Machine/Operands.lean ====
section
/-!
DEFINITION. Operand forms: feed-port pops and pushes (R22, R23, R141, R149), vector sources and destinations with their
tags, predicates and masks (R148 to R153), walks of the affine copy unit (R290, R291), and effective addresses (R76).
-/

namespace Sys2Proof.Machine

/-! ### Walks (Table 12.2, R291) -/

/-- A field of a descriptor word. -/
def Walk.field (w : Walk) (i lo n : Nat) : Nat := fieldOf (w.desc[i]?.getD 0) lo n
/-- Swizzle label of the element-group header. -/
def Walk.swz (w : Walk) : Nat := w.field 0 0 8
/-- Element format of the header. -/
def Walk.fmt (w : Walk) : Nat := w.field 0 8 4
/-- m − 2 of the header. -/
def Walk.mm (w : Walk) : Nat := w.field 0 12 3
/-- Bytes per run. -/
def Walk.l0 (w : Walk) : Nat := w.field 2 0 16
def Walk.c1 (w : Walk) : Nat := w.field 2 16 16
def Walk.c2 (w : Walk) : Nat := w.field 2 32 16
def Walk.c3 (w : Walk) : Nat := w.field 2 48 16
/-- The sync word counted by a writing walk. -/
def Walk.sync (w : Walk) : W64 := w.desc[5]?.getD 0

/-- The length of a walk in bytes. -/
def Walk.length (w : Walk) : Nat := w.l0 * w.c1 * w.c2 * w.c3

/-- The place of the walk in its stream of bytes. -/
def Walk.place (w : Walk) : Nat := ((w.i3 * w.c2 + w.i2) * w.c1 + w.i1) * w.l0 + w.off

/-- The address of byte p of the walk's stream (R291). -/
def Walk.addr (w : Walk) (p : Nat) : W64 :=
  let r := p / w.l0
  let i1 := r % w.c1
  let i2 := r / w.c1 % w.c2
  let i3 := r / w.c1 / w.c2
  let s1 := (BitVec.ofNat 32 (w.field 3 0 32)).toInt
  let s2 := (BitVec.ofNat 32 (w.field 3 32 32)).toInt
  let s3 := (BitVec.ofNat 32 (w.field 4 0 32)).toInt
  (w.desc[1]?.getD 0) + BitVec.ofInt 64 (i3 * s3 + i2 * s2 + i1 * s1 + (p % w.l0 : Nat))

/-- The walk n bytes further on. -/
def Walk.advance (w : Walk) (n : Nat) : Walk :=
  let p := w.place + n
  let r := p / w.l0
  { w with off := p % w.l0, i1 := r % w.c1, i2 := r / w.c1 % w.c2, i3 := r / w.c1 / w.c2, bytes := w.bytes + n }

/-- Fewer than n bytes are left: the walk is exhausted at such an entry (R291). -/
def Walk.exhausted (w : Walk) (n : Nat) : Bool := w.length < w.place + n

/-- A signed 32-bit field is a multiple of 4; so is its bit pattern. -/
def multipleOf4 (x : Nat) : Bool := x % 4 = 0

/-- The checks of R292 on a captured descriptor. -/
def descOk (d : Vector W64 8) : Bool :=
  let w : Walk := { desc := d, i1 := 0, i2 := 0, i3 := 0, off := 0, bytes := 0, failed := none }
  (w.field 0 15 49 = 0) && (w.field 4 32 32 = 0) && (w.field 6 0 64 = 0) && (w.field 7 0 64 = 0)
    && decide (4 ≤ w.l0) && multipleOf4 w.l0 && decide (1 ≤ w.c1) && decide (1 ≤ w.c2) && decide (1 ≤ w.c3)
    && multipleOf4 (w.field 1 0 64) && multipleOf4 (w.field 3 0 32) && multipleOf4 (w.field 3 32 32)
    && multipleOf4 (w.field 4 0 32) && (w.sync.toNat % 16 = 0) && decide (w.fmt ≤ 9)
    && (w.mm = 0 || w.fmt = 8) && decide (w.mm ≠ 7)

/-- A walk at its beginning. -/
def Walk.start (d : Vector W64 8) : Walk := { desc := d, i1 := 0, i2 := 0, i3 := 0, off := 0, bytes := 0, failed := none }

/-- Descriptor D of a context: its staging registers fd.8D to fd.8D + 7 (R290). -/
def Seqr.feedDesc (q : Seqr) (d : Nat) : Vector W64 8 := Vector.ofFn (fun i => q.stagingOf 2 (8 * d + i.val))

/-! ### Feed ports -/

/-- A source operand as read: a register, or a trap, or a wait. -/
inductive VRead where
  | ok (r : VReg)
  | trap (code : BitVec 8) (bad : W64)
  | wait (p : Nat)
  deriving DecidableEq, Repr

/-- The port with a number. -/
def Seqr.port (q : Seqr) (p : Nat) : FeedPort := q.ports[p]?.getD .zero

/-- Changes a port of the executing context. -/
def State.modFeed (s : State) (p : Nat) (f : FeedPort → FeedPort) : State :=
  { s with ctx := { s.ctx with ports := s.ctx.ports.setIfInBounds p (f (s.ctx.port p)) } }

/-- The head entry of a port (R23, R141, R292): a port not bound for fill, or whose walk is exhausted, raises PORT; a
failed address raises its cause at the pop that would receive the entry; an empty port waits. -/
def readPort (q : Seqr) (p : Nat) : VRead :=
  let f := q.port p
  if f.bind ≠ 1 then .trap cPort 0
  else
    match f.entries with
    | e :: _ => .ok { val := e, tag := f.tag, aux := f.aux, taint := 0 }
    | [] =>
      match f.walk with
      | none => .trap cPort 0
      | some w =>
        match w.failed with
        | some (c, a) => .trap c a
        | none => if w.exhausted 256 then .trap cPort 0 else .wait p

/-- A vector code as a source (R148). -/
def readCode (q : Seqr) (c : BitVec 6) : VRead :=
  if c.toNat < 56 then .ok (q.rv c.toNat) else readPort q (c.toNat - 56)

/-- Reads every source, or the first problem among them. -/
def readCodes (q : Seqr) : List (BitVec 6) → Except VRead (List VReg)
  | [] => .ok []
  | c :: cs =>
    match readCode q c, readCodes q cs with
    | .ok r, .ok rs => .ok (r :: rs)
    | .ok _, .error e => .error e
    | e, _ => .error e

/-- Pops one entry of every distinct port among the codes (R23). -/
def State.popCodes (s : State) (cs : List (BitVec 6)) : State :=
  (cs.eraseDups.filter (fun c => 56 ≤ c.toNat)).foldl
    (fun s c => s.modFeed (c.toNat - 56) (fun f => { f with entries := f.entries.drop 1 })) s

/-- Runs `go` on the values of the sources with the ports popped; a problem traps or waits instead. -/
def State.withCodes (s : State) (cs : List (BitVec 6)) (go : List VReg → State → State) : State :=
  match readCodes s.src cs with
  | .ok rs => go rs (s.popCodes cs)
  | .error (.trap c a) => s.raise c a
  | .error (.wait p) => s.stall (.fillPort p)
  | .error (.ok _) => s

/-- Pushes an entry to a port (R23, R141, R149, R292); a port that the same group unbinds takes it first (R142). -/
def State.pushPort (s : State) (p : Nat) (r : VReg) : State :=
  let f := s.src.port p
  if f.bind ≠ 2 || f.closing then s.raise cPort 0
  else if !(r.tag = 0 || (r.tag = f.tag && r.aux = f.aux)) then s.raise cFmtTag 0
  else
    s.hold r.taint (fun s =>
      match f.walk with
      | none => s.raise cPort 0
      | some w =>
        match w.failed with
        | some (c, a) => s.raise c a
        | none =>
          if w.length < w.place + 256 * (f.entries.length + 1) then s.raise cPort 0
          else if 4 ≤ f.entries.length then s.stall (.drainPort p)
          else s.modFeed p (fun now =>
            if now.bind = 2 then { now with entries := now.entries ++ [r.val] }
            else { f with entries := f.entries ++ [r.val], closing := true }))

/-- Writes a result to a vector code: a register, or a push to a port, which an instruction that reads its destination
may not name (R149). -/
def State.writeCode (s : State) (c : BitVec 6) (r : VReg) : State :=
  if c.toNat < 56 then s.wv c.toNat r else s.pushPort (c.toNat - 56) r

/-! ### Vector forms -/

/-- What a vector computation gives: the lanes, the flags, the generator after its draws, and whether policy 11 traps. -/
structure VOut where
  val : Vec
  flags : BitVec 7
  seed : W32
  trap : Bool
  deriving DecidableEq, Repr

/-- A result without flags or draws. -/
def VOut.pure (v : Vec) (seed : W32) : VOut := { val := v, flags := 0, seed := seed, trap := false }

/-- Lane l is active under a predicate (R150). -/
def active (k : W64) (l : Nat) : Bool := k.getLsbD l

/-- The lanes of `new` where the predicate is set, those of `old` elsewhere (R150). -/
def mergeLanes (k : W64) (new old : Vec) : Vec := ofLanes (fun l => if active k l then lane new l else lane old l)

/-- Computes lanes in order, threading flags and the generator; `f` gives lane l under the generator's state. -/
def laneLoop (f : Nat → W32 → W32 × BitVec 7 × W32) : List Nat → W32 → List W32 × BitVec 7 × W32
  | [], seed => ([], 0, seed)
  | l :: ls, seed =>
    let (v, fl, seed') := f l seed
    let (vs, fls, out) := laneLoop f ls seed'
    (v :: vs, fl ||| fls, out)

/-- A computation lane by lane over the active lanes. -/
def lanewise (k : W64) (seed : W32) (f : Nat → W32 → W32 × BitVec 7 × W32) : VOut :=
  let (vs, fl, out) := laneLoop (fun l sd => if active k l then f l sd else (0, 0, sd)) (List.range 64) seed
  { val := ofLanes (fun l => vs[l]?.getD 0), flags := fl, seed := out, trap := false }

/-- A lane computation that draws once for each active lane when the mode is SR (R153). -/
def roundLanes (k : W64) (seed : W32) (mode : Nat) (f : Nat → Nat → W32 × BitVec 7) : VOut :=
  lanewise k seed (fun l sd =>
    let sd' := if mode = 4 then seedStep sd else sd
    let (v, fl) := f l (seedDraw sd')
    (v, fl, sd'))

/-- A lane computation with flags and no draw. -/
def flagLanes (k : W64) (seed : W32) (f : Nat → W32 × BitVec 7) : VOut :=
  lanewise k seed (fun l sd => ((f l).1, (f l).2, sd))

/-- The generator the next drawing instruction of the group sees: the state reached within the group, which starts from
the old cr.seed (R30). Since cr.seed is written to the context as the group runs, this is the context's. -/
def State.seedNow (s : State) : W32 := s.ctx.seed

/-- Ends a vector computation: trap OVF_TRAP, or flags, generator and the result. OVF_TRAP is raised before PORT or FMT_TAG of a
destination port (DESIGN CHOICE, log entry 74). -/
def State.finish (s : State) (o : VOut) (go : State → State) : State :=
  if o.trap then s.raise cOvf 0 else go ({ s with ctx := { s.ctx with seed := o.seed } }.flag o.flags)

/-- A merging vector form (R150 to R152): sources, whether the computation itself reads vd, the tag check, the result's tag
and auxiliary, and the computation on the sources, the old vd, the active lanes, and the generator. FMT_TAG of a source is
raised before PORT of a destination port in the wrong binding (DESIGN CHOICE, log entry 74). -/
def State.vform (s : State) (d : BitVec 6) (k : BitVec 3) (srcs : List (BitVec 6)) (readsD : Bool)
    (check : List VReg → VReg → Bool) (resTag : List VReg → BitVec 4 × BitVec 3)
    (compute : List VReg → Vec → W64 → W32 → VOut) : State :=
  let reads := readsD || k ≠ 0
  if reads && 56 ≤ d.toNat then s.raise cPort 0
  else
    s.withCodes srcs (fun rs s =>
      let old := if d.toNat < 56 then s.src.rv d.toNat else .zero
      let (t, x) := resTag rs
      if !check rs old then s.raise cFmtTag 0
      else if k ≠ 0 && !(old.tag = t && old.aux = x) then s.raise cFmtTag 0
      else
        let p := s.rk k
        let m := (rs.foldl (fun m r => m ||| r.taint) p.taint) ||| (if reads then old.taint else 0)
        let o := compute rs old.val p.val s.seedNow
        s.finish o (fun s =>
          s.writeCode d { val := if k = 0 then o.val else mergeLanes p.val o.val old.val, tag := t, aux := x, taint := m }))

/-- Source i of a list of sources. -/
def srcAt (rs : List VReg) (i : Nat) : VReg := rs[i]?.getD .zero

/-- A source's tag is no invalid one: tag 8 with auxiliary 7 (R18, R151). -/
def tagValid (r : VReg) : Bool := !(r.tag = 8 && r.aux = 7)

/-- Every source carries tag t, and vd too where the computation reads it. -/
def allTag (t : BitVec 4) (rs : List VReg) : Bool := rs.all (fun r => r.tag = t)

/-- The rounding mode cr.rmode (R153). -/
def State.rmode (s : State) : Nat := s.src.rmode.toNat

/-! ### Effective addresses (R76) -/

/-- b[bb] + g[ix] × size + sext(imm) × size at 64-bit width. -/
def State.ea (s : State) (bb : BitVec 3) (ix : BitVec 5) (size : Nat) (imm : BitVec 6) : W64 :=
  (s.rb bb).val + BitVec.ofInt 64 ((s.rg ix).val.toInt * size) + BitVec.ofInt 64 (imm.toInt * size)

/-- b[ra] + sext64(g[rb]) in bytes (R134). -/
def State.eaSys (s : State) (a : BitVec 3) (b : BitVec 5) : W64 := (s.rb a).val + (s.rg b).val.signExtend 64

/-- The union of the masks of a base and an index register and of cr.ctaint: what holds an access (R117). -/
def State.addrMask (s : State) (bb : BitVec 3) (ix : BitVec 5) : Mask :=
  (s.rb bb).taint ||| (s.rg ix).taint ||| s.src.ctaint

end Sys2Proof.Machine
end

