-- ==== Sys2Proof/Machine/Translate.lean ====
section
/-!
DEFINITION. Address translation (spec/14_translation_faults_errors.md R329 to R333, R398): page-table walks, leaves and
windows, lot windows and their residence (R330), the order of the checks (R332), leases and cached entries, and the fetch
of instruction words (R66, R102).
-/

namespace Sys2Proof.Machine

/-- Who translates: the unit's die (4: the Piazza's), the address space, the job and the privilege. -/
structure Who where
  die : Nat
  asid : BitVec 8
  job : BitVec 16
  sup : Bool
  deriving DecidableEq, Repr

/-- What an access does: it writes; it fetches an instruction; it is an `stv.mc`, or a lane of a scatter; it changes the
crew area's bytes or bits (R261). -/
structure Use where
  write : Bool
  fetch : Bool
  mcast : Bool
  scatter : Bool
  barred : Bool
  deriving DecidableEq, Repr

def Use.load : Use := { write := false, fetch := false, mcast := false, scatter := false, barred := false }
def Use.store : Use := { write := true, fetch := false, mcast := false, scatter := false, barred := true }
def Use.exec : Use := { write := false, fetch := true, mcast := false, scatter := false, barred := false }
def Use.mc : Use := { write := true, fetch := false, mcast := true, scatter := false, barred := true }
def Use.scat : Use := { write := true, fetch := false, mcast := false, scatter := true, barred := true }
/-- `ldfe`, `mkfull` and `mkempty`: no write of memory, but barred from the crew area. -/
def Use.bit : Use := { write := false, fetch := false, mcast := false, scatter := false, barred := true }

/-- A home on this package: its place, and the full/empty bit of its line, if it has one (R120, R254). -/
structure Home where
  place : Nat
  fe : Option FeRef
  deriving DecidableEq, Repr

/-- The base of the lot windows (R330). -/
def lotBase : Nat := 0xFFFF000000000000

/-- The virtual base of lot n of sequencer i (R95, R330). -/
def lotWindow (i n : Nat) : W64 := BitVec.ofNat 64 (lotBase + i * 0x4000000 + n * 0x10000)

/-- An address of the lot windows. -/
def inLotWindows (va : W64) : Bool := decide (lotBase ≤ va.toNat) && va.toNat < lotBase + 0x40000000000

/-- Bits [63:57] equal bit 56 (R329). -/
def canonical (va : W64) : Bool := va.toNat / 2 ^ 56 = 0 || va.toNat / 2 ^ 56 = 2 ^ 8 - 1

/-- A place holds memory (Table 14.1). -/
def hasMemory (a : Nat) : Bool := isHbm a || isScratch a

/-- The SIZE of a page-table entry (Table 14.2). -/
def pteSize (e : Nat) : Nat := e / 2 % 4
/-- A bit of an entry. -/
def pteBit (e i : Nat) : Bool := e / 2 ^ i % 2 = 1
/-- The window kind. -/
def pteWk (e : Nat) : Nat := e / 2 ^ 9 % 4

/-- The number of offset bits of a page of a SIZE. -/
def pageBits (size : Nat) : Nat := if size = 1 then 21 else if size = 2 then 26 else 30

/-- A leaf is well formed (Table 14.2, R331): reserved bits zero, the frame aligned, a legal window combination. -/
def leafOk (e : Nat) : Bool :=
  if pteBit e 8 then
    match pteWk e with
    | 0 => pteSize e = 2 && e / 2 ^ 58 = 0
    | 1 => pteSize e = 1 && e / 2 ^ 21 = 0
    | 2 => pteSize e = 1 && e / 2 ^ 11 % 2 ^ 10 = 0 && isSession (e % 2 ^ 49 / 2 ^ 21 * 2 ^ 21)
    | _ => e / 2 ^ 34 = 0
  else e / 2 ^ 11 % 2 ^ 10 = 0 && e % 2 ^ pageBits (pteSize e) / 2 ^ 21 = 0

/-- The n bytes at a physical address of another package, as they are given in this step (log entry 15). -/
def State.farBytes (s : State) (pa : W64) (n : Nat) : Nat :=
  packNat 8 (fun i => (Config.farByte s.freeCtr (pa.toNat + i)).toNat) n

/-- The walk below a table (R329): levels by the lowest VA bit they index; a leaf stands at level 3 with SIZE 3 and at
level 4 with SIZE 1 or 2. Tables are read at their homes; what another package's memory holds is free (log entry 15). A poisoned
entry is no translation (R345; DESIGN CHOICE, log entry 76). -/
def walkFrom (s : State) (va : W64) : List Nat → W64 → Option Nat
  | [], _ => none
  | sh :: rest, table =>
    if !hasMemory (paLocal table) then none
    else
      let i := 8 * (va.toNat / 2 ^ sh % 512)
      let e := if paPkg table = s.pkg then s.readLE (paLocal table + i) 8 else s.farBytes (table + BitVec.ofNat 64 i) 8
      if !pteBit e 0 || (paPkg table = s.pkg && s.poisoned (paLocal table + i) 8) then none
      else if pteSize e = 0 then
        if e / 8 % 2 ^ 9 ≠ 0 then none else walkFrom s va rest (BitVec.ofNat 64 (e / 2 ^ 12 * 2 ^ 12))
      else if ((sh = 30 && pteSize e = 3) || (sh = 21 && pteSize e ≤ 2)) && leafOk e then some e
      else none

/-- The four-level walk from a root of an address space (R329). -/
def State.walk (s : State) (die : Nat) (asid : BitVec 8) (va : W64) : Option Nat :=
  let root := tget 0 (s.tu die).roots asid.toNat
  if !canonical va || !root.getLsbD 0 || fieldOf root 1 11 ≠ 0 then none
  else walkFrom s va [48, 39, 30, 21] (BitVec.ofNat 64 (root.toNat / 2 ^ 12 * 2 ^ 12))

/-- The counts of remote accesses in the window of 2^20 ticks that a package time lies in (R336). -/
def TransUnit.inWindow (t : TransUnit) (now : W64) : TransUnit :=
  if t.window = now.toNat / 2 ^ 20 then t else { t with remote := [], posted := [], window := now.toNat / 2 ^ 20 }

/-- Counts an access to HBM from another die or package (R336). -/
def State.countRemote (s : State) (a : Nat) (pkg : BitVec 15) (die : Nat) : State :=
  if isHbm a && !(pkg = s.pkg && die = dieOf a) then
    s.modTu (dieOf a) (fun t =>
      let t := t.inWindow s.ptime
      let g := offOf a / 2 ^ 21
      { t with remote := tset g ((tget (0, 0, 0) t.remote g).1 + 1, pkg, die) t.remote })
  else s

/-- The places of this package's memory that a walk reads below a table (R336). -/
def walkPlaces (s : State) (va : W64) : List Nat → W64 → List Nat
  | [], _ => []
  | sh :: rest, table =>
    if paPkg table ≠ s.pkg || !hasMemory (paLocal table) then []
    else
      let a := paLocal table + 8 * (va.toNat / 2 ^ sh % 512)
      let e := s.readLE a 8
      a :: (if pteBit e 0 && pteSize e = 0 then walkPlaces s va rest (BitVec.ofNat 64 (e / 2 ^ 12 * 2 ^ 12)) else [])

/-- Counts the reads of a walk at the homes of its tables (R336). -/
def State.countWalk (s : State) (die : Nat) (asid : BitVec 8) (va : W64) : State :=
  let root := tget 0 (s.tu die).roots asid.toNat
  (walkPlaces s va [48, 39, 30, 21] (BitVec.ofNat 64 (root.toNat / 2 ^ 12 * 2 ^ 12))).foldl (fun s a => s.countRemote a s.pkg die) s

/-- The page base of an address under a leaf's size. -/
def vpageOf (leaf : Nat) (va : W64) : W64 := BitVec.ofNat 64 (va.toNat / 2 ^ pageBits (pteSize leaf) * 2 ^ pageBits (pteSize leaf))

/-- The usable cached entry for an address: its lease has not run out, and no newer entry took its position (R398). -/
def cacheFind (now : W64) (asid : BitVec 8) (va : W64) : List CacheEntry → List Nat → Option CacheEntry
  | [], _ => none
  | e :: es, newer =>
    if e.asid = asid && e.vpage = vpageOf e.leaf.toNat va && !newer.contains e.pos && now.ult e.exp then some e
    else cacheFind now asid va es (e.pos :: newer)

/-- The leaf for an address with its expiry: from the cache, or by a walk (R333). -/
def State.leafFor (s : State) (die : Nat) (asid : BitVec 8) (va : W64) : Option (Nat × W64) :=
  match cacheFind s.ptime asid va (s.tu die).cache [] with
  | some e => some (e.leaf.toNat, e.exp)
  | none => (s.walk die asid va).map (fun l => (l, s.ptime + (s.tu die).lease.zeroExtend 64))

/-- The memory of a plain page: the frame joined to the low address bits (R329). -/
def frameAddr (leaf : Nat) (va : W64) : W64 :=
  let pb := pageBits (pteSize leaf)
  BitVec.ofNat 64 (leaf / 2 ^ pb * 2 ^ pb + va.toNat % 2 ^ pb)

/-- The plain memory an address of an address space names, for uses that reach no window. -/
def State.plainAddr (s : State) (die : Nat) (asid : BitVec 8) (va : W64) : Option W64 :=
  match s.leafFor die asid va with
  | some (l, _) =>
    if pteBit l 8 then none
    else if paPkg (frameAddr l va) = s.pkg && hasMemory (paLocal (frameAddr l va)) then some (frameAddr l va) else none
  | none => none

/-- The virtual base of the save area of sequencer i (R254). -/
def Job.saveBase (j : Job) (i : Nat) : W64 := j.saveArea + BitVec.ofNat 64 (i * j.saveStride)

/-- The home of byte o of lot n of sequencer i of a job under the residence table (R330): the physical lot while the
sequencer is resident and its save has not remapped the lot (R253), or a stopped restore has (R254, R255), otherwise its save copy
with the copy's bitmap (R254). -/
def State.lotHome (s : State) (die : Nat) (j : Job) (i n o : Nat) : Except (BitVec 8) Home :=
  if j.nseq ≤ i || j.lots ≤ n then .error cPerm
  else
    match s.allSeqs.find? (fun q =>
        q.job = j.num && q.index.toNat = i && q.handle ≠ 0 &&
          ((q.isResident && decide (q.savedLots ≤ n)) || q.restoring.any (fun k => decide (n < k)))) with
    | some q =>
      let p := lotPlace q.coreNo (q.lots[n]?.getD 0) o
      .ok { place := p, fe := some (.line (lineOf p)) }
    | none =>
      match s.plainAddr die j.asid (j.saveBase i + BitVec.ofNat 64 (0x100000 + n * 0x10000 + o)),
          s.plainAddr die j.asid (j.saveBase i + BitVec.ofNat 64 (0x7000 + 64 * n + o / 128 / 8)) with
      | some pa, some bm => .ok { place := paLocal pa, fe := some (.bit (paLocal bm) (o / 128 % 8)) }
      | _, _ => .error cXlate

/-- The save copy of byte o of lot n of sequencer i, where its page lies in another package: its address, that of the lot's
full/empty bits, and the earlier of the two lease expiries (R254, R330, R333). -/
def State.lotFar (s : State) (die : Nat) (j : Job) (i n o : Nat) : Option (W64 × W64 × W64) :=
  let va := j.saveBase i + BitVec.ofNat 64 (0x100000 + n * 0x10000 + o)
  let bm := j.saveBase i + BitVec.ofNat 64 (0x7000 + 64 * n)
  match s.leafFor die j.asid va, s.leafFor die j.asid bm with
  | some (l, e), some (k, f) =>
    let pa := frameAddr l va
    if !pteBit l 8 && !pteBit k 8 && paPkg pa ≠ s.pkg && hasMemory (paLocal pa) then
      some (pa, frameAddr k bm, if f.ult e then f else e)
    else none
  | _, _ => none

/-- The translation of an offset among the lots of sequencer i of a live job where the lot's save copy lies in another package:
requests go there, and its home keeps the lot's bits (R254, R330). -/
def State.lotAway (s : State) (die : Nat) (job : BitVec 16) (i o : Nat) : Option Xlat :=
  match s.jobOf job with
  | none => none
  | some j =>
    if j.ended.isSome || s.lotHome die j i (o / 0x10000) (o % 0x10000) ≠ .error cXlate then none
    else
      (s.lotFar die j i (o / 0x10000) (o % 0x10000)).map (fun x =>
        { pkg := paPkg x.1, via := .copy x.2.1, addr := x.1, mc := none, sc := false, exp := x.2.2 })

/-- The home of a physical address. -/
def State.homePhys (s : State) (pa : W64) : Except (BitVec 8) Home :=
  let a := paLocal pa
  if paPkg pa ≠ s.pkg then .error cXlate
  else if isScratch a then .ok { place := a, fe := some (.line (lineOf a)) }
  else if isHbm a || isSession a then .ok { place := a, fe := none }
  else .error cXlate

/-- The home of an offset among the lots of a sequencer: a job that is not live is refused with PERM (R331). -/
def State.homeLot (s : State) (die : Nat) (job seq : BitVec 16) (o : Nat) : Except (BitVec 8) Home :=
  match s.jobOf job with
  | none => .error cPerm
  | some j => if j.ended.isSome then .error cPerm else s.lotHome die j seq.toNat (o / 0x10000) (o % 0x10000)

/-- A user write of n bytes (of the byte, where n is 0) meets the crew area of a live job of the address space (R261). -/
def State.inCrewArea (s : State) (asid : BitVec 8) (va : W64) (n : Nat) : Bool :=
  s.jobs.any (fun j => !j.retired && j.ended.isNone && j.asid = asid && decide (j.crewArea.toNat < va.toNat + Nat.max n 1)
    && va.toNat < j.crewArea.toNat + (j.ncrew + j.maxcrew) * j.crewStride)

/-- Where a leaf leads for an address, with the window misuses of R331. -/
def State.resolve (s : State) (u : Use) (leaf : Nat) (va : W64) : Except (BitVec 8) (BitVec 15 × Via × W64) :=
  if !pteBit leaf 8 then
    let pa := frameAddr leaf va
    if !hasMemory (paLocal pa) then .error cXlate
    else if u.mcast then .error cPerm
    else .ok (paPkg pa, .phys, pa)
  else
    match pteWk leaf with
    | 0 =>
      if u.mcast then .error cPerm
      else .ok (BitVec.ofNat 15 (leaf / 2 ^ 11), .lot (BitVec.ofNat 16 (leaf / 2 ^ 26)) (BitVec.ofNat 16 (leaf / 2 ^ 42)),
        BitVec.ofNat 64 (va.toNat % 2 ^ 26))
    | 1 => if u.mcast then .ok (s.pkg, .phys, BitVec.ofNat 64 (va.toNat % 2 ^ 21)) else .error cPerm
    | 2 =>
      if u.mcast || u.scatter then .error cPerm else .ok (paPkg (frameAddr leaf va), .phys, frameAddr leaf va)
    | _ =>
      if u.mcast then .error cPerm
      else .ok (BitVec.ofNat 15 (leaf / 2 ^ 11), .remote (BitVec.ofNat 8 (leaf / 2 ^ 26)), va)

/-- Translates the address of n bytes of one page, with the checks in the order of R332. -/
def State.translate (s : State) (w : Who) (u : Use) (va : W64) (n : Nat := 1) : Except (BitVec 8 × W64) Xlat :=
  if inLotWindows va then
    match s.jobOf w.job with
    | none => .error (cPerm, va)
    | some j =>
      let o := va.toNat - lotBase
      let i := o / 0x4000000
      let n := o % 0x4000000 / 0x10000
      match s.lotHome w.die j i n (o % 0x10000) with
      | .error c =>
        (match if u.fetch || u.mcast then none else s.lotAway w.die j.num i (o % 0x4000000) with
        | some x => .ok x
        | none => .error (c, va))
      | .ok _ =>
        if u.fetch || u.mcast then .error (cPerm, va)
        else
          .ok { pkg := s.pkg, via := .lot j.num (BitVec.ofNat 16 i), addr := BitVec.ofNat 64 (o % 0x4000000),
                mc := none, sc := false, exp := BitVec.allOnes 64 }
  else
    match s.leafFor w.die w.asid va with
    | none => .error (cXlate, va)
    | some (leaf, exp) =>
      let r := s.resolve u leaf va
      if r = .error cXlate then .error (cXlate, va)
      else if pteBit leaf 7 && !w.sup then .error (cPerm, va)
      else if pteBit leaf 3 && u.write then .error (cPerm, va)
      else if u.fetch && !pteBit leaf 4 then .error (cPerm, va)
      else
        match r with
        | .error c => .error (c, va)
        | .ok (pkg, via, addr) =>
          if u.barred && !w.sup && s.inCrewArea w.asid va n then .error (cPerm, va)
          else
            let away := match via with
              | .lot job seq => if pkg = s.pkg && !u.fetch then s.lotAway w.die job seq.toNat addr.toNat else none
              | _ => none
            match away with
            | some x => .ok { x with sc := pteBit leaf 5, exp := if exp.ult x.exp then exp else x.exp }
            | none =>
              .ok { pkg := pkg, via := via, addr := addr, sc := pteBit leaf 5, exp := exp
                    mc := if pteBit leaf 8 && pteWk leaf = 1 then some (BitVec.ofNat 10 (leaf / 2 ^ 11)) else none }

/-- The home on this package of an address as a request carries it, or the code of the destination-side fault (R331,
R341). `die` is the die of the master, `sup` its privilege. -/
def State.homeOf (s : State) (die : Nat) (sup : Bool) (u : Use) (via : Via) (addr : W64) : Except (BitVec 8) Home :=
  match via with
  | .phys => s.homePhys addr
  | .copy bits =>
    let o := addr.toNat % 0x10000
    (s.homePhys addr).map (fun h =>
      { h with fe := if paPkg bits = s.pkg then some (.bit (paLocal bits + o / 128 / 8) (o / 128 % 8)) else none })
  | .lot job seq => s.homeLot die job seq addr.toNat
  | .remote asid =>
    match s.translate { die := 4, asid := asid, job := 0, sup := sup } u addr with
    | .error (c, _) => .error c
    | .ok x =>
      if x.pkg ≠ s.pkg || x.mc.isSome then .error cXlate
      else
        match x.via with
        | .phys => s.homePhys x.addr
        | .lot job seq => s.homeLot 4 job seq x.addr.toNat
        | .remote _ | .copy _ => .error cXlate

/-- Caches the translation that an address's walk gave, at a free position, and counts the walk's reads (R333, R336, R398). -/
def State.touchPage (s : State) (w : Who) (va : W64) : State :=
  match cacheFind s.ptime w.asid va (s.tu w.die).cache [] with
  | some _ => s
  | none =>
    match s.walk w.die w.asid va with
    | none => s
    | some l =>
      ((s.countWalk w.die w.asid va).modTu w.die (fun t => { t with cache :=
        { pos := Config.freeNat s.freeCtr % 8192, asid := w.asid, vpage := vpageOf l va, leaf := BitVec.ofNat 64 l,
          exp := s.ptime + t.lease.zeroExtend 64 } :: t.cache })).drawFree

/-- The pages an address makes its unit walk: its own, or those of the save copy of a lot and of the copy's bitmap where the
lot's sequencer holds no slot (R330). -/
def State.walked (s : State) (w : Who) (va : W64) : List W64 :=
  if !inLotWindows va then [va]
  else
    match s.jobOf w.job with
    | none => []
    | some j =>
      let o := va.toNat - lotBase
      let i := o / 0x4000000
      let n := o % 0x4000000 / 0x10000
      match s.lotHome w.die j i n (o % 0x10000) with
      | .ok { place := _, fe := some (.line _) } => []
      | _ =>
        if j.nseq ≤ i || j.lots ≤ n then []
        else [j.saveBase i + BitVec.ofNat 64 (0x100000 + n * 0x10000 + o % 0x10000),
              j.saveBase i + BitVec.ofNat 64 (0x7000 + 64 * n + o % 0x10000 / 128 / 8)]

/-- Caches the translations of an access (R333). -/
def State.touch (s : State) (w : Who) (va : W64) : State := (s.walked w va).foldl (fun s a => s.touchPage w a) s

/-- Caches the translation that this package's Piazza makes of an address that reads as REMOTE (R333). -/
def State.touchVia (s : State) (via : Via) (addr : W64) : State :=
  match via with
  | .remote asid => s.touch { die := 4, asid := asid, job := 0, sup := false } addr
  | _ => s

/-- The pieces of a range that lie in one 64 KiB block, whose pages and windows can differ: address and length. -/
def pieces : Nat → W64 → Nat → List (W64 × Nat)
  | 0, _, _ => []
  | fuel + 1, va, n =>
    if n = 0 then []
    else
      let k := Nat.min n (0x10000 - va.toNat % 0x10000)
      (va, k) :: pieces fuel (va + BitVec.ofNat 64 k) (n - k)

/-- Translates every piece of a list; the lowest failing piece raises its cause (R114). -/
def State.translateAll (s : State) (w : Who) (u : Use) : List (W64 × Nat) → Except (BitVec 8 × W64) (List (W64 × Nat × Xlat))
  | [] => .ok []
  | (va, n) :: ps =>
    match s.translate w u va n with
    | .error e => .error e
    | .ok x =>
      match s.translateAll w u ps with
      | .error e => .error e
      | .ok xs => .ok ((va, n, x) :: xs)

/-- Translates a range of n bytes. -/
def State.translateRange (s : State) (w : Who) (u : Use) (va : W64) (n : Nat) :
    Except (BitVec 8 × W64) (List (W64 × Nat × Xlat)) :=
  s.translateAll w u (pieces (n / 0x10000 + 2) va n)

/-- The pieces of an access of a sequencer: 256 bytes are checked in two halves (R114). -/
def accessPieces (va : W64) (n : Nat) : List (W64 × Nat) := if n = 256 then [(va, 128), (va + 128, 128)] else [(va, n)]

/-- Caches the translations of a list of addresses. -/
def State.touchAll (s : State) (w : Who) (vas : List W64) : State := vas.foldl (fun s va => s.touch w va) s

/-- The executing sequencer as a translating master. -/
def State.me (s : State) : Who :=
  { die := s.ctx.cdie.toNat, asid := s.asidOf s.ctx.job, job := s.ctx.job, sup := s.ctx.sup }

/-- The code with which a home of another package answers a request through a window that it translates itself: none, XLATE
or PERM is free (R331, log entry 15). -/
def State.farFault (s : State) (x : Xlat) : Option (BitVec 8) :=
  if x.via = .phys then none
  else
    match Config.farFault s.freeCtr x.addr.toNat % 3 with
    | 0 => none
    | 1 => some cXlate
    | _ => some cPerm

/-- The instruction word at an address, fetched from memory and never from a Curb (R66, R102). What the memory of another
package holds is free (log entry 15). The line's full/empty bit is not asked; a poisoned word raises POISON (R345) as a word that
cannot be fetched does; a SESSION page of this package raises PERM, one of another package gives what that package answers
(DESIGN CHOICE, log entry 76). -/
def State.fetchWord (s : State) (va : W64) : Except (BitVec 8 × W64) W32 :=
  match s.translate s.me .exec va with
  | .error e => .error e
  | .ok x =>
    if x.pkg ≠ s.pkg then
      match s.farFault x with
      | some c => .error (c, va)
      | none => .ok (BitVec.ofNat 32 (s.farBytes x.addr 4))
    else
      match s.homeOf s.ctx.cdie.toNat s.ctx.sup .exec x.via x.addr with
      | .error c => .error (c, va)
      | .ok h =>
        if !hasMemory h.place then .error (cPerm, va)
        else if s.poisoned h.place 4 then .error (cPoison, va)
        else .ok (BitVec.ofNat 32 (s.readLE h.place 4))

/-- Every word of a group, up to the first with S = 1 or to the seventh (R66): the words, and whether the last stops. -/
def State.fetchGroup (s : State) : Nat → W64 → Except (BitVec 8 × W64 × Nat) (List W32)
  | 0, _ => .ok []
  | n + 1, va =>
    match s.fetchWord va with
    | .error (c, a) => .error (c, a, 6 - n)
    | .ok w =>
      if w.msb then .ok [w]
      else
        match s.fetchGroup n (va + 4) with
        | .error e => .error e
        | .ok ws => .ok (w :: ws)

end Sys2Proof.Machine
end

