-- ==== Sys2Proof/Machine/Vector.lean ====
section
/-!
DEFINITION. The vector instructions (spec/06_vector_instructions.md): FP32 arithmetic, compare and select, integer and
logic forms, conversions, block floating point, the Hadamard step, lane movement, reductions and retagging.
-/

namespace Sys2Proof.Machine

/-! ### Shared forms -/

/-- A merging FP32 form with two sources that rounds under cr.rmode (R153, R155). -/
def State.vfp2 (s : State) (d a b : BitVec 6) (k : BitVec 3) (f : Nat → Nat → W32 → W32 → W32 × BitVec 7) : State :=
  s.vform d k [a, b] false (fun rs _ => allTag 1 rs) (fun _ => (1, 0))
    (fun rs _ p seed => roundLanes p seed s.rmode (fun l r => f s.rmode r (lane (srcAt rs 0).val l) (lane (srcAt rs 1).val l)))

/-- The fused forms, which read vd (R155). -/
def State.vfp3 (s : State) (d a b : BitVec 6) (k : BitVec 3) (negate : Bool) : State :=
  s.vform d k [a, b] true (fun rs old => allTag 1 rs && old.tag = 1) (fun _ => (1, 0))
    (fun rs old p seed => roundLanes p seed s.rmode (fun l r =>
      fpFma negate s.rmode r (lane (srcAt rs 0).val l) (lane (srcAt rs 1).val l) (lane old l)))

/-- A merging FP32 form that neither rounds under cr.rmode nor draws (R156, R157). -/
def State.vfpq (s : State) (d : BitVec 6) (srcs : List (BitVec 6)) (k : BitVec 3)
    (f : W32 → W32 → W32 × BitVec 7) : State :=
  s.vform d k srcs false (fun rs _ => allTag 1 rs) (fun _ => (1, 0))
    (fun rs _ p seed => flagLanes p seed (fun l => f (lane (srcAt rs 0).val l) (lane (srcAt rs 1).val l)))

/-- `vneg` of a lane: a NaN becomes canonical (R156). -/
def fpNeg (a : W32) : W32 × BitVec 7 :=
  if (val32 a).isNan then (qnan32, snanFlag [a]) else (a ^^^ 0x80000000, 0)

/-- `vabs` of a lane (R156). -/
def fpAbs (a : W32) : W32 × BitVec 7 :=
  if (val32 a).isNan then (qnan32, snanFlag [a]) else (a &&& 0x7FFFFFFF, 0)

/-- Applies an operation to the elements of width w of a lane, least significant first. -/
def laneElems (w : Nat) (f : BitVec w → BitVec w → BitVec w) (a b : W32) : W32 :=
  BitVec.ofNat 32 (packNat w (fun i => (f (a.extractLsb' (w * i) w) (b.extractLsb' (w * i) w)).toNat) (32 / w))

/-- The integer operation fn of R160 on elements of width w; a shift takes the low log2 w bits of b. -/
def intElem (fn w : Nat) (a b : BitVec w) : BitVec w :=
  let n := b.toNat % w
  match fn with
  | 0 => a + b
  | 1 => a - b
  | 2 => a * b
  | 3 => a <<< n
  | 4 => a >>> n
  | _ => a.sshiftRight n

/-- The integer forms of majors 0x33 to 0x36 (R160). -/
def State.vint (s : State) (tag : BitVec 4) (w fn : Nat) (d a b : BitVec 6) (k : BitVec 3) : State :=
  s.vform d k [a, b] false (fun rs _ => allTag tag rs) (fun _ => (tag, 0))
    (fun rs _ _ seed => .pure (ofLanes (fun l =>
      laneElems w (intElem fn w) (lane (srcAt rs 0).val l) (lane (srcAt rs 1).val l))) seed)

/-- A form that moves or combines bits and keeps va's tag and auxiliary (R161, R167). -/
def State.vbits (s : State) (d : BitVec 6) (srcs : List (BitVec 6)) (k : BitVec 3) (check : List VReg → Bool)
    (f : List VReg → Nat → W32) : State :=
  s.vform d k srcs false (fun rs _ => rs.all tagValid && check rs) (fun rs => ((srcAt rs 0).tag, (srcAt rs 0).aux))
    (fun rs _ _ seed => .pure (ofLanes (f rs)) seed)

/-- Both sources carry the same tag and auxiliary (R147). -/
def sameTag (rs : List VReg) : Bool := (srcAt rs 0).tag = (srcAt rs 1).tag && (srcAt rs 0).aux = (srcAt rs 1).aux

/-- A vector result that reads neither vd nor a predicate. -/
def State.vplain (s : State) (d : BitVec 6) (srcs : List (BitVec 6)) (check : List VReg → Bool)
    (res : List VReg → W32 → VReg × BitVec 7 × W32 × Bool) : State :=
  s.withCodes srcs (fun rs s =>
    if !check rs then s.raise cFmtTag 0
    else
      let (r, fl, seed, tr) := res rs s.seedNow
      let m := rs.foldl (fun m x => m ||| x.taint) 0
      s.finish { val := r.val, flags := fl, seed := seed, trap := tr }
        (fun s => s.writeCode d { r with taint := m }))

/-! ### Conversion (R162, R163) -/

/-- Converts elements in order, drawing once for each under SR. -/
def convLoop (st tt mode policy : Nat) : List Nat → W32 → List Nat × BitVec 7 × W32 × Bool
  | [], seed => ([], 0, seed, false)
  | x :: xs, seed =>
    let seed' := if mode = 4 then seedStep seed else seed
    let e := convElem st tt x mode (seedDraw seed') policy
    let (vs, fl, out, tr) := convLoop st tt mode policy xs seed'
    (e.bits :: vs, e.flags ||| fl, out, e.trap || tr)

/-- The element count of a conversion (Table 6.5). -/
def convCount (st tt : Nat) : Nat := 2048 / Nat.max (tagWidth st) (tagWidth tt)

/-- The tag has elements that convert: 1 to 7 or 9. -/
def tagScalar (t : BitVec 4) : Bool := (decide (1 ≤ t.toNat) && decide (t.toNat ≤ 7)) || t = 9

/-- Element i of width w of a vector, as a number. -/
def elemNat (w : Nat) (v : Vec) (i : Nat) : Nat := (elem w v i).toNat

/-! ### Block floating point (R164, R165) -/

/-- The valid count of block b of `vq.bfp` (R164). -/
def validCount (vs : Vec) (b : Nat) : Nat := 32 - Nat.min ((lane vs b).toNat % 64) 32

/-- Quantises block b; an absent block draws nothing. -/
def quantBlock (m : Nat) (va vs : Vec) (b mode policy : Nat) (seed : W32) : Quantised :=
  let n := validCount vs b
  if n = 0 then
    { mants := List.replicate 32 0, scale := BitVec.ofNat 32 ((m - 2) * 2 ^ 12), flags := 0, trap := false, seed := seed }
  else quantise m ((List.range n).map (fun j => val32 (lane va (32 * b + j)))) mode policy seed

/-- Element j of a block in a vector that starts with two mantissa strings of 32m bits (R53). -/
def mantAt (m : Nat) (v : Vec) (b j : Nat) : Nat := v.toNat / 2 ^ (32 * m * b + m * j) % 2 ^ m

/-! ### Hadamard (R57, R166) -/

/-- The number of set bits of the five low bits. -/
def popc5 (n : Nat) : Nat := n % 2 + n / 2 % 2 + n / 4 % 2 + n / 8 % 2 + n / 16 % 2

/-- H[i][j] is −1. -/
def hadNeg (i j : Nat) : Bool := popc5 (i &&& j) % 2 = 1

/-- Output i of a block (R166): the exact signed sum; a NaN input or opposite infinities give NaN. -/
def hadOut (xs : List Num) (i : Nat) : Num :=
  ((List.range xs.length).map (fun j =>
      let x := xs[j]?.getD (.fin false 0 0)
      if hadNeg i j then numNeg x else x)).foldl (fun acc t => match acc with
    | none => some t
    | some a => some (numAdd 0 a t)) none |>.getD (.fin false 0 0)

/-! ### Reductions (R63, R169) -/

/-- One level of the pairwise tree. -/
def pairUp (f : W32 → W32 → W32 × BitVec 7) : List W32 → List W32 × BitVec 7
  | a :: b :: t =>
    let (x, fl) := f a b
    let (xs, fls) := pairUp f t
    (x :: xs, fl ||| fls)
  | l => (l, 0)

/-- The pairwise tree over the given number of levels. -/
def treeReduce (f : W32 → W32 → W32 × BitVec 7) : Nat → List W32 → W32 × BitVec 7
  | 0, l => (l.headD 0, 0)
  | n + 1, l =>
    let (l', fl) := pairUp f l
    let (r, fl') := treeReduce f n l'
    (r, fl ||| fl')

/-- The element of tag t widened to the 32 bits it is reduced in: FP32, or a 32-bit integer (Table 6.6). -/
def widen (t bits : Nat) : W32 :=
  match tagFmt t with
  | some _ => if t = 1 then BitVec.ofNat 32 bits else BitVec.ofNat 32 (fp32.arith (tagValue t bits) 0 0).bits
  | none => if tagSigned t then (BitVec.ofNat (tagWidth t) bits).signExtend 32 else BitVec.ofNat 32 bits

/-- The combine of a reduction: 0 sum, 1 max, 2 min, on FP32, signed or unsigned words (Table 6.6). -/
def redCombine (op : Nat) (fp sgn : Bool) (a b : W32) : W32 × BitVec 7 :=
  if fp then
    match op with
    | 0 => fpAdd 0 0 a b
    | 1 => (fMax a b, snanFlag [a, b])
    | _ => (fMin a b, snanFlag [a, b])
  else
    match op with
    | 0 => (a + b, 0)
    | 1 => (accumOp (if sgn then 4 else 6) a b, 0)
    | _ => (accumOp (if sgn then 5 else 7) a b, 0)

/-- The identity of a reduction (R63, Table 6.6). -/
def redIdentity (op : Nat) (fp sgn : Bool) : W32 :=
  match op, fp, sgn with
  | 0, true, _ => 0x80000000
  | 1, true, _ => 0xFF800000
  | _, true, _ => 0x7F800000
  | 0, false, _ => 0
  | 1, false, true => 0x80000000
  | 1, false, false => 0
  | _, false, true => 0x7FFFFFFF
  | _, false, false => 0xFFFFFFFF

/-- A reduction of va under a predicate (R169): the word and its flags. -/
def reduceVec (op : Nat) (t : Nat) (v : Vec) (p : W64) : W32 × BitVec 7 :=
  let fp := (tagFmt t).isSome
  let sgn := tagSigned t
  let w := tagWidth t
  let n := 2048 / w
  let els := (List.range n).map (fun i =>
    if active p (w * i / 32) then widen t (elemNat w v i) else redIdentity op fp sgn)
  let nv := (List.range n).any (fun i => active p (w * i / 32) && (tagValue t (elemNat w v i)).isSnan)
  let (r, fl) := treeReduce (redCombine op fp sgn) (Nat.log2 n) els
  (r, fl ||| flagIf (fp && nv) fNV)

/-- The result tag of a reduction (Table 6.6). -/
def redTag (t : Nat) : BitVec 4 := if (tagFmt t).isSome then 1 else if t = 9 then 9 else 5

/-- The reductions: lane 0 of vd, zeros above; inactive lanes enter as the identity (R169). -/
def State.vreduce (s : State) (op : Nat) (d a : BitVec 6) (k : BitVec 3) : State :=
  let p := s.rk k
  s.withCodes [a] (fun rs s =>
    let r := srcAt rs 0
    if !tagScalar r.tag then s.raise cFmtTag 0
    else
      let (w, fl) := reduceVec op r.tag.toNat r.val p.val
      s.finish { val := w.zeroExtend 2048, flags := fl, seed := s.seedNow, trap := false } (fun s =>
        s.writeCode d { val := w.zeroExtend 2048, tag := redTag r.tag.toNat, aux := 0, taint := r.taint ||| p.taint }))

/-! ### The instructions -/


/-- `vadd` (R155). -/
def execVadd (d a b : BitVec 6) (k : BitVec 3) (s : State) : Out :=
  .next (s.vfp2 d a b k fpAdd)

/-- `vsub` (R155). -/
def execVsub (d a b : BitVec 6) (k : BitVec 3) (s : State) : Out :=
  .next (s.vfp2 d a b k fpSub)

/-- `vmul` (R155). -/
def execVmul (d a b : BitVec 6) (k : BitVec 3) (s : State) : Out :=
  .next (s.vfp2 d a b k fpMul)

/-- `vfma` (R155). -/
def execVfma (d a b : BitVec 6) (k : BitVec 3) (s : State) : Out :=
  .next (s.vfp3 d a b k false)

/-- `vfms` (R155). -/
def execVfms (d a b : BitVec 6) (k : BitVec 3) (s : State) : Out :=
  .next (s.vfp3 d a b k true)

/-- `vneg` (R156). -/
def execVneg (d a : BitVec 6) (k : BitVec 3) (s : State) : Out :=
  .next (s.vfpq d [a] k (fun x _ => fpNeg x))

/-- `vabs` (R156). -/
def execVabs (d a : BitVec 6) (k : BitVec 3) (s : State) : Out :=
  .next (s.vfpq d [a] k (fun x _ => fpAbs x))

/-- `vmin` (R156). -/
def execVmin (d a b : BitVec 6) (k : BitVec 3) (s : State) : Out :=
  .next (s.vfpq d [a, b] k (fun x y => (fMin x y, snanFlag [x, y])))

/-- `vmax` (R156). -/
def execVmax (d a b : BitVec 6) (k : BitVec 3) (s : State) : Out :=
  .next (s.vfpq d [a, b] k (fun x y => (fMax x y, snanFlag [x, y])))

/-- `vrcp` (R157). -/
def execVrcp (d a : BitVec 6) (k : BitVec 3) (s : State) : Out :=
  .next (s.vfpq d [a] k (fun x _ => fpRcp x))

/-- `vrsq` (R157). -/
def execVrsq (d a : BitVec 6) (k : BitVec 3) (s : State) : Out :=
  .next (s.vfpq d [a] k (fun x _ => fpRsq x))

/-- `vexp2` (R157). -/
def execVexp2 (d a : BitVec 6) (k : BitVec 3) (s : State) : Out :=
  .next (s.vfpq d [a] k (fun x _ => fpExp2 x))

/-- `vlog2` (R157). -/
def execVlog2 (d a : BitVec 6) (k : BitVec 3) (s : State) : Out :=
  .next (s.vfpq d [a] k (fun x _ => fpLog2 x))

/-- `vsel`: the predicate selects whole lanes; vd is not read (R159). -/
def execVsel (d a b : BitVec 6) (k : BitVec 3) (s : State) : Out :=
  let p := s.rk k
  .next (s.withCodes [a, b] (fun rs s =>
    let x := srcAt rs 0
    let y := srcAt rs 1
    if !(sameTag rs && rs.all tagValid) then s.raise cFmtTag 0
    else s.writeCode d { val := mergeLanes p.val x.val y.val, tag := x.tag, aux := x.aux,
                         taint := x.taint ||| y.taint ||| p.taint }))

/-- The condition of `vcmp` on lanes of a tag (Table 6.4). -/
def cmpLane (tag : BitVec 4) (c : Nat) (a b : W32) : Bool × BitVec 7 :=
  if tag = 1 then fpCmp c a b else (intCmp c (tag = 5) a b, 0)

/-- `vcmp`: zeroing predication of a k result (R158). -/
def execVcmp (k : BitVec 3) (a b : BitVec 6) (p c : BitVec 3) (s : State) : Out :=
  let q := s.rk p
  .next (s.withCodes [a, b] (fun rs s =>
    let x := srcAt rs 0
    let y := srcAt rs 1
    if !(sameTag rs && (x.tag = 1 || x.tag = 5 || x.tag = 9)) then s.raise cFmtTag 0
    else
      let res (l : Nat) := cmpLane x.tag c.toNat (lane x.val l) (lane y.val l)
      let bits := packNat 1 (fun l => if active q.val l && (res l).1 then 1 else 0) 64
      let fl := (List.range 64).foldl (fun f l => if active q.val l then f ||| (res l).2 else f) 0
      (s.flag fl).wk k (BitVec.ofNat 64 bits) (x.taint ||| y.taint ||| q.taint)))


/-- `vadd.i32` (R160). -/
def execVaddI32 (d a b : BitVec 6) (k : BitVec 3) (s : State) : Out :=
  .next (s.vint 5 32 0 d a b k)

/-- `vsub.i32` (R160). -/
def execVsubI32 (d a b : BitVec 6) (k : BitVec 3) (s : State) : Out :=
  .next (s.vint 5 32 1 d a b k)

/-- `vmul.i32` (R160). -/
def execVmulI32 (d a b : BitVec 6) (k : BitVec 3) (s : State) : Out :=
  .next (s.vint 5 32 2 d a b k)

/-- `vshl.i32` (R160). -/
def execVshlI32 (d a b : BitVec 6) (k : BitVec 3) (s : State) : Out :=
  .next (s.vint 5 32 3 d a b k)

/-- `vshr.i32` (R160). -/
def execVshrI32 (d a b : BitVec 6) (k : BitVec 3) (s : State) : Out :=
  .next (s.vint 5 32 4 d a b k)

/-- `vsra.i32` (R160). -/
def execVsraI32 (d a b : BitVec 6) (k : BitVec 3) (s : State) : Out :=
  .next (s.vint 5 32 5 d a b k)

/-- `vadd.n32` (R160). -/
def execVaddN32 (d a b : BitVec 6) (k : BitVec 3) (s : State) : Out :=
  .next (s.vint 9 32 0 d a b k)

/-- `vsub.n32` (R160). -/
def execVsubN32 (d a b : BitVec 6) (k : BitVec 3) (s : State) : Out :=
  .next (s.vint 9 32 1 d a b k)

/-- `vmul.n32` (R160). -/
def execVmulN32 (d a b : BitVec 6) (k : BitVec 3) (s : State) : Out :=
  .next (s.vint 9 32 2 d a b k)

/-- `vshl.n32` (R160). -/
def execVshlN32 (d a b : BitVec 6) (k : BitVec 3) (s : State) : Out :=
  .next (s.vint 9 32 3 d a b k)

/-- `vshr.n32` (R160). -/
def execVshrN32 (d a b : BitVec 6) (k : BitVec 3) (s : State) : Out :=
  .next (s.vint 9 32 4 d a b k)

/-- `vsra.n32` (R160). -/
def execVsraN32 (d a b : BitVec 6) (k : BitVec 3) (s : State) : Out :=
  .next (s.vint 9 32 5 d a b k)

/-- `vadd.i16` (R160). -/
def execVaddI16 (d a b : BitVec 6) (k : BitVec 3) (s : State) : Out :=
  .next (s.vint 6 16 0 d a b k)

/-- `vsub.i16` (R160). -/
def execVsubI16 (d a b : BitVec 6) (k : BitVec 3) (s : State) : Out :=
  .next (s.vint 6 16 1 d a b k)

/-- `vmul.i16` (R160). -/
def execVmulI16 (d a b : BitVec 6) (k : BitVec 3) (s : State) : Out :=
  .next (s.vint 6 16 2 d a b k)

/-- `vshl.i16` (R160). -/
def execVshlI16 (d a b : BitVec 6) (k : BitVec 3) (s : State) : Out :=
  .next (s.vint 6 16 3 d a b k)

/-- `vshr.i16` (R160). -/
def execVshrI16 (d a b : BitVec 6) (k : BitVec 3) (s : State) : Out :=
  .next (s.vint 6 16 4 d a b k)

/-- `vsra.i16` (R160). -/
def execVsraI16 (d a b : BitVec 6) (k : BitVec 3) (s : State) : Out :=
  .next (s.vint 6 16 5 d a b k)

/-- `vadd.i8` (R160). -/
def execVaddI8 (d a b : BitVec 6) (k : BitVec 3) (s : State) : Out :=
  .next (s.vint 7 8 0 d a b k)

/-- `vsub.i8` (R160). -/
def execVsubI8 (d a b : BitVec 6) (k : BitVec 3) (s : State) : Out :=
  .next (s.vint 7 8 1 d a b k)

/-- `vmul.i8` (R160). -/
def execVmulI8 (d a b : BitVec 6) (k : BitVec 3) (s : State) : Out :=
  .next (s.vint 7 8 2 d a b k)

/-- `vshl.i8` (R160). -/
def execVshlI8 (d a b : BitVec 6) (k : BitVec 3) (s : State) : Out :=
  .next (s.vint 7 8 3 d a b k)

/-- `vshr.i8` (R160). -/
def execVshrI8 (d a b : BitVec 6) (k : BitVec 3) (s : State) : Out :=
  .next (s.vint 7 8 4 d a b k)

/-- `vsra.i8` (R160). -/
def execVsraI8 (d a b : BitVec 6) (k : BitVec 3) (s : State) : Out :=
  .next (s.vint 7 8 5 d a b k)

/-- `vand` (R161). -/
def execVand (d a b : BitVec 6) (k : BitVec 3) (s : State) : Out :=
  .next (s.vbits d [a, b] k (fun _ => true) (fun rs l => lane (srcAt rs 0).val l &&& lane (srcAt rs 1).val l))

/-- `vor` (R161). -/
def execVor (d a b : BitVec 6) (k : BitVec 3) (s : State) : Out :=
  .next (s.vbits d [a, b] k (fun _ => true) (fun rs l => lane (srcAt rs 0).val l ||| lane (srcAt rs 1).val l))

/-- `vxor` (R161). -/
def execVxor (d a b : BitVec 6) (k : BitVec 3) (s : State) : Out :=
  .next (s.vbits d [a, b] k (fun _ => true) (fun rs l => lane (srcAt rs 0).val l ^^^ lane (srcAt rs 1).val l))

/-- `vnot` (R161). -/
def execVnot (d a : BitVec 6) (k : BitVec 3) (s : State) : Out :=
  .next (s.vbits d [a] k (fun _ => true) (fun rs l => ~~~ lane (srcAt rs 0).val l))

/-- `vmov` (R161). -/
def execVmov (d a : BitVec 6) (k : BitVec 3) (s : State) : Out :=
  .next (s.vbits d [a] k (fun _ => true) (fun rs l => lane (srcAt rs 0).val l))

/-- `vcvt` (R162, R163): rm 7 takes cr.rmode, pd = 1 takes cr.ovf. -/
def execVcvt (d a : BitVec 6) (t : BitVec 4) (r : BitVec 3) (o : BitVec 2) (p : BitVec 1) (s : State) : Out :=
  let mode := if r = 7 then s.rmode else r.toNat
  let policy := if p = 1 then s.src.ovf.toNat else o.toNat
  .next (s.vplain d [a] (fun rs => tagScalar (srcAt rs 0).tag) (fun rs seed =>
    let x := srcAt rs 0
    let st := x.tag.toNat
    let n := convCount st t.toNat
    let (vs, fl, seed', tr) := convLoop st t.toNat mode policy ((List.range n).map (elemNat (tagWidth st) x.val)) seed
    ({ val := BitVec.ofNat 2048 (packNat (tagWidth t.toNat) (fun i => vs[i]?.getD 0) n), tag := t, aux := 0, taint := 0 },
      fl, seed', tr)))

/-- `vq.bfp` (R164). Either destination naming a port raises PORT. -/
def execVqBfp (d a st : BitVec 6) (m : BitVec 3) (s : State) : Out :=
  .next (if 56 ≤ d.toNat || 56 ≤ st.toNat then s.raise cPort 0
  else s.withCodes [a] (fun rs s =>
    let x := srcAt rs 0
    let vs := s.src.rv st.toNat
    if x.tag ≠ 1 || !tagValid vs then s.raise cFmtTag 0
    else
      let mm := m.toNat + 2
      let q0 := quantBlock mm x.val vs.val 0 s.rmode s.src.ovf.toNat s.seedNow
      let q1 := quantBlock mm x.val vs.val 1 s.rmode s.src.ovf.toNat q0.seed
      let bits := packNat mm (fun i => (q0.mants ++ q1.mants)[i]?.getD 0) 64
      let taint := x.taint ||| vs.taint
      s.finish { val := 0, flags := q0.flags ||| q1.flags, seed := q1.seed, trap := q0.trap || q1.trap } (fun s =>
        (s.wv d.toNat { val := BitVec.ofNat 2048 bits, tag := 8, aux := m, taint := taint }).wv st.toNat
          { val := ofLanes (fun l => if l = 0 then q0.scale else if l = 1 then q1.scale else 0), tag := 0, aux := 0,
            taint := taint })))

/-- `vdq.bfp` (R165). -/
def execVdqBfp (d a st : BitVec 6) (s : State) : Out :=
  .next (if 56 ≤ st.toNat then s.raise cPort 0
  else s.withCodes [a] (fun rs s =>
    let x := srcAt rs 0
    let vs := s.src.rv st.toNat
    let m := x.aux.toNat + 2
    let sc (b : Nat) := lane vs.val b
    let bad (b : Nat) : Bool := scMM2 (sc b) ≠ x.aux.toNat || scMM2 (sc b) = 7
    if x.tag ≠ 8 || x.aux = 7 || !tagValid vs || bad 0 || bad 1 then s.raise cFmtTag 0
    else
      let val (l : Nat) : Num := bfpValue m (sc (l / 32)) (l % 32) (mantAt m x.val (l / 32) (l % 32))
      let nv := (List.range 64).any (fun l => (val l).isSnan)
      (s.flag (flagIf nv fNV)).writeCode d
        { val := ofLanes (fun l => BitVec.ofNat 32 (fp32.arith (val l) 0 0).bits), tag := 1, aux := 0,
          taint := x.taint ||| vs.taint }))

/-- `vhad` (R166). -/
def execVhad (d a : BitVec 6) (s : State) : Out :=
  .next (s.vplain d [a] (allTag 1) (fun rs seed =>
    let x := srcAt rs 0
    let blk (b : Nat) : List Num := (List.range 32).map (fun j => val32 (lane x.val (32 * b + j)))
    let res (l : Nat) : W32 × BitVec 7 := deliver32 (blk (l / 32)) (hadOut (blk (l / 32)) (l % 32)) 0 0
    ({ val := ofLanes (fun l => (res l).1), tag := 1, aux := 0, taint := 0 },
      (List.range 64).foldl (fun f l => f ||| (res l).2) 0, seed, false)))

/-- `vperm` (R167). -/
def execVperm (d a b : BitVec 6) (k : BitVec 3) (s : State) : Out :=
  .next (s.vbits d [a, b] k (fun rs => (srcAt rs 1).tag = 5 || (srcAt rs 1).tag = 9)
    (fun rs l => lane (srcAt rs 0).val ((lane (srcAt rs 1).val l).toNat % 64)))

/-- `vrotl` (R167). -/
def execVrotl (d a n : BitVec 6) (k : BitVec 3) (s : State) : Out :=
  .next (s.vbits d [a] k (fun _ => true) (fun rs l => lane (srcAt rs 0).val ((l + 64 - n.toNat) % 64)))

/-- `vbcast` (R167). -/
def execVbcast (d a n : BitVec 6) (k : BitVec 3) (s : State) : Out :=
  .next (s.vbits d [a] k (fun _ => true) (fun rs _ => lane (srcAt rs 0).val n.toNat))

/-- `vext` (R168). -/
def execVext (d : BitVec 5) (a n : BitVec 6) (s : State) : Out :=
  .next (s.withCodes [a] (fun rs s =>
    if !tagValid (srcAt rs 0) then s.raise cFmtTag 0
    else s.wg d (lane (srcAt rs 0).val n.toNat) (srcAt rs 0).taint))

/-- `vins` reads vd and keeps its tag (R168); a port as vd raises PORT (R149). -/
def execVins (d : BitVec 6) (a : BitVec 5) (n : BitVec 6) (s : State) : Out :=
  let old := s.src.rv d.toNat
  .next (if 56 ≤ d.toNat then s.raise cPort 0
  else if !tagValid old then s.raise cFmtTag 0
  else s.wv d.toNat { old with val := ofLanes (fun l => if l = n.toNat then (s.rg a).val else lane old.val l),
                               taint := old.taint ||| (s.rg a).taint })

/-- `vzip` (R167). -/
def execVzip (d a b : BitVec 6) (k : BitVec 3) (s : State) : Out :=
  .next (s.vbits d [a, b] k sameTag (fun rs l => lane (srcAt rs (l % 2)).val (l / 2)))

/-- `vunzip` (R167). -/
def execVunzip (d a : BitVec 6) (k : BitVec 3) (s : State) : Out :=
  .next (s.vbits d [a] k (fun _ => true)
    (fun rs l => lane (srcAt rs 0).val (if l < 32 then 2 * l else 2 * (l - 32) + 1)))


/-- `vredsum` (R169). -/
def execVredsum (d a : BitVec 6) (k : BitVec 3) (s : State) : Out :=
  .next (s.vreduce 0 d a k)

/-- `vredmax` (R169). -/
def execVredmax (d a : BitVec 6) (k : BitVec 3) (s : State) : Out :=
  .next (s.vreduce 1 d a k)

/-- `vredmin` (R169). -/
def execVredmin (d a : BitVec 6) (k : BitVec 3) (s : State) : Out :=
  .next (s.vreduce 2 d a k)

/-- `vtag`: copies the bits and sets the tag; va's tag is not checked (R170). -/
def execVtag (d a : BitVec 6) (t : BitVec 4) (x : BitVec 3) (s : State) : Out :=
  .next (s.withCodes [a] (fun rs s =>
    s.writeCode d { val := (srcAt rs 0).val, tag := t, aux := x, taint := (srcAt rs 0).taint }))

end Sys2Proof.Machine
end

