-- ==== Sys2Proof/Machine/Home.lean ====
section
/-!
DEFINITION. The home ports and the Curb: full/empty bits (R120, R135, R136, R254), reading bytes at their homes with
forwarding from the Curb (R118 to R122, R226), accepting stores, releasing them (R118, R119, R125, R229), applying them at
their homes or parking them (R126, R127, R131 to R133, R185, R321, R322, R341), and acknowledgment (R33, R126, R231, R232).
-/

namespace Sys2Proof.Machine

/-! ### Full/empty bits -/

/-- The bit of a line is full; other memory has no bit and never waits (R120). -/
def State.feFull (s : State) : Option FeRef → Bool
  | none => true
  | some (.line l) => !(s.empties.contains l)
  | some (.bit p i) => (Memory.read s.mem p).getLsbD i

/-- Sets or clears the bit of a line (R135, R254). -/
def State.feSet (s : State) (full : Bool) : Option FeRef → State
  | none => s
  | some (.line l) =>
    if full then { s with empties := s.empties.filter (fun x => x ≠ l) }
    else if s.empties.contains l then s else { s with empties := l :: s.empties }
  | some (.bit p i) =>
    let b := Memory.read s.mem p
    let m : Byte := 1 <<< i
    s.writeBytes [(p, if full then b ||| m else b &&& ~~~m)]

/-! ### Reduction session slots (R321, R322) -/

/-- The session, slot and byte that a place in the session window names. -/
def slotPlace (a : Nat) : Nat × Nat × Nat :=
  let o := offOf a - 0x100000000000
  (o / 0x100000, o / 0x10000 % 16, o % 0x10000)

/-- Bytes of an element of the session's input format. -/
def Session.ebytes (x : Session) : Nat := if x.ifmt = 2 then 2 else if x.ifmt = 3 || x.ifmt = 4 then 1 else 4

/-- The size of a slot in bytes (R318). -/
def Session.slotSize (x : Session) (k : Nat) : Nat := 2 ^ (x.slot k).lvl.toNat * x.nelem.toNat * x.ebytes

/-- The identity of R322 in 32 bits: FP32 for the floating-point formats, INT32 otherwise. -/
def sessionIdentity (op : Nat) (int : Bool) : W32 :=
  match op with
  | 0 => if int then 0 else 0x80000000
  | 1 => if int then 0x80000000 else 0xFF800000
  | 2 => if int then 0x7FFFFFFF else 0x7F800000
  | 3 => 0xFFFFFFFF
  | _ => 0

/-- The accumulating operation a session accepts (R321). -/
def Session.accumCode (x : Session) : Option (BitVec 4) :=
  match x.op.toNat, x.ifmt.toNat with
  | 0, 1 => some 1
  | 0, 2 => some 11
  | 0, 5 => some 0
  | 1, 1 => some 2
  | 1, 5 => some 4
  | 2, 1 => some 3
  | 2, 5 => some 5
  | 3, 5 => some 8
  | 4, 5 => some 9
  | 5, 5 => some 10
  | _, _ => none

/-- What unwritten bytes of a word count as under an accumulating store (R321). -/
def Session.wordIdentity (x : Session) : W32 :=
  if x.ifmt = 2 then 0x80008000 else sessionIdentity x.op.toNat (x.ifmt = 5)

/-- A byte of a slot, written or not. -/
def Slot.byteAt (c : Slot) (i : Nat) : Option Byte := (c.bytes.find? (fun e => e.1 = i)).map Prod.snd

/-- The value of a slot's word under an accumulating store. -/
def Slot.wordAt (c : Slot) (ident : W32) (i : Nat) : W32 :=
  BitVec.ofNat 32 (packNat 8 (fun j => ((c.byteAt (i + j)).getD (ident.extractLsb' (8 * j) 8)).toNat) 4)

/-- Writes bytes of a slot; bytes at or beyond its size are ignored (R321). -/
def Slot.put (c : Slot) (size : Nat) (bs : List (Nat × Byte)) : Slot :=
  { c with bytes := bs.foldl (fun t b => if b.1 < size then tset b.1 b.2 t else t) c.bytes }

/-- Applies one effect at a byte of a slot. -/
def Session.applySlot (x : Session) (size : Nat) (c : Slot) (off : Nat) : Effect → Slot
  | .byte _ v => c.put size [(off, v)]
  | .accum _ op d | .rmw _ op d _ _ =>
    c.put size (atAddrs off (leBytes (accumOp op.toNat (c.wordAt x.wordIdentity off) d).toNat 4))
  | .mark _ _ | .read _ _ _ _ | .check _ _ | .count _ _ => c

/-- The operation of an effect is one the session accepts (R321); the codes of `swap` and `cas` name no accumulation. -/
def Session.accepts (x : Session) : Effect → Bool
  | .byte _ _ => true
  | .accum _ op _ => x.accumCode = some op
  | .rmw _ op _ _ _ => decide (op.toNat < 11) && x.accumCode = some op
  | .check _ _ => true
  | .mark _ _ | .read _ _ _ _ | .count _ _ => false

/-- The elements of leaf i of a FULL slot, widened to 32 bits (R323). -/
def Session.leafElems (x : Session) (c : Slot) (i : Nat) : List W32 :=
  (List.range x.nelem.toNat).map (fun j =>
    let a := (i * x.nelem.toNat + j) * x.ebytes
    widen x.ifmt.toNat (packNat 8 (fun b => ((c.byteAt (a + b)).getD 0).toNat) x.ebytes))

/-- Leaf i of a FULL slot holds a signalling NaN (R50, R323). -/
def Session.leafSnan (x : Session) (c : Slot) (i : Nat) : Bool :=
  x.ifmt ≠ 5 && (List.range x.nelem.toNat).any (fun j =>
    let a := (i * x.nelem.toNat + j) * x.ebytes
    (tagValue x.ifmt.toNat (packNat 8 (fun b => ((c.byteAt (a + b)).getD 0).toNat) x.ebytes)).isSnan)

/-- The fields every session packet carries (R317): MODE, OP, IFMT, OFMT and ANCHOR; NLEAF and ELEMS. -/
def Session.wireFields (x : Session) : W64 :=
  BitVec.ofNat 64 (x.mode.toNat + 4 * x.op.toNat + 32 * x.ifmt.toNat + 512 * x.ofmt.toNat + 8192 * x.anchor.toNat)

/-- NLEAF and ELEMS as a session packet carries them. -/
def Session.wireShape (x : Session) : W64 := BitVec.ofNat 64 (x.nleaf.toNat + 2 ^ 17 * x.nelem.toNat)

/-- The values of a FULL slot: one for each leaf, at its place in the leaf tree (R322, R323). -/
def Session.slotValues (x : Session) (k : Nat) : List SessionValue :=
  let c := x.slot k
  (List.range (2 ^ c.lvl.toNat)).map (fun i =>
    { fields := x.wireFields, shape := x.wireShape, lvl := 0, idx := c.leaf.toNat + i,
      elems := x.leafElems c i, flags := flagIf (x.leafSnan c i) fNV })

/-- An order of a list's members that a free number picks: every order is one. -/
def shuffle {α : Type} : Nat → List α → List α
  | _, [] => []
  | n, x :: xs => (shuffle (n / (xs.length + 1)) xs).insertIdx (n % (xs.length + 1)) x

/-- The values of a FULL slot in the order in which they leave for the root: that of their leaves, or, with MODE ARRIVAL, in which
they are combined as they arrive, any (R323, R363). -/
def Session.released (x : Session) (k n : Nat) : List SessionValue :=
  if x.mode = 1 then shuffle n (x.slotValues k) else x.slotValues k

/-- What a home does with a store. -/
inductive Applied where
  | done (s : State)
  | held
  | fault (code : BitVec 8)
  deriving DecidableEq, Repr

/-- A store reaches slot k of session n with its effects and their bytes in the slot (R319, R321, R322). A FULL slot holds
it; a CLOSED slot discards and counts it; a slot that becomes FULL releases its leaves. -/
def State.slotApply (s : State) (n k : Nat) (job : Option (BitVec 16)) (es : List (Nat × Effect)) : Applied :=
  let x := s.session n
  let c := x.slot k
  if x.state = 0 || !c.valid || (job.isSome && job ≠ some x.job) || !(es.all (fun e => x.accepts e.2)) then .fault cPerm
  else if c.closed then .done (s.modSession n (fun x => { x with disc := x.disc + 1 }))
  else if c.full then .held
  else
    let size := x.slotSize k
    let c := es.foldl (fun c e => x.applySlot size c e.1 e.2) c
    let full := decide (size ≤ c.bytes.length)
    let c := { c with full := full }
    let s := s.modSession n (fun x => { x.modSlot k (fun _ => c) with busy := true })
    .done (if full then ((s.session n).released k (Config.freeNat s.freeCtr)).foldl (fun s v => s.later (.value n v)) s.drawFree else s)

/-! ### Bytes at their homes -/

/-- A byte at a place: memory, or a session slot, whose unwritten bytes read zero (R321). -/
def State.byteAt (s : State) (a : Nat) : Byte :=
  if isSession a then
    let (n, k, o) := slotPlace a
    (((s.session n).slot k).byteAt o).getD 0
  else Memory.read s.mem a

/-- The n bytes from a place. -/
def State.bytesAt (s : State) (a n : Nat) : List Byte := (List.range n).map (fun i => s.byteAt (a + i))

/-- The migrating frame that a home, or the bitmap that holds its full/empty bit, lies in. -/
def State.frameOf (s : State) (h : Home) : Option Nat :=
  if (s.migrationAt h.place).isSome then some h.place
  else
    match h.fe with
    | some (.bit p _) => if (s.migrationAt p).isSome then some p else none
    | _ => none

/-- Writes bytes of one page at their home, and marks their line full with `mark`; a migrating frame holds both (R337). -/
def State.writeHome (s : State) (a : Nat) (bs : List Byte) (mark : Option FeRef) : State :=
  match s.frameOf { place := a, fe := mark } with
  | some f => s.migrationHold f (.bytes (atAddrs a bs) mark)
  | none => (s.writeBytes (atAddrs a bs)).feSet true mark

/-- An access that a master makes: the translations it uses are cached, and its home counts it (R333, R336). -/
def State.note (s : State) (w : Who) (u : Use) (va : W64) : State :=
  match s.translate w u va with
  | .error _ => s
  | .ok x =>
    let s := s.touch w va
    if x.pkg ≠ s.pkg then s
    else
      match s.homeOf w.die w.sup u x.via x.addr with
      | .ok h => (s.touchVia x.via x.addr).countRemote h.place s.pkg w.die
      | .error _ => s

/-- A list of accesses by a master. -/
def State.noteAll (s : State) (w : Who) (u : Use) (ps : List (W64 × Nat)) : State := ps.foldl (fun s p => s.note w u p.1) s

/-- A request with a lease expiry arrives more than 2,000 ns after it (R334). -/
def State.tooLate (s : State) (exp : W64) : Bool := decide (exp.toNat + 2000 < s.ptime.toNat)

/-! ### Applying the effects of a store -/

/-- The address an effect names. -/
def effAddr : Effect → W64
  | .byte a _ => a
  | .accum a _ _ => a
  | .mark a _ => a
  | .rmw a _ _ _ _ => a
  | .read a _ _ _ => a
  | .check a _ => a
  | .count a _ => a

/-- The number of bytes an effect covers: one that writes nothing covers none. -/
def effSize : Effect → Nat
  | .byte _ _ => 1
  | .accum _ _ _ => 4
  | .mark _ _ => 0
  | .rmw _ _ _ _ _ => 4
  | .read _ _ _ n => n
  | .check _ _ => 0
  | .count _ _ => 0

/-- An effect of a request whose address has moved by a distance. -/
def moveEffect (dist : W64) : Effect → Effect
  | .byte a v => .byte (a + dist) v
  | .accum a op d => .accum (a + dist) op d
  | .mark a f => .mark (a + dist) f
  | .rmw a op d c r => .rmw (a + dist) op d c r
  | .read a w o n => .read (a + dist) w o n
  | .check a n => .check (a + dist) n
  | .count a n => .count (a + dist) n

/-- An effect is a returning read-modify-write. -/
def isRmw : Effect → Bool
  | .rmw _ _ _ _ _ => true
  | _ => false

/-- The bytes from a part's address to its last. -/
def Part.span (p : Part) : Nat := (p.effects.map (fun e => (effAddr e - p.addr).toNat + effSize e)).foldl Nat.max 1

/-- The effect reads the word it changes. -/
def effAccum : Effect → Bool
  | .accum _ _ _ => true
  | .rmw _ _ _ _ _ => true
  | _ => false

/-- Where the return word of an `xrmw` goes: the master it returns to. -/
structure Issuer where
  who : Who
  pkg : BitVec 15
  deriving DecidableEq, Repr

/-- The return word of an `xrmw` lands: the word is written and its line marked full (R185). That of another package's
command travels back with its acknowledgment. -/
def State.returnWord (s : State) (i : Issuer) (ret : W64) (old : W32) : State :=
  if ret = 0 || i.pkg ≠ s.pkg then s
  else
    match s.translate i.who .store ret with
    | .error _ => s
    | .ok x =>
      match s.homeOf i.who.die i.who.sup .store x.via x.addr with
      | .error _ => s
      | .ok h => s.writeHome h.place (leBytes old.toNat 4) h.fe

/-- Applies an effect at its home. -/
def State.applyAt (s : State) (i : Issuer) (h : Home) : Effect → State
  | .byte _ v => s.writeBytes [(h.place, v)]
  | .accum _ op d =>
    s.writeLE h.place (accumOp op.toNat (BitVec.ofNat 32 (s.readLE h.place 4)) d).toNat 4
  | .mark _ full => s.feSet full h.fe
  | .rmw _ op d c ret =>
    let old := BitVec.ofNat 32 (s.readLE h.place 4)
    (s.writeLE h.place (rmwOp op.toNat old d c).toNat 4).returnWord i ret old
  | .count _ n => s.syncAdd h.place n
  | .read _ _ _ _ | .check _ _ => s

/-- Writes a list of effects at homes: plain bytes in one write, the rest in order. -/
def State.applyMem (s : State) (i : Issuer) (es : List (Home × Effect)) : State :=
  if es.all (fun e => match e.2 with | .byte _ _ => true | _ => false) then
    s.writeBytes (es.filterMap (fun e => match e.2 with | .byte _ v => some (e.1.place, v) | _ => none))
  else es.foldl (fun s e => s.applyAt i e.1 e.2) s

/-- The old word that a returning read-modify-write finds: memory's, or, in a session slot, the word with the identity for
its unwritten bytes (R185, R321). -/
def State.oldWord (s : State) (h : Home) : W32 :=
  if isSession h.place then
    let (n, k, o) := slotPlace h.place
    ((s.session n).slot k).wordAt (s.session n).wordIdentity o
  else BitVec.ofNat 32 (s.readLE h.place 4)

/-- The returning read-modify-write among a request's effects: its home and return address. -/
def rmwOf (es : List (Home × Effect)) : Option (Home × W64) :=
  es.findSome? (fun e => match e.2 with | .rmw _ _ _ _ r => if r = 0 then none else some (e.1, r) | _ => none)

/-- The session slots among a request's homes, each once. -/
def slotsOf (es : List (Home × Effect)) : List (Nat × Nat) :=
  (es.map (fun e => ((slotPlace e.1.place).1, (slotPlace e.1.place).2.1))).eraseDups

/-- The effects reach their slots, one slot after another; a slot that refuses or holds the store keeps it from all. -/
def State.slotsApply (s : State) (job : Option (BitVec 16)) (es : List (Home × Effect)) : List (Nat × Nat) → Applied
  | [] => .done s
  | (n, k) :: ks =>
    match s.slotApply n k job ((es.filter (fun e => (slotPlace e.1.place).1 = n && (slotPlace e.1.place).2.1 = k)).map
        (fun e => ((slotPlace e.1.place).2.2, e.2))) with
    | .done s => s.slotsApply job es ks
    | r => r

/-- The store reaches its homes: a session window takes it under R321; a mark of a location without a bit, and poison
under an accumulation, fault (R341, R345, R395). -/
def State.applyHomes (s : State) (i : Issuer) (job : Option (BitVec 16)) (es : List (Home × Effect)) : Applied :=
  match es with
  | [] => .done s
  | (h, _) :: _ =>
    if isSession h.place then
      match s.slotsApply job es (slotsOf es) with
      | .done t =>
        (match rmwOf es with
        | some (h, r) => .done (t.returnWord i r (s.oldWord h))
        | none => .done t)
      | r => r
    else if es.any (fun e => effAccum e.2 && s.poisoned e.1.place 4) then .fault cPoison
    else if es.any (fun e => match e.2 with | .mark _ _ => e.1.fe.isNone | _ => false) then .fault cPerm
    else .done (s.applyMem i es)

/-! ### The Curb -/

/-- The entries of a die's Curb. -/
def State.curbOf (s : State) (d : Nat) : List CurbEntry := (s.dieAt d).curb

/-- Changes a die's Curb. -/
def State.modCurb (s : State) (d : Nat) (f : List CurbEntry → List CurbEntry) : State :=
  s.modDie d (fun x => { x with curb := f x.curb })

/-- Entry number n of a die's Curb. -/
def State.curbEntry (s : State) (d n : Nat) : Option CurbEntry := (s.curbOf d).find? (fun e => e.num = n)

/-- The entries of a sequencer, on every die (R255). -/
def State.entriesOf (s : State) (h : BitVec 24) : List CurbEntry :=
  ((List.range 4).flatMap (fun d => s.curbOf d)).filter (fun e => e.handle = h)

/-- A part is not yet committed or dropped. -/
def Part.pending (p : Part) : Bool := p.st = .waiting || p.st = .parked

/-- The location of an address, resolved as far as this package resolves it: package, reading, number. -/
def State.locOf (s : State) (die : Nat) (sup : Bool) (pkg : BitVec 15) (via : Via) (addr : W64) : BitVec 15 × Via × Nat :=
  if pkg = s.pkg then
    match s.homeOf die sup .load via addr with
    | .ok h => (pkg, .phys, h.place)
    | .error _ => (pkg, via, addr.toNat)
  else (pkg, via, addr.toNat)

/-- The locations and bytes a part covers: offset from the part's first byte, length, and the byte where it is plain. -/
def Part.cover (p : Part) : List (Nat × Option Byte) :=
  p.effects.flatMap (fun e =>
    match e with
    | .byte a v => [((a - p.addr).toNat, some v)]
    | e => (List.range (effSize e)).map (fun j => ((effAddr e - p.addr).toNat + j, none)))

/-- The bytes of a multicast entry on this package: at each member base plus the offset (R315). -/
def State.mcCover (s : State) (e : CurbEntry) : List (BitVec 15 × Via × Nat) :=
  match e.group with
  | none => []
  | some g =>
    let gr := s.group g.toNat
    (List.range 4).flatMap (fun d =>
      if gr.dies.getLsbD d then
        (List.range 256).map (fun i => (s.pkg, .phys, paLocal ((gr.base[d]?.getD 0) + e.offset) + i))
      else [])

/-- The locations that parts of an entry cover. -/
def State.coverOf (s : State) (d : Nat) (e : CurbEntry) (ps : List Part) : List (BitVec 15 × Via × Nat) :=
  s.mcCover e ++ ps.flatMap (fun p =>
    let (k, v, a) := s.locOf d e.sup p.pkg p.via p.addr
    p.cover.map (fun c => (k, v, a + c.1)))

/-- The locations whose bytes an entry has not yet committed (R118). -/
def State.entryCover (s : State) (d : Nat) (e : CurbEntry) : List (BitVec 15 × Via × Nat) :=
  s.coverOf d e (e.parts.filter Part.pending)

/-- The locations of an entry that is not yet acknowledged (R118). -/
def State.entryAll (s : State) (d : Nat) (e : CurbEntry) : List (BitVec 15 × Via × Nat) := s.coverOf d e e.parts

/-- The lines an entry marks. -/
def State.entryLines (s : State) (d : Nat) (e : CurbEntry) : List (BitVec 15 × Via × Nat) :=
  (e.parts.filter Part.pending).flatMap (fun p =>
    p.effects.filterMap (fun f =>
      match f with
      | .mark _ true =>
        let (k, v, a) := s.locOf d e.sup p.pkg p.via p.addr
        some (k, v, a / 128)
      | _ => none))

/-- The destinations of an entry (R125): the (package, die) pairs of its parts; a multicast store has a destination of its
own that equals no other. -/
def CurbEntry.dests (e : CurbEntry) : List (BitVec 15 × Nat) :=
  match e.group with
  | some g => [(0, 1000 + g.toNat), (0, 2000 + e.num)]
  | none => (e.parts.map (fun p => (p.pkg, p.die))).eraseDups

/-- The entry accumulates or stores bytes: a mark alone overlaps nothing. -/
def CurbEntry.isStore (e : CurbEntry) : Bool := e.kind ≠ .mark

/-- The latest of a list of entries in order of acceptance. -/
def latestEntry (es : List CurbEntry) : Option CurbEntry :=
  es.foldl (fun b e => match b with | some x => if x.order < e.order then some e else b | none => some e) none

/-- The store of an entry's stream before it, while it is not acknowledged (R125). -/
def State.streamPred (s : State) (e : CurbEntry) : Option CurbEntry :=
  if e.stream = 0 then none
  else latestEntry ((s.entriesOf e.handle).filter (fun x => decide (x.order < e.order) && x.stream = e.stream))

/-- R125 holds the entry: the store before it in its stream has another destination and is not acknowledged. -/
def State.streamHolds (s : State) (e : CurbEntry) : Bool :=
  match s.streamPred e with
  | none => false
  | some x => !(x.dests = e.dests && decide (e.dests.length = 1))

/-- The lowest address of a part that its destination faults, where this package translates each of its bytes again, with the
code (R331, R332, R341). -/
def State.partFault (s : State) (d : Nat) (e : CurbEntry) (p : Part) : Option (BitVec 8 × W64) :=
  match p.via with
  | .remote _ => p.effects.findSome? (fun f =>
      match s.homeOf d e.sup .store p.via (effAddr f) with
      | .error c => some (c, effAddr f)
      | .ok _ => none)
  | _ => none

/-- The home of the first byte of a part: the part is contiguous, and a fault of any of its bytes is the part's. -/
def State.partHome (s : State) (d : Nat) (e : CurbEntry) (p : Part) : Except (BitVec 8) Home :=
  match s.partFault d e p with
  | some (c, _) => .error c
  | none => s.homeOf d e.sup .store p.via p.addr

/-- The die that holds the home of a part on this package; the destination of a REMOTE page is none of them (R125, R370). -/
def State.partDie (s : State) (d : Nat) (e : CurbEntry) (p : Part) : Nat :=
  match p.via with
  | .remote _ =>
    (match s.partHome d e p with
    | .ok h => dieOf h.place
    | .error _ => p.die)
  | _ => p.die

/-- A part writes reduction session slots: a load of them gives the slot's current bytes (R321). -/
def State.inSlots (s : State) (d : Nat) (e : CurbEntry) (p : Part) : Bool :=
  if p.pkg = s.pkg then
    match s.partHome d e p with
    | .ok h => isSession h.place
    | .error _ => false
  else p.via = .phys && isSession (paLocal p.addr)

/-- A part that loads of its die may be forwarded from (R121, R321): of a plain store, not SC, to memory of another die or
package. -/
def State.forwards (s : State) (d : Nat) (e : CurbEntry) (p : Part) : Bool :=
  e.kind = .plain && !e.sc && p.pending && !(p.pkg = s.pkg && s.partDie d e p = d) && !s.inSlots d e p

/-- An older entry of the Curb may have been forwarded, and overlaps parts of this one that may be forwarded too: its bytes
come first in coherence order (R226). -/
def State.behindForwarded (s : State) (d : Nat) (e : CurbEntry) (ps : List Part) : Bool :=
  let mine := s.coverOf d { e with group := none } (ps.filter (s.forwards d e))
  !mine.isEmpty && (s.curbOf d).any (fun x => decide (x.order < e.order) &&
    (s.coverOf d { x with group := none } (x.parts.filter (s.forwards d x))).any (fun l => mine.contains l))

/-- The part is homed in the scratchpad of its issuer's own core. -/
def State.ownCorePart (s : State) (d : Nat) (e : CurbEntry) (p : Part) : Bool :=
  p.pkg = s.pkg &&
    match s.partHome d e p with
    | .ok h => isScratch h.place && (s.seqOf e.handle).map Seqr.coreNo = some (scratchCore h.place)
    | .error _ => false

/-- The part is homed on its issuer's die, but not in its core's scratchpad (R229). -/
def State.dieLocalPart (s : State) (d : Nat) (e : CurbEntry) (p : Part) : Bool :=
  p.pkg = s.pkg && s.partDie d e p = d && !s.ownCorePart d e p

/-- The entry is a store, an accumulating store or an `xrmw` (R187) with a part homed on its issuer's die, but not in its core's
scratchpad (R229). -/
def State.dieLocal (s : State) (d : Nat) (e : CurbEntry) : Bool :=
  e.group.isNone && e.parts.any (fun p => s.dieLocalPart d e p)

/-- R118, R119, R125, R135, R226 and R229 let an entry be released, given the earlier entries of its sequencer not yet
acknowledged. -/
def State.mayRelease (s : State) (d : Nat) (e : CurbEntry) : Bool :=
  let earlier := (s.entriesOf e.handle).filter (fun x => x.order < e.order)
  let stores := earlier.filter CurbEntry.isStore
  let mine := s.entryAll d e
  let lines := s.entryLines d e
  (!e.sc || stores.isEmpty)
    && stores.all (fun x => (s.entryAll d x).all (fun l =>
        !(mine.contains l) && !(lines.contains (l.1, l.2.1, l.2.2 / 128))))
    && !s.streamHolds e
    && !s.behindForwarded d e (e.parts.filter (fun p => p.pkg ≠ s.pkg))
    && (!s.dieLocal d e || (s.curbOf d).all (fun x =>
        !(x.handle = e.handle && decide (x.order < e.order) && x.released.isNone && s.dieLocal d x) || s.streamHolds x))

/-- A multicast entry leaves for the group's root (R315); an entry that is no part of a tree discards and acknowledges it
(R316). -/
def State.sendMulticast (s : State) (d : Nat) (e : CurbEntry) (g : BitVec 10) : State :=
  let gr := s.group g.toNat
  let data := (e.parts.flatMap (fun p => p.effects)).filterMap (fun f => match f with | .byte _ v => some v | _ => none)
  let p : McPacket :=
    { group := g, job := e.job, srcPkg := s.pkg, handle := e.handle, stream := e.stream, seqno := e.seqno,
      id := 4096 * d + e.num, offset := e.offset, data := data, msg := none, copy := false, count := 0, down := false,
      hops := 0 }
  if gr.valid && gr.root ≠ s.pkg then s.emit (.multicast 127 p)
  else s.later (.packet p 127)

/-- Two parts of an entry travel as one request: to one package, read alike, and among lots of the same one. -/
def sameFar (p q : Part) : Bool :=
  p.pkg = q.pkg && p.via = q.via &&
    (match p.via with
    | .lot _ _ => decide (p.addr.toNat / 0x10000 = q.addr.toNat / 0x10000)
    | _ => true)

/-- The requests that leave for other packages: the parts for one package that read alike are one. -/
def farRequests (own : BitVec 15) : List Part → List Part
  | [] => []
  | p :: ps =>
    let rest := farRequests own ps
    if p.pkg = own then rest
    else if rest.any (sameFar p) then
      rest.map (fun q => if sameFar p q then
        { q with effects := p.effects ++ q.effects, exp := if p.exp.ult q.exp then p.exp else q.exp } else q)
    else p :: rest

/-- The identity under which a read-modify-write is applied once (R286): its die, channel 128 for what is no copy channel's, and
its place in the order of acceptance; the lowest not yet acknowledged of that die is its watermark. -/
def State.rmwUnit (s : State) (d : Nat) (e : CurbEntry) : Option (UnitId × Nat) :=
  if e.kind = .rmw then
    some ({ die := d, ch := 128, claim := 0, unit := e.order },
      (s.curbOf d).foldl (fun n x => if x.kind = .rmw then Nat.min n x.order else n) e.order)
  else none

/-- The requests of some parts of entry e of die d leave, each with the number of the store before it in its stream and the number
of requests that the store makes of its package (R125). -/
def State.sendParts (s : State) (d : Nat) (e : CurbEntry) (ps : List Part) : State :=
  let pred := (s.streamPred e).map CurbEntry.seqno
  let all := farRequests s.pkg e.parts
  (farRequests s.pkg ps).foldl (fun s p =>
    s.emit (.store p.pkg d e.handle e.job e.stream e.seqno pred (all.countP (fun q => q.pkg = p.pkg)) (s.rmwUnit d e) p.via p.exp
      p.effects)) s

/-- Releases entry e of die d: its parts for other packages leave, a multicast store goes to its tree. -/
def State.release (s : State) (d : Nat) (e : CurbEntry) : State :=
  let s := s.modCurb d (lmod (fun x => x.num = e.num) (fun x => { x with released := some s.orderNext }))
  let s := { s with orderNext := s.orderNext + 1 }
  match e.group with
  | some g => s.sendMulticast d e g
  | none => s.sendParts d e e.parts

/-- One pass over a list of entries, in order of acceptance, that releases those that may be released. -/
def State.releasePass (s : State) (d : Nat) : List CurbEntry → State
  | [] => s
  | e :: es =>
    let s := if e.released.isNone && s.mayRelease d e then s.release d e else s
    s.releasePass d es

/-- Releases what may be released on every die. -/
def State.releaseStores (s : State) : State := (List.range 4).foldl (fun s d => s.releasePass d (s.curbOf d)) s

/-! ### Reading with forwarding (R118, R121, R122, R226) -/

/-- A piece of a load: its virtual address, length and translation. -/
structure Piece where
  va : W64
  n : Nat
  x : Xlat
  deriving DecidableEq, Repr

/-- The pieces of a translated list. -/
def toPieces (l : List (W64 × Nat × Xlat)) : List Piece := l.map (fun e => { va := e.1, n := e.2.1, x := e.2.2 })

/-- The byte that part p of an entry holds for a location. -/
def State.partByte (s : State) (d : Nat) (e : CurbEntry) (p : Part) (l : BitVec 15 × Via × Nat) : Option Byte :=
  let (k, v, a) := s.locOf d e.sup p.pkg p.via p.addr
  if k = l.1 ∧ v = l.2.1 ∧ a ≤ l.2.2 then ((p.cover.find? (fun c => c.1 = l.2.2 - a)).map Prod.snd).getD none else none

/-- The youngest forwarding entry that overlaps a location: its number and the byte. A younger entry of another sequencer that
cannot be forwarded is passed over (DESIGN CHOICE, log entry 73). -/
def State.forwardByte (s : State) (d : Nat) (l : BitVec 15 × Via × Nat) : Option (Nat × Byte) :=
  (s.curbOf d).reverse.findSome? (fun e =>
    e.parts.reverse.findSome? (fun p =>
      if s.forwards d e p then (s.partByte d e p l).map (fun b => (e.num, b)) else none))

/-- The locations of a piece. -/
def State.pieceLocs (s : State) (p : Piece) : List (BitVec 15 × Via × Nat) :=
  let (k, v, a) := s.locOf s.ctx.cdie.toNat s.ctx.sup p.x.pkg p.x.via p.x.addr
  (List.range p.n).map (fun i => (k, v, a + i))

/-- An entry that the executing sequencer made before the group in flight (R65). -/
def State.beforeGroup (s : State) (e : CurbEntry) : Bool := s.issue.since.all (fun n => decide (e.order < n))

/-- The executing sequencer's entries from before the group in flight. -/
def State.earlierEntries (s : State) : List CurbEntry := (s.entriesOf s.ctx.handle).filter (fun e => s.beforeGroup e)

/-- The locations that a store not yet accepted will write. -/
def State.draftLocs (s : State) (die : Nat) (sup : Bool) (ds : List Draft) : List (BitVec 15 × Via × Nat) :=
  ds.flatMap (fun x =>
    let (k, v, a) := s.locOf die sup x.x.pkg x.x.via x.x.addr
    x.effects.flatMap (fun e => (List.range (effSize e)).map (fun j => (k, v, a + (effAddr e - x.x.addr).toNat + j))))

/-- Work of the executing sequencer whose queue lags (R71, R73). -/
def State.lateHere (s : State) : List LateWork := (s.late.filter (fun l => l.handle = s.ctx.handle)).map Late.work

/-- A late store of the executing sequencer overlaps the locations (R118). -/
def State.lateOver (s : State) (locs : List (BitVec 15 × Via × Nat)) : Bool :=
  s.lateHere.any (fun l =>
    match l with
    | .store _ _ _ _ ds => (s.draftLocs s.ctx.cdie.toNat s.ctx.sup ds).any (fun x => locs.contains x)
    | .command _ _ _ _ => false)

/-- An uncommitted store of the executing sequencer overlaps the locations; with `onlyUnforwardable`, only those that a load
may not be forwarded from are asked for. -/
def State.ownOverlap (s : State) (locs : List (BitVec 15 × Via × Nat)) (onlyUnforwardable : Bool) : Bool :=
  s.lateOver locs || (List.range 4).any (fun d =>
    (s.curbOf d).any (fun e =>
      e.handle = s.ctx.handle && e.isStore && s.beforeGroup e &&
        (if onlyUnforwardable then
          !(d = s.ctx.cdie.toNat && e.parts.all (fun p => !p.pending || s.forwards d e p) && e.group.isNone)
         else true)
        && (s.entryCover d e).any (fun l => locs.contains l)))

/-- An SC access of the executing sequencer is not yet performed: its next M instruction waits (R119). -/
def State.scPending (s : State) : Bool := s.earlierEntries.any (fun e => e.sc)

/-- The numbers of the free taint tags. -/
def Seqr.freeTags (q : Seqr) : List Nat := (List.range 16).filter (fun i => (q.tags[i]?.getD none).isNone)

/-- The home that a location names: that of a place of this package, or what another package's address tells. -/
def destOfLoc (l : BitVec 15 × Via × Nat) : Dest :=
  match l.2.1 with
  | .phys =>
    let a := l.2.2 % 2 ^ 49
    { pkg := l.1, die := dieOf a, core := if isScratch a then some (scratchCore a) else none }
  | _ => { pkg := l.1, die := 4, core := none }

/-- Takes one free tag for each entry of die d in the list, with the homes of the bytes taken from it; which tag is the
device's choice (log entry 6). The mask. -/
def State.takeTags (s : State) (d : Nat) : List (Nat × List Dest) → Mask × State
  | [] => (0, s)
  | (n, homes) :: ns =>
    let free := s.ctx.freeTags
    let t := free[Config.freeNat s.freeCtr % free.length]?.getD 0
    match s.curbEntry d n with
    | none => s.takeTags d ns
    | some e =>
      let entry : TagEntry :=
        { die := d, entry := BitVec.ofNat 12 n, stream := e.stream, seqno := e.seqno, void := none, bound := false,
          dests := homes }
      let s := { s.drawFree with ctx := { s.ctx with tags := s.ctx.tags.setIfInBounds t (some entry) } }
      let (m, s) := s.takeTags d ns
      ((1 <<< t) ||| m, s)

/-- The place in its group of the next request that the executing member makes: fewer than 1,024 a member. -/
def State.askPos (s : State) : Nat := 1024 * s.issue.pos + s.issue.taken

/-- Sends the request of a waiting access under a number of its own, in the place of one returned to it (R334). -/
def State.sendAsk (s : State) (effect : Bool) (place : Option (BitVec 15 × Via × W64 × W64)) (p : Nat → Packet) : State :=
  let n := s.ctx.askNext
  let pos := s.askPos
  { s with ctx := { s.ctx with
      askNext := n + 1
      asks := { pos := pos, tag := n, effect := effect, place := place, reply := none } :: s.ctx.asks.filter (fun a => a.pos ≠ pos) } }.emit (p n)

/-- The request of a waiting access to another package: its reply, if it has come, is used; otherwise the request is sent
once and the group waits (R227); a returned request is sent again with the access's new translation (R334). `effect`: the
request changes something there; `place`: it keeps an `ldfe`'s place at that home. -/
def State.ask (s : State) (w : Wait) (effect : Bool) (place : Option (BitVec 15 × Via × W64 × W64)) (p : Nat → Packet)
    (go : Reply → State → State) : State :=
  match s.ctx.asks.find? (fun a => a.pos = s.askPos) with
  | some { pos := _, tag := _, effect := _, place := _, reply := some r } =>
    if r = .again then (s.sendAsk effect place p).stall w
    else go r { s with issue := { s.issue with taken := s.issue.taken + 1 } }
  | some _ => s.stall w
  | none => (s.sendAsk effect place p).stall w

/-- Reads the bytes of one piece at its home or from the forwarded bytes; a fault, an empty line or a reply not yet come
stops the group (R114, R120, R334, R345). -/
def State.readPiece (s : State) (p : Piece) (fwd : List (Option Byte)) (go : List Byte → State → State) : State :=
  if fwd.all Option.isSome then go (fwd.map (fun b => b.getD 0)) s
  else if p.x.pkg = s.pkg then
    match s.homeOf s.ctx.cdie.toNat s.ctx.sup .load p.x.via p.x.addr with
    | .error c => s.raise c p.va
    | .ok h =>
      if !s.feFull h.fe then s.stall (.emptyLine p.va)
      else
        match (List.range p.n).find? (fun i =>
          (fwd[i]?.getD none).isNone && !isSession h.place && s.poisoned (h.place + i) 1) with
        | some i => s.raise cPoison (p.va + BitVec.ofNat 64 i)
        | none =>
          go ((List.range p.n).map (fun i => (fwd[i]?.getD none).getD (s.byteAt (h.place + i))))
            ((s.touchVia p.x.via p.x.addr).countRemote h.place s.pkg s.ctx.cdie.toNat)
  else
    s.ask (if p.x.via = .phys && !isScratch (paLocal p.x.addr) then .reply else .emptyLine p.va) false none
      (fun t => .read p.x.pkg p.x.via s.ctx.cdie.toNat s.ctx.handle t 0 0 p.x.exp p.x.addr p.n) (fun r s =>
      match r with
      | .value v => go ((List.range p.n).map (fun i => (fwd[i]?.getD none).getD (elem 8 v i))) s
      | .fault c a => s.raise c (if c = cRmtFault then p.va else p.va + (a - p.x.addr))
      | .poison a => s.raise cPoison (p.va + (a - p.x.addr))
      | .again => s.stall .reply)

/-- Reads pieces in order. -/
def State.readPieces (s : State) : List (Piece × List (Option Byte)) → (List (List Byte) → State → State) → State
  | [], go => go [] s
  | (p, f) :: ps, go => s.readPiece p f (fun bs s => s.readPieces ps (fun bss s => go (bs :: bss) s))

/-- A tag of the executing sequencer names an uncommitted store that overlaps the locations: with `here`, one in the Curb
of any die, else one in the Curb of another die than d (R226). -/
def State.taggedOver (s : State) (d : Nat) (locs : List (BitVec 15 × Via × Nat)) (here : Bool) : Bool :=
  (List.range 16).any (fun i =>
    match s.ctx.tags[i]?.getD none with
    | some t =>
      t.void.isNone && (here || t.die ≠ d) &&
        (match s.curbEntry t.die t.entry.toNat with
        | some e => (s.entryCover t.die e).any (fun l => locs.contains l)
        | none => false)
    | none => false)

/-- Loads the pieces of an instruction (R118, R119, R121, R122, R226): bytes come from the youngest overlapping entry of
the die's Curb where enough tags are free, otherwise from their homes; the mask is the tags taken. -/
def State.loadPieces (s : State) (ps : List Piece) (go : List (List Byte) → Mask → State → State) : State :=
  let d := s.ctx.cdie.toNat
  let s := s.touchAll s.me (ps.map Piece.va)
  let locs := ps.map (fun p => s.pieceLocs p)
  let sc := ps.any (fun p => p.x.sc)
  let fwd := locs.map (fun ls => ls.map (fun l => s.forwardByte d l))
  let used := ((fwd.flatten.filterMap id).map Prod.fst).eraseDups
  let homes (n : Nat) : List Dest :=
    (((locs.flatten.zip fwd.flatten).filter (fun e => e.2.map Prod.fst = some n)).map (fun e => destOfLoc e.1)).eraseDups
  let own := s.ownOverlap locs.flatten
  let tagged := s.taggedOver d locs.flatten
  if own true || (sc && !s.lateHere.isEmpty) then s.stall .fence
  else if tagged false then s.stall .taint
  else if !sc && used.length ≤ s.ctx.freeTags.length then
    s.readPieces (ps.zip (fwd.map (fun f => f.map (fun b => b.map Prod.snd)))) (fun bss s =>
      let (m, s) := s.takeTags d (used.map (fun n => (n, homes n)))
      go bss m s)
  else if own false then s.stall .fence
  else if tagged true then s.stall .taint
  else s.readPieces (ps.zip (locs.map (fun ls => ls.map (fun _ => none)))) (fun bss s => go bss 0 s)

/-! ### Accepting stores (R123 to R125, R133) -/

/-- The destination die of a translated address for a master of a die (R125): that of its physical address, as far as this
package translates it; a lot window that another package translates leads to its Piazza (log entry 65). A REMOTE page's
destination is the package, distinct from every die of it: die code 6 (R370). -/
def State.destOf (s : State) (die : Nat) (sup : Bool) (x : Xlat) : Nat :=
  if (match x.via with | .remote _ => true | _ => false) then 6
  else if x.pkg = s.pkg then
    match s.homeOf die sup .store x.via x.addr with
    | .ok h => dieOf h.place
    | .error _ => if x.via = .phys then dieOf (paLocal x.addr) else 4
  else
    match x.via with
    | .phys | .copy _ => dieOf (paLocal x.addr)
    | _ => 4

/-- The destination die of an access of the executing sequencer. -/
def State.destDie (s : State) (x : Xlat) : Nat := s.destOf s.ctx.cdie.toNat s.ctx.sup x

/-- A draft lies in the executing core's own scratchpad, reached directly or through a lot window. -/
def State.ownHome (s : State) (x : Xlat) : Option Home :=
  if x.pkg ≠ s.pkg then none
  else
    match x.via with
    | .remote _ => none
    | v =>
      match s.homeOf s.ctx.cdie.toNat s.ctx.sup .store v x.addr with
      | .ok h => if isScratch h.place && scratchCore h.place = s.ctx.coreNo then some h else none
      | .error _ => none

/-- The number of uncommitted stores of a stream of the executing sequencer. -/
def State.streamCount (s : State) (st : BitVec 4) : Nat :=
  (s.earlierEntries.filter (fun e => e.stream = st)).length

/-- Takes the next sequence number of a stream (R124). -/
def State.takeSeqno (s : State) (st : BitVec 4) : BitVec 12 × State :=
  if st = 0 then (0, s)
  else
    let n := s.ctx.nextSeq[st.toNat]?.getD 0
    (n, { s with ctx := { s.ctx with nextSeq := s.ctx.nextSeq.setIfInBounds st.toNat (n + 1) } })

/-- A free entry of a die's Curb, which of them is the device's choice (log entry 6). -/
def State.freeEntry (s : State) (d : Nat) : Option Nat :=
  pickFree (Config.freeNat s.freeCtr) 4096 (fun n => (s.curbEntry d n).isNone)

/-- Two drafts are bytes of one page at one destination. -/
def State.sameRequest (s : State) (a b : Draft) : Bool :=
  a.x.pkg = b.x.pkg && s.destDie a.x = s.destDie b.x && a.x.via = b.x.via && a.x.mc = b.x.mc
    && a.va.toNat / 0x10000 = b.va.toNat / 0x10000 && a.x.addr - a.va = b.x.addr - b.va

/-- One draft for the bytes of both: it begins at the lower address and carries the earlier lease expiry. -/
def Draft.join (a b : Draft) : Draft :=
  let low := if b.va.ult a.va then b else a
  { low with x := { low.x with exp := if b.x.exp.ult a.x.exp then b.x.exp else a.x.exp }, effects := a.effects ++ b.effects }

/-- Adds a draft to the requests of a store: a destination commits its part of the store as one (R124, R130, R341). -/
def State.addDraft (s : State) : List Draft → Draft → List Draft
  | [], b => [b]
  | a :: as, b => if s.sameRequest a b then a.join b :: as else a :: s.addDraft as b

/-- The Curb accepts a store of the executing sequencer under a sequence number, and it is released as soon as the rules
let it. -/
def State.acceptAs (s : State) (kind : StoreKind) (sc : Bool) (st : BitVec 4) (sq : BitVec 12) (group : Option (BitVec 10))
    (offset : W64) (ds : List Draft) : State :=
  let d := s.ctx.cdie.toNat
  match s.freeEntry d with
  | none => s.stall .storeRoom
  | some n =>
    let parts := (ds.foldl (fun as b => s.addDraft as b) []).map (fun x =>
      { pkg := x.x.pkg, die := s.destDie x.x, via := x.x.via, addr := x.x.addr, va := x.va, exp := x.x.exp,
        effects := x.effects, st := PartState.waiting : Part })
    let e : CurbEntry :=
      { num := n, handle := s.ctx.handle, job := s.ctx.job, asid := s.me.asid, sup := s.ctx.sup, kind := kind,
        sc := sc, stream := st, seqno := sq, group := group, offset := offset, released := none,
        order := s.orderNext, parts := parts }
    ({ s.drawFree with orderNext := s.orderNext + 1 }.modCurb d (fun l => l ++ [e])).releaseStores

/-- A store whose queue lags is performed after later groups of the other queue (R71, R73). -/
def State.putLate (s : State) (kind : StoreKind) (st : BitVec 4) (group : Option (BitVec 10)) (offset : W64) (ds : List Draft) :
    State :=
  { s with late := s.late ++ [{ handle := s.ctx.handle, groups := 0, work := .store kind st group offset ds }] }

/-- A store lags: its queue does, and its page is not SC (R119). -/
def State.lags (s : State) (sc : Bool) : Bool := s.issue.late && !sc

/-- What holds a store back from its performance: an overlapping one of its sequencer that lags (R118), or, of an SC store, any
(R119). -/
def State.behindLate (s : State) (sc : Bool) (ds : List Draft) : Bool :=
  !s.lateHere.isEmpty && (sc || s.lateOver (s.draftLocs s.ctx.cdie.toNat s.ctx.sup ds))

/-- A store enters the Curb (R68, R124): it waits for a free entry and for fewer than 1,024 uncommitted stores of its
stream, and takes the stream's next number. -/
def State.accept (s : State) (kind : StoreKind) (sc : Bool) (st : BitVec 4) (group : Option (BitVec 10)) (offset : W64)
    (ds : List Draft) : State :=
  if s.lags sc then s.putLate kind st group offset ds
  else if s.behindLate sc ds || (st ≠ 0 && decide (1024 ≤ s.streamCount st)) then s.stall .storeRoom
  else
    let (sq, s) := s.takeSeqno st
    s.acceptAs kind sc st sq group offset ds

/-- Puts a store of the executing sequencer (R118, R123, R125, R133): to the core's own scratchpad it is written at once,
under its stream's release rule; every other store, and every accumulating store, enters the Curb. -/
def State.putStore (s : State) (kind : StoreKind) (st : BitVec 4) (ds : List Draft) : State :=
  let s := s.touchAll s.me (ds.map Draft.va)
  let homes := ds.map (fun x => s.ownHome x.x)
  let sc := ds.any (fun x => x.x.sc)
  if kind = .plain && !ds.isEmpty && homes.all Option.isSome then
    let es := (ds.zip homes).flatMap (fun (x, h) =>
      x.effects.map (fun e =>
        let h := h.getD { place := 0, fe := none }
        ({ h with place := h.place + (effAddr e - x.x.addr).toNat }, e)))
    if s.lags sc then s.putLate kind st none 0 ds
    else if s.behindLate sc ds || (st ≠ 0 && decide (0 < s.streamCount st)) then s.stall .storeRoom
    else if s.ownOverlap (es.map (fun e => (s.pkg, .phys, e.1.place))) false then s.stall .storeRoom
    else if sc && !s.earlierEntries.isEmpty then s.stall .fence
    else (s.takeSeqno st).2.applyMem { who := s.me, pkg := s.pkg } es
  else s.accept kind sc st none 0 ds

/-! ### Arrival at the home (R125, R126, R229, R341) -/

/-- The issuer of an entry as the master whose return word lands. -/
def CurbEntry.issuer (e : CurbEntry) (d : Nat) (pkg : BitVec 15) : Issuer :=
  { who := { die := d, asid := e.asid, job := e.job, sup := e.sup }, pkg := pkg }

/-- The effects of a part with their homes. -/
def Part.placed (p : Part) (h : Home) : List (Home × Effect) :=
  p.effects.map (fun e => ({ h with place := h.place + (effAddr e - p.addr).toNat }, e))

/-- The order rules let a released part commit: the order of its stream, which a part sent on to another home keeps (R125,
R233), the coherence of forwarded bytes (R226) and, homed on the issuer's die but not in its core's scratchpad, the order of
releases (R229). -/
def State.mayCommit (s : State) (d : Nat) (e : CurbEntry) (p : Part) : Bool :=
  let before := (s.entriesOf e.handle).filter (fun x => x.order ≠ e.order && (x.parts.any Part.pending || x.group.isSome))
  (e.stream = 0 || before.all (fun x => x.stream ≠ e.stream || decide (e.order ≤ x.order)))
    && !s.behindForwarded d e [p]
    && (!s.dieLocalPart d e p ||
      before.all (fun x => x.group.isSome || !x.parts.any (fun q => q.pending && s.dieLocalPart d x q) ||
        match x.released, e.released with
        | some m, some n => decide (n ≤ m)
        | _, _ => true))

/-- The record of a parked request (Table 14.6, kind 4). -/
def parkRec (code : BitVec 8) (handle : BitVec 24) (job : BitVec 16) (stream : BitVec 4) (seqno : BitVec 12)
    (pkg : BitVec 15) (va : W64) (num : Nat) : TrapRec :=
  { mkRec 4 code (handle.zeroExtend 32) job va (BitVec.ofNat 64 (stream.toNat + 16 * seqno.toNat
      + 2 ^ 16 * handle.toNat + 2 ^ 40 * pkg.toNat)) with parked := some num }

/-- Parks work at a home with its kind-4 record in the queue of a die (R341, R397). -/
def State.parkWork (s : State) (die : Nat) (r : TrapRec) (work : ParkedWork) : State :=
  let q := (s.dieAt (queueDie die)).queue
  let slot := if q.pending < 1024 then some (q.tail.toNat % 1024) else none
  let p : Parked := { num := s.parkNext, die := queueDie die, slot := slot, work := work }
  State.post { s with parkNext := s.parkNext + 1, parked := s.parked ++ [p] } (queueDie die)
    { r with parked := some s.parkNext }

/-- Changes part p of entry n of die d. -/
def State.modPart (s : State) (d n p : Nat) (f : Part → Part) : State :=
  s.modCurb d (lmod (fun x => x.num = n) (fun x =>
    { x with parts := (x.parts.zipIdx).map (fun q => if q.2 = p then f q.1 else q.1) }))

/-! ### Acknowledgment (R33, R126, R127, R231, R232) -/

/-- The address of the first dropped part of an entry. -/
def CurbEntry.dropAddr (e : CurbEntry) : Option W64 :=
  e.parts.findSome? (fun p => match p.st with | .dropped a => some a | _ => none)

/-- Clears the bits of a mask from a resident context, where the binding takes place in one step; a context that holds no
slot keeps its table and shows RECON until its restore (R33, R34). -/
def Seqr.bindTags (q : Seqr) (m : Mask) : Seqr :=
  if q.isResident then q.clearTags m
  else
    { q with
      recon := q.recon || m ≠ 0
      tags := Vector.ofFn (fun i =>
        if m.getLsbD i then (q.tags[i]).map (fun t => { t with bound := true }) else q.tags[i]) }

/-- The tags of a context that name entry n of die d. -/
def Seqr.tagsOn (q : Seqr) (d n : Nat) : Mask :=
  BitVec.ofNat 16 (packNat 1 (fun i => match q.tags[i]?.getD none with
    | some t => if t.die = d && t.entry.toNat = n && !t.bound && t.void.isNone then 1 else 0
    | none => 0) 16)

/-- The union of every taint mask of a context. -/
def Seqr.allMasks (q : Seqr) : Mask :=
  (q.g.toList.map TReg.taint ++ q.b.toList.map TReg.taint ++ q.k.toList.map TReg.taint ++ q.v.toList.map VReg.taint).foldl
    (fun a b => a ||| b) q.ctaint

/-- The context waits at a fence. -/
def Seqr.atFence (q : Seqr) : Bool := match q.wait with | some (.fence, _) => true | _ => false

/-- Voids the tags of a mask (R232): those that no mask of the context carries, and no fence waits for, are cleared
silently. -/
def Seqr.voidTags (q : Seqr) (m : Mask) (a : W64) : Seqr :=
  let carried : Mask := if q.atFence then BitVec.allOnes 16 else q.allMasks
  let q := q.clearTags (m &&& ~~~carried)
  { q with tags := Vector.ofFn (fun i =>
      if (m &&& carried).getLsbD i then (q.tags[i]).map (fun t => { t with void := some a }) else q.tags[i]) }

/-- Applies f to every sequencer. -/
def State.mapSeqs (s : State) (f : Seqr → Seqr) : State := { s with ctx := f s.ctx, seqs := s.seqs.map f }

/-- The homes of a multicast store (R143): its members on this package, and what lies beyond it. -/
def State.memberDests (s : State) (offset : W64) (g : BitVec 10) : List Dest :=
  let gr := s.group g.toNat
  ((List.range 4).filter (fun m => gr.dies.getLsbD m)).map (fun m =>
      destOfLoc (s.pkg, .phys, paLocal ((gr.base[m]?.getD 0) + offset)))
    ++ [{ pkg := ~~~s.pkg, die := 4, core := none }]

/-- The losses that an acknowledged entry reports: one for each destination and dropped address (R127). -/
def State.lossesOf (s : State) (d : Nat) (e : CurbEntry) : List Loss :=
  e.parts.filterMap (fun p =>
    match p.st with
    | .dropped a =>
      let core := if s.ownCorePart d e p then (s.seqOf e.handle).map Seqr.coreNo else none
      some { stream := e.stream
             dests := (e.group.elim [{ pkg := p.pkg, die := s.partDie d e p, core := core }] (s.memberDests e.offset)), addr := a }
    | _ => none) |>.eraseDups

/-- The return address of an entry's read-modify-write, if it has one. -/
def CurbEntry.retAddr (e : CurbEntry) : W64 :=
  ((e.parts.flatMap Part.effects).findSome? (fun f => match f with | .rmw _ _ _ _ r => some r | _ => none)).getD 0

/-- Parts of an entry are parked no more: their count toward cr.holdmax is cancelled (R342). -/
def State.unhold (s : State) (d : Nat) (e : CurbEntry) (parts : Nat → Bool) : State :=
  s.modSeq e.handle (fun q =>
    { q with heldStreams := q.heldStreams.filter (fun x => !(x.1 = d && x.2.1 = e.num && parts x.2.2.1)) })

/-- An entry whose every part is committed or dropped is acknowledged: its tags bind or become void, losses are kept for
its issuer and a dropped `xrmw` returns 0 (R186), the entry is free, and what waited for it is released. -/
def State.finishEntry (s : State) (d n : Nat) : State :=
  match s.curbEntry d n with
  | none => s
  | some e =>
    if e.parts.any Part.pending then s
    else
      let s := match e.dropAddr with
        | none => s.mapSeqs (fun q => q.bindTags (q.tagsOn d n))
        | some a =>
          let lost := s.lossesOf d e
          ((s.returnWord (e.issuer d s.pkg) e.retAddr 0).mapSeqs (fun q => q.voidTags (q.tagsOn d n) a)).modSeq e.handle
            (fun q => { q with losses := q.losses ++ lost })
      let s := s.unhold d e (fun _ => true)
      (s.modCurb d (fun l => l.filter (fun x => x.num ≠ n))).releaseStores

/-! ### Landing -/

/-- Part i of an entry is translated again at its source die (R334), or parked as by a destination-side fault (R342); EXP 0
then says that a RETRY translates it again. The record goes to the queue of the die of the home the request was returned from
(DEDUCED, log entry 26), or, where that home is in another package, to the source die's. -/
def State.retranslate (s : State) (die : Nat) (e : CurbEntry) (i : Nat) : State :=
  match (s.curbEntry die e.num).bind (fun e => e.parts[i]?) with
  | none => s
  | some p =>
    let w := (e.issuer die s.pkg).who
    match s.translate w (if e.kind = .mark then .bit else .store) p.va p.span with
    | .error (c, va) =>
      let qd := if p.pkg = s.pkg then p.die else die
      (s.modPart die e.num i (fun (p : Part) => { p with st := .parked, exp := 0, pkg := s.pkg, die := qd })).parkWork qd
        (parkRec c e.handle e.job e.stream e.seqno s.pkg va 0) (.store die e.num i)
    | .ok x =>
      (s.touch w p.va).modPart die e.num i (fun (p : Part) =>
        { p with
          pkg := x.pkg, die := s.destOf die e.sup x, via := x.via, addr := x.addr, exp := x.exp, st := .waiting,
          effects := p.effects.map (moveEffect (x.addr - p.addr)) })

/-- Parts of an entry are translated again and sent again with their stream and number (R334). -/
def State.resend (s : State) (die : Nat) (e : CurbEntry) (is : List Nat) : State :=
  let s := is.foldl (fun s i => s.retranslate die e i) s
  match s.curbEntry die e.num with
  | none => s
  | some e => s.sendParts die e (is.filterMap (fun i => (e.parts[i]?).filter (fun p => p.st = .waiting)))

/-- A part of an entry is applied at its home, held, or parked; where its lot's save copy lies in another package it goes there
(R330). A store whose destination is its own die is acknowledged on
being written (R126). -/
def State.landPart (s : State) (d : Nat) (e : CurbEntry) (i : Nat) (p : Part) : State :=
  let parkIt (s : State) (code : BitVec 8) (a : W64) (die : Nat) : State :=
    (s.modPart d e.num i (fun p => { p with st := .parked })).parkWork die
      (parkRec code e.handle e.job e.stream e.seqno s.pkg (p.va + (a - p.addr)) 0) (.store d e.num i)
  match s.partHome d e p with
  | .error c =>
    if (match p.via with | .lot job seq => (s.lotAway d job seq.toNat p.addr.toNat).isSome | _ => false) then s.resend d e [i]
    else parkIt s c (((s.partFault d e p).map Prod.snd).getD p.addr) (if p.die < 4 then p.die else 4)
  | .ok h =>
    let s := s.touchVia p.via p.addr
    match s.frameOf h with
    | some f => s.migrationHold f (.arrive (.curb d e.num i))
    | none =>
      match s.applyHomes (e.issuer d s.pkg) (some e.job) (p.placed h) with
      | .done s =>
        let s := (s.countRemote h.place s.pkg d).modPart d e.num i (fun (p : Part) => { p with st := .committed })
        if e.group.isNone && e.parts.all (fun q => q.pkg = s.pkg && q.die = d) then s.finishEntry d e.num else s
      | .held =>
        let n := (slotPlace h.place).1
        s.modSession n (fun x =>
          if x.heldStores.contains (.arrive (.curb d e.num i)) then x
          else { x with heldStores := x.heldStores ++ [.arrive (.curb d e.num i)] })
      | .fault c => parkIt s c p.addr (dieOf h.place)

/-- A part of a Curb entry reaches its destination (R125, R126, R334): nothing happens while it is not released, its
order does not let it commit, or its lease ran out more than 2,000 ns ago. -/
def State.arrivePart (s : State) (d n i : Nat) : State :=
  match s.curbEntry d n with
  | none => s
  | some e =>
    match e.parts[i]? with
    | none => s
    | some p =>
      if p.pkg ≠ s.pkg || p.st ≠ .waiting || e.released.isNone || e.group.isSome || !s.mayCommit d e p
        || s.tooLate p.exp then s
      else s.landPart d e i p

/-- A request of another package is parked. -/
def State.parkOutside (s : State) (r : ExtRequest) (code : BitVec 8) (va : W64) (die : Nat) : State :=
  let s := s.parkWork die (parkRec code r.handle r.job r.stream r.seqno r.srcPkg va 0) (.outside r)
  if r.stream = 0 then s else s.emit (.heldNotice r.srcPkg r.handle r.stream r.seqno)

/-- The homes of a request's effects, or the fault of the first that has none. -/
def State.outsideHomes (s : State) (r : ExtRequest) : List Effect → Except (BitVec 8 × W64) (List (Home × Effect))
  | [] => .ok []
  | e :: es =>
    let last := match e with | .check a n => a + BitVec.ofNat 64 (n - 1) | e => effAddr e
    match s.homeOf 4 r.sup .store r.via (effAddr e), s.homeOf 4 r.sup .store r.via last with
    | .error c, _ => .error (c, effAddr e)
    | _, .error c => .error (c, last)
    | .ok h, .ok _ =>
      match s.outsideHomes r es with
      | .error x => .error x
      | .ok hs => .ok ((h, e) :: hs)

/-- A physical address that holds neither memory nor session slots (Table 14.1). -/
def unlistedPa (a : W64) : Bool := !(hasMemory (paLocal a) || isSession (paLocal a))

/-- A port freezes, with its record in die 0's queue (R328, R343). -/
def State.freezePort (s : State) (port : Nat) (job : BitVec 16) (a : W64) : State :=
  (s.modPort port (fun p => { p with frozen := true })).post 0 (mkRec 3 cXlate (BitVec.ofNat 32 (3 * 2 ^ 28 + port)) job a 0)

/-- A request of another package commits here: the number of its stream's last store is kept, with the number of that store's
requests which are still to come (R125). -/
def State.streamDone (s : State) (r : ExtRequest) : State :=
  if r.stream = 0 then s
  else
    let key := (r.srcPkg, r.handle, r.stream)
    let left := match s.streamsDone.find? (fun e => e.1 = key && e.2.1 = r.seqno) with
      | some e => e.2.2 - 1
      | none => r.of - 1
    { s with streamsDone := (key, r.seqno, left) :: s.streamsDone.filter (fun e => e.1 ≠ key) }

/-- A request waits in the reorder buffer: the store of its stream that must commit here before it has not committed whole, and
no other request of its own store has been let through (R125). -/
def State.early (s : State) (r : ExtRequest) : Bool :=
  match if r.stream = 0 then none else r.pred with
  | none => false
  | some n => !(s.streamsDone.any (fun e => e.1 = (r.srcPkg, r.handle, r.stream) &&
      ((e.2.1 = n && e.2.2 = 0) || e.2.1 = r.seqno)))

/-- An earlier store of the request's stream is parked here (R127, R341). -/
def State.behindParked (s : State) (r : ExtRequest) : Bool :=
  r.stream ≠ 0 && s.parked.any (fun p =>
    match p.work with
    | .outside x => x.srcPkg = r.srcPkg && x.handle = r.handle && x.stream = r.stream && x.seqno ≠ r.seqno
    | _ => false)

/-- The home port's record of the source of a unit (R286). -/
def State.unitRecord (s : State) (r : ExtRequest) (u : UnitId) : Option UnitRecord :=
  s.unitRecords.find? (fun x => x.pkg = r.srcPkg && x.die = u.die && x.ch = u.ch)

/-- A unit with an identity has been applied, with the old word it returns; those below the highest watermark that the source has
sent in this claim are confirmed (R286). -/
def State.unitApplied (s : State) (r : ExtRequest) (old : W32) : State :=
  match r.unit with
  | none => s
  | some (u, low) =>
    let (was, done) := match s.unitRecord r u with
      | some x => if x.claim = u.claim then (x.low, x.done) else (0, [])
      | none => (0, [])
    let low := Nat.max was low
    { s with unitRecords :=
        { pkg := r.srcPkg, die := u.die, ch := u.ch, claim := u.claim, low := low,
          done := ((u.unit, old) :: done).filter (fun x => decide (low ≤ x.1)) }
          :: s.unitRecords.filter (fun x => !(x.pkg = r.srcPkg && x.die = u.die && x.ch = u.ch)) }

/-- The old word of a unit or command that was applied before: it is not applied again, nor is one of an earlier claim, whose
units are all confirmed (R286). -/
def State.unitDone (s : State) (r : ExtRequest) : Option W32 :=
  match r.unit with
  | none => none
  | some (u, _) =>
    if r.effects.all (fun e => match e with | .byte _ _ => true | _ => false) then none
    else
      match s.unitRecord r u with
      | none => none
      | some x =>
        if x.claim ≠ u.claim then (if (u.claim - x.claim).slt 0 then some 0 else none)
        else if u.unit < x.low then some 0
        else (x.done.find? (fun y => y.1 = u.unit)).map Prod.snd

/-- The acknowledgment of a request, with the old word of a returning read-modify-write (R185). -/
def State.ackOutside (s : State) (r : ExtRequest) (old : W32) : State :=
  let returning := r.effects.any (fun e => match e with | .rmw _ _ _ _ a => a ≠ 0 | _ => false)
  s.emit (.storeAck r.srcPkg r.handle r.stream r.seqno (if returning then .swapped old else .committed))

/-- Bytes as a reply carries them. -/
def replyOf (bs : List Byte) : Reply := .value (BitVec.ofNat 2048 (ofBytes bs))

/-- What a home answers to a request for bytes by another package (R120, R135, R137, R139, R345, R395); none where it waits there.
An `ldfe` waits by the request 6, which keeps its place among those that wait at the line, and takes the word by the request 1,
answered by lane 1 where the line is empty or taken; 7 gives the place up. -/
def State.answerAt (s : State) (r : ExtRequest) (h : Home) (a : W64) (what : Nat) (operand : W32) (n : Nat) : State × Option Reply :=
  match what with
  | 1 =>
    (match h.fe with
    | none => (s, some (.fault cPerm a))
    | some f =>
      if (s.frameOf h).isSome then (s, none)
      else if !s.feFull h.fe || !s.ldfeFirst f r.srcPkg r.handle then (s, some (.value (1 <<< 32)))
      else if s.poisoned h.place 4 then (s.leaveLdfe r.srcPkg r.handle, some (.poison a))
      else ((s.leaveLdfe r.srcPkg r.handle).feSet false h.fe, some (replyOf (s.bytesAt h.place 4))))
  | 2 => (s, some (if h.fe.isNone then .fault cPerm a else replyOf (leBytes (if s.feFull h.fe then 1 else 0) 4)))
  | 3 =>
    if !hasMemory h.place then (s, some (.fault cPerm a))
    else if (s.migrationAt h.place).isSome then (s, none)
    else if s.poisoned h.place 12 then (s, some (.poison a))
    else ((s.writeLE h.place operand.toNat 4).writeLE (h.place + 4) 0 4, some (replyOf (s.bytesAt (h.place + 8) 4)))
  | 4 =>
    if !hasMemory h.place then (s, some (.fault cPerm a))
    else if s.poisoned (h.place + 8) 4 then (s, some (.poison a))
    else if (0 : W32).slt (BitVec.ofNat 32 (s.readLE (h.place + 8) 4) - operand) then
      (s, some (replyOf (s.bytesAt (h.place + 8) 4)))
    else (s, none)
  | 6 =>
    (match h.fe with
    | none => (s, some (.fault cPerm a))
    | some f =>
      let s := s.joinLdfe f r.srcPkg r.handle
      if !s.feFull h.fe || !s.ldfeFirst f r.srcPkg r.handle then (s, none) else (s, some (.value 0)))
  | 7 => (s.leaveLdfe r.srcPkg r.handle, none)
  | _ =>
    if !s.feFull h.fe then (s, none)
    else if !isSession h.place && s.poisoned h.place n then (s, some (.poison a))
    else (s, some (replyOf (s.bytesAt h.place n)))

/-- Where the home of a request's first byte is now, if its lot's save copy lies in another package (R254, R330). -/
def State.awayOf (s : State) (r : ExtRequest) : Option Xlat :=
  match r.via, r.effects with
  | .lot job seq, e :: _ => s.lotAway 4 job seq.toNat (effAddr e).toNat
  | _, _ => none

/-- A request of another package goes on to a third, where its home is now, under a number of its own; its answer returns the
same way (R254, R330, R337). What has been sent on already is not sent twice. -/
def State.sendOn (s : State) (r : ExtRequest) (pkg : BitVec 15) (via : Via) (exp : W64) (es : List Effect) : State :=
  let dist := effAddr (es.headD (.mark 0 true)) - effAddr (r.effects.headD (.mark 0 true))
  if s.proxies.any (fun p => p.req = r) then s
  else
    let n := s.proxyNext
    let kept := match r.effects with | [.read _ 7 _ _] => s.proxies | _ => s.proxies ++ [{ num := n, req := r, dist := dist }]
    let s := { s with proxies := kept, proxyNext := n + 1 }
    match es with
    | [.read a what operand m] => s.emit (.read pkg via 4 r.handle (2 ^ 40 + n) what operand exp a m)
    | _ =>
      s.emit (.store pkg 4 r.handle r.job r.stream r.seqno none 1
        (some ({ die := 4, ch := 129, claim := 0, unit := n }, s.proxies.foldl (fun m p => Nat.min m p.num) n)) via exp es)

/-- A request whose lot's save copy lies in another package goes there. -/
def State.sendAway (s : State) (r : ExtRequest) (x : Xlat) : State :=
  s.sendOn r x.pkg x.via x.exp (r.effects.map (moveEffect (x.addr - effAddr (r.effects.headD (.mark 0 true)))))

/-- A request for bytes by another package is answered by its home, which counts it (R333, R336). -/
def State.answerRead (s : State) (r : ExtRequest) (a : W64) (what : Nat) (operand : W32) (n : Nat) : State × Option Reply :=
  match s.awayOf r with
  | some x => (s.sendAway r x, none)
  | none =>
  match s.homeOf 4 r.sup (if what = 1 || what = 6 then .bit else if what = 3 then .store else .load) r.via a with
  | .error c => (s, some (.fault c a))
  | .ok h =>
    match s.answerAt r h a what operand n with
    | (s, some x) =>
      (if what = 6 then s else (s.touchVia r.via a).countRemote h.place r.srcPkg r.srcDie, some x)
    | x => x

/-- A request of another package is performed at its home here (R126, R185, R286, R341): one that was applied before is only
acknowledged. -/
def State.landOutside (s : State) (r : ExtRequest) : State :=
  match s.unitDone r with
  | some old => s.ackOutside r old
  | none =>
    match s.awayOf r with
    | some x => s.sendAway r x
    | none =>
    match s.outsideHomes r r.effects with
    | .error (c, a) => s.parkOutside r c a 4
    | .ok hs =>
      let s := r.effects.foldl (fun s e => s.touchVia r.via (effAddr e)) s
      match hs.findSome? (fun h => s.frameOf h.1) with
      | some a => s.migrationHold a (.arrive (.outside r))
      | none =>
        let who : Who := { die := 4, asid := 0, job := r.job, sup := r.sup }
        let old := ((rmwOf hs).map (fun x => s.oldWord x.1)).getD 0
        match s.applyHomes { who := who, pkg := r.srcPkg } (some r.job) hs with
        | .done s =>
          (hs.take 1).foldl (fun s h => s.countRemote h.1.place r.srcPkg r.srcDie) (((s.unitApplied r old).streamDone r).ackOutside r old)
        | .held =>
          match hs with
          | [] => s
          | (h, _) :: _ =>
            s.modSession (slotPlace h.place).1 (fun x =>
              if x.heldStores.contains (.arrive (.outside r)) then x
              else { x with heldStores := x.heldStores ++ [.arrive (.outside r)] })
        | .fault c =>
          s.parkOutside r c (effAddr (hs.headD ({ place := 0, fe := none }, .mark 0 true)).2)
            (dieOf (hs.headD ({ place := 0, fe := none }, .mark 0 true)).1.place)

/-- A request whose predecessor in its stream is parked, or has not committed here, waits in the reorder buffer (R125,
R341). -/
def State.orderOutside (s : State) (r : ExtRequest) : State :=
  if s.early r || s.behindParked r then
    { s with reorder := if s.reorder.contains r then s.reorder else s.reorder ++ [r] }
  else s.landOutside r

/-- The stores of the reorder buffer that a commit has let through, in turn (R125). -/
def State.drainReorder (s : State) : Nat → State
  | 0 => s
  | n + 1 =>
    match s.reorder.find? (fun r => !s.early r && !s.behindParked r) with
    | none => s
    | some r => ({ s with reorder := s.reorder.filter (fun x => x ≠ r) }.landOutside r).drainReorder n

/-- A request of another package arrives (R126, R313, R328, R334, R341): a frozen port issues nothing; an offset that holds
nothing freezes the port; a stale request is returned; a request for bytes is answered by its home. -/
def State.arriveOutside (s : State) (r : ExtRequest) : State :=
  if (s.port r.port).frozen then s
  else if r.via = .phys && r.effects.any (fun e => unlistedPa (effAddr e)) then
    s.freezePort r.port r.job ((r.effects.find? (fun e => unlistedPa (effAddr e))).elim 0 effAddr)
  else
    match r.effects with
    | [.read a what operand n] =>
      (match if s.tooLate r.expiry then (s, some .again) else s.answerRead r a what operand n with
      | (s, some x) => s.emit (.readReply r.srcPkg r.handle r.tag x)
      | (s, none) => s)
    | _ =>
      if s.tooLate r.expiry then s.emit (.returned r.srcPkg r.handle r.stream r.seqno (r.unit.map Prod.fst))
      else
        let s := s.orderOutside r; s.drainReorder s.reorder.length

/-- A request of another package is performed, or goes on, and what waited for it in the reorder buffer follows. -/
def State.landOutsideAll (s : State) (r : ExtRequest) : State := let s := s.landOutside r; s.drainReorder s.reorder.length

/-- The acknowledgment of a request that was sent on reaches this package and is passed to its source (R126, R286). -/
def State.proxyAck (s : State) (n : Nat) (k : AckKind) : State :=
  match s.proxies.find? (fun p => p.num = n) with
  | none => s
  | some p =>
    let s := { s with proxies := s.proxies.filter (fun x => x.num ≠ n) }
    let r := p.req
    let s := match k with
      | .dropped a => ((s.streamDone r).unitApplied r 0).emit (.storeAck r.srcPkg r.handle r.stream r.seqno (.dropped (a - p.dist)))
      | .committed => ((s.unitApplied r 0).streamDone r).ackOutside r 0
      | .swapped old => ((s.unitApplied r old).streamDone r).ackOutside r old
    s.drainReorder s.reorder.length

/-- A piece of a host write is parked with its record, which names the connection and this package (R340, R341, R382). -/
def State.parkHost (s : State) (p : HostPart) (code : BitVec 8) (die : Nat) : State :=
  s.parkWork die (mkRec 4 code (BitVec.ofNat 32 (2 ^ 30 + p.conn)) 0 ((p.bytes.head?).elim 0 Prod.fst)
    (BitVec.ofNat 64 (2 ^ 40 * s.pkg.toNat))) (.hostWrite p)

/-- The acknowledgment of a part of a host write comes from its home in another package (R382). Which status a part dropped there
gets the spec leaves open: XLATE or PERM. -/
def State.hostAck (s : State) (n : Nat) (k : AckKind) : State :=
  match s.hostFar.find? (fun x => x.1 = n) with
  | none => s
  | some (_, p) =>
    { s with hostFar := s.hostFar.filter (fun x => x.1 ≠ n) }.drawFree.later
      (match k with
      | .dropped _ => .hostDropped p (if Config.freeNat s.freeCtr % 2 = 0 then 2 else 3)
      | _ => .hostWrite { p with bytes := [] })

/-- A part of a host write is returned by its home: it is made again (R334). -/
def State.hostReturned (s : State) (n : Nat) : State :=
  match s.hostFar.find? (fun x => x.1 = n) with
  | none => s
  | some (_, p) => { s with hostFar := s.hostFar.filter (fun x => x.1 ≠ n) }.later (.hostWrite p)

/-- A request that was sent on is returned by its home: it is performed here or sent on anew (R334). -/
def State.proxyAgain (s : State) (n : Nat) : State :=
  match s.proxies.find? (fun p => p.num = n) with
  | none => s
  | some p => { s with proxies := s.proxies.filter (fun x => x.num ≠ n) }.landOutsideAll p.req

/-- A reply whose addresses move back by a distance. -/
def replyBack (dist : W64) : Reply → Reply
  | .again => .again
  | .value v => .value v
  | .fault c a => .fault c (a - dist)
  | .poison a => .poison (a - dist)

/-- The answer to a request for bytes that was sent on goes to its source; one that was returned is returned there (R334). -/
def State.proxyReply (s : State) (n : Nat) (x : Reply) : State :=
  match s.proxies.find? (fun p => p.num = n) with
  | none => s
  | some p =>
    { s with proxies := s.proxies.filter (fun x => x.num ≠ n) }.emit
      (.readReply p.req.srcPkg p.req.handle p.req.tag (replyBack p.dist x))

/-- The HELD notice about a request that was sent on is passed to its source (R342). -/
def State.proxyHeld (s : State) (n : Nat) : State :=
  match s.proxies.find? (fun p => p.num = n) with
  | none => s
  | some p => if p.req.stream = 0 then s else s.emit (.heldNotice p.req.srcPkg p.req.handle p.req.stream p.req.seqno)

/-- A request that was held at its home, a FULL slot or a migrating frame, is performed there now (R322, R337). -/
def State.landHeld (s : State) : ArriveSrc → State
  | .curb d n i =>
    (match s.curbEntry d n with
    | none => s
    | some e =>
      match e.parts[i]? with
      | none => s
      | some p => if p.st = .waiting then s.landPart d e i p else s)
  | .outside r => s.landOutsideAll r

/-- A held request of a FREE entry's slot is discarded and acknowledged (R319). -/
def State.discardRequest (s : State) : ArriveSrc → State
  | .curb d n i => (s.modPart d n i (fun p => { p with st := .committed })).finishEntry d n
  | .outside r => let s := (s.streamDone r).ackOutside r 0; s.drainReorder s.reorder.length

/-- A store-like request reaches its destination. -/
def State.arrive (s : State) : ArriveSrc → State
  | .curb d n i => s.arrivePart d n i
  | .outside r => s.arriveOutside r

end Sys2Proof.Machine
end

