-- ==== Sys2Proof/Machine/Loads.lean ====
section
/-!
DEFINITION. Loads, gathers and `ldfe` (spec/05_memory_instructions.md R112 to R122, R130, R137).
-/

namespace Sys2Proof.Machine

/-- An M-slot access: held on tainted operands and cr.ctaint (R117) and on an SC access in progress (R119). -/
def State.mslot (s : State) (m : Mask) (go : State → State) : State :=
  s.hold (m ||| s.src.ctaint) (fun s => if s.scPending then s.stall .fence else go s)

/-- The pieces of an access, translated and checked; a failed check traps (R114). -/
def State.checked (s : State) (u : Use) (ps : List (W64 × Nat)) (go : List Piece → State → State) : State :=
  match s.translateAll s.me u ps with
  | .error (c, a) => s.raise c a
  | .ok l => go (toPieces l) s

/-- Loads the n aligned bytes of an access (R113, R114, R120). -/
def State.loadAt (s : State) (a : W64) (n align : Nat) (go : List Byte → Mask → State → State) : State :=
  if a.toNat % align ≠ 0 then s.raise cAlign a
  else s.checked .load (accessPieces a n) (fun ps s => s.loadPieces ps (fun bss m s => go bss.flatten m s))

/-- A scalar load of n bytes (R112, R120). -/
def State.loadScalar (s : State) (b : BitVec 3) (x : BitVec 5) (i : BitVec 6) (n : Nat)
    (go : Nat → Mask → State → State) : State :=
  s.mslot (s.addrMask b x) (fun s => s.loadAt (s.ea b x n i) n n (fun bs m s => go (ofBytes bs) m s))

/-- `ld.i8` (R120). -/
def execLdI8 (t : BitVec 5) (b : BitVec 3) (x : BitVec 5) (i : BitVec 6) (s : State) : Out :=
  .next (s.loadScalar b x i 1 (fun v m s => s.wg t ((BitVec.ofNat 8 v).signExtend 32) m))

/-- `ld.n8` (R120). -/
def execLdN8 (t : BitVec 5) (b : BitVec 3) (x : BitVec 5) (i : BitVec 6) (s : State) : Out :=
  .next (s.loadScalar b x i 1 (fun v m s => s.wg t ((BitVec.ofNat 8 v).zeroExtend 32) m))

/-- `ld.i16` (R120). -/
def execLdI16 (t : BitVec 5) (b : BitVec 3) (x : BitVec 5) (i : BitVec 6) (s : State) : Out :=
  .next (s.loadScalar b x i 2 (fun v m s => s.wg t ((BitVec.ofNat 16 v).signExtend 32) m))

/-- `ld.n16` (R120). -/
def execLdN16 (t : BitVec 5) (b : BitVec 3) (x : BitVec 5) (i : BitVec 6) (s : State) : Out :=
  .next (s.loadScalar b x i 2 (fun v m s => s.wg t ((BitVec.ofNat 16 v).zeroExtend 32) m))

/-- `ld.w` (R120). -/
def execLdW (t : BitVec 5) (b : BitVec 3) (x : BitVec 5) (i : BitVec 6) (s : State) : Out :=
  .next (s.loadScalar b x i 4 (fun v m s => s.wg t (BitVec.ofNat 32 v) m))

/-- `ldb` (R17, R120). -/
def execLdb (t b : BitVec 3) (x : BitVec 5) (i : BitVec 6) (s : State) : Out :=
  .next (s.loadScalar b x i 8 (fun v m s => s.wb t (BitVec.ofNat 64 v) m))

/-- The tag an `ldv` sub-operation gives (R120). -/
def ldvTag (m : BitVec 4) : BitVec 4 := if m = 7 then 0 else m + 1

/-- `ldv`: 256 bytes unchanged with the tag of its sub-operation; a code 56 to 63 pushes them to a drain port (R120): PORT is
raised before ALIGN or a failed translation (DESIGN CHOICE, log entry 74). -/
def execLdv (t : BitVec 6) (b : BitVec 3) (x : BitVec 5) (m : BitVec 4) (i : BitVec 6) (s : State) : Out :=
  .next (s.mslot (s.addrMask b x) (fun s =>
    if 56 ≤ t.toNat && (s.src.port (t.toNat - 56)).bind ≠ 2 then s.raise cPort 0
    else
      s.loadAt (s.ea b x 256 i) 256 128 (fun bs tm s =>
        let v : Vec := BitVec.ofNat 2048 (ofBytes bs)
        if t.toNat < 56 then s.wv t.toNat { val := v, tag := ldvTag m, aux := 0, taint := tm }
        else s.pushPort (t.toNat - 56) { val := v, tag := 0, aux := 0, taint := tm })))

/-- The address of lane l of a gather or scatter (R130). -/
def laneAddr (base : W64) (ix : Vec) (l : Nat) : W64 := base + BitVec.ofInt 64 ((lane ix l).toInt * 4)

/-- The active lanes of a gather or scatter with their addresses. -/
def laneAddrs (base : W64) (ix : Vec) (p : W64) : List (Nat × W64) :=
  ((List.range 64).filter (fun l => active p l)).map (fun l => (l, laneAddr base ix l))

/-- The checks of a gather or scatter before its addresses are translated: the index register and its tag (R130), and
each active lane's alignment (R113). -/
def State.lanesOf (s : State) (b : BitVec 3) (v : BitVec 6) (k : BitVec 3) (go : List (Nat × W64) → State → State) : State :=
  let ls := laneAddrs (s.rb b).val (s.src.rv v.toNat).val (s.rk k).val
  if (s.src.rv v.toNat).tag ≠ 5 then s.raise cFmtTag 0
  else
    match ls.find? (fun l => l.2.toNat % 4 ≠ 0) with
    | some l => s.raise cAlign l.2
    | none => go ls s

/-- `vgath`: active lanes are loaded, the others keep their value; the destination keeps its tag, and its mask gains the
tags taken (R122, R130). -/
def execVgath (t : BitVec 6) (b : BitVec 3) (v : BitVec 6) (k : BitVec 3) (s : State) : Out :=
  .next (
    if 56 ≤ v.toNat || 56 ≤ t.toNat then s.raise cPort 0
    else
      s.mslot ((s.rb b).taint ||| (s.src.rv v.toNat).taint ||| (s.rk k).taint) (fun s =>
        s.lanesOf b v k (fun ls s =>
          s.checked .load (ls.map (fun l => (l.2, 4))) (fun ps s =>
            s.loadPieces ps (fun bss m s =>
              let got := (ls.map Prod.fst).zip bss
              let old := s.src.rv t.toNat
              let val := ofLanes (fun l =>
                match got.find? (fun g => g.1 = l) with
                | some g => BitVec.ofNat 32 (ofBytes g.2)
                | none => lane old.val l)
              s.wv t.toNat { old with val := val, taint := old.taint ||| m })))))

/-- The `ldfe` of a sequencer that waits at a line of this package takes its place there (R137). -/
def State.queueLdfe (s : State) (va : W64) : State :=
  match s.translate s.me .bit va with
  | .error _ => s
  | .ok x =>
    if x.pkg ≠ s.pkg then s
    else
      match s.homeOf s.ctx.cdie.toNat s.ctx.sup .bit x.via x.addr with
      | .ok { place := _, fe := some f } => s.joinLdfe f s.pkg s.ctx.handle
      | _ => s

/-- A home that holds full/empty bits, found at the source where the source can tell (R135): the package's own homes, and
physical addresses of other packages. -/
def State.fePlace (s : State) (u : Use) (a : W64) (x : Xlat) (go : Option Home → State → State) : State :=
  if x.pkg = s.pkg then
    match s.homeOf s.ctx.cdie.toNat s.ctx.sup u x.via x.addr with
    | .error c => s.raise c a
    | .ok h => if h.fe.isNone then s.raise cPerm a else go (some h) s
  else if x.via = .phys && !isScratch (paLocal x.addr) then s.raise cPerm a
  else go none s

/-- A reply that carries a word, or the fault or poison it reports (R334, R345, R395). -/
def State.answer (s : State) (va : W64) (r : Reply) (go : W32 → State → State) : State :=
  match r with
  | .value v => go (lane v 0) s
  | .fault c _ => s.raise c va
  | .poison _ => s.raise cPoison va
  | .again => s.stall .reply

/-- An access of a full/empty bit or a sync word at a home of this package is counted there (R333, R336). -/
def State.countAccess (s : State) (x : Xlat) (place : Nat) : State :=
  (s.touchVia x.via x.addr).countRemote place s.pkg s.ctx.cdie.toNat

/-- The two requests of an `ldfe` that waits at a line of another package: the first is answered when the line is full and it is
its turn; the second takes the word at once or finds it taken, and the wait begins again (R137, R252). -/
def State.askLdfe (s : State) (va : W64) (x : Xlat) (go : W32 → State → State) : State :=
  let req (what t : Nat) : Packet := .read x.pkg x.via s.ctx.cdie.toNat s.ctx.handle t what 0 x.exp x.addr 4
  let first := s.askPos
  s.ask (.consume va) false (some (x.pkg, x.via, x.exp, x.addr)) (req 6) (fun r s =>
    match r with
    | .value _ =>
      s.ask .reply true none (req 1) (fun r s =>
        match r with
        | .value v =>
          if lane v 1 = 1 then
            { s with ctx := { s.ctx with asks := s.ctx.asks.filter (fun a => a.pos < first || first + 1 < a.pos) } }.stall
              (.consume va)
          else go (lane v 0) s
        | r => s.answer va r go)
    | r => s.answer va r go)

/-- `ldfe`: one indivisible step at the home: waits for the line to be full and for its turn among those waiting there, reads
the word, marks the line empty (R137). -/
def execLdfe (t : BitVec 5) (b : BitVec 3) (x : BitVec 5) (i : BitVec 6) (s : State) : Out :=
  .next (s.mslot (s.addrMask b x) (fun s =>
    let a := s.ea b x 4 i
    if a.toNat % 4 ≠ 0 then s.raise cAlign a
    else
      s.checked .bit [(a, 4)] (fun ps s =>
        match ps with
        | [] => s
        | p :: _ =>
          let s := s.touchAll s.me [a]
          s.fePlace .bit a p.x (fun h s =>
            if s.ownOverlap (s.pieceLocs p) false then s.stall .fence
            else if s.taggedOver s.ctx.cdie.toNat (s.pieceLocs p) true then s.stall .taint
            else
              match h with
              | some h =>
                if (s.frameOf h).isSome then s.stall .reply
                else if !s.feFull h.fe || !(h.fe.elim true (fun f => s.ldfeFirst f s.pkg s.ctx.handle)) then s.stall (.consume a)
                else if s.poisoned h.place 4 then s.raise cPoison a
                else
                  (((s.wg t (BitVec.ofNat 32 (s.readLE h.place 4)) 0).feSet false h.fe).leaveLdfe s.pkg s.ctx.handle).countAccess
                    p.x h.place
              | none => s.askLdfe a p.x (fun v s => s.wg t v 0)))))

end Sys2Proof.Machine
end

