-- ==== Sys2Proof/Machine/Stores.lean ====
section
/-!
DEFINITION. Stores, masked, multicast, scattering and accumulating stores (spec/05_memory_instructions.md R123 to R133).
-/

namespace Sys2Proof.Machine

/-- Consecutive bytes as effects on a piece's addresses. -/
def byteEffects (a : W64) (bs : List Byte) : List Effect :=
  (bs.zipIdx).map (fun b => .byte (a + BitVec.ofNat 64 b.2) b.1)

/-- Splits bytes over pieces. -/
def draftBytes : List Piece → List Byte → List Draft
  | [], _ => []
  | p :: ps, bs =>
    { x := p.x, va := p.va, effects := byteEffects p.x.addr (bs.take p.n) } :: draftBytes ps (bs.drop p.n)

/-- A plain store of bytes at an address (R113, R114, R123). -/
def State.storeBytes (s : State) (a : W64) (align : Nat) (st : BitVec 4) (bs : List Byte) : State :=
  if a.toNat % align ≠ 0 then s.raise cAlign a
  else s.checked .store (accessPieces a bs.length) (fun ps s => s.putStore .plain st (draftBytes ps bs))

/-- A plain store of n bytes of a number. -/
def State.storeScalar (s : State) (v : Nat) (m : Mask) (b : BitVec 3) (x : BitVec 5) (st : BitVec 4) (i : BitVec 6)
    (n : Nat) : State :=
  s.mslot (m ||| s.addrMask b x) (fun s => s.storeBytes (s.ea b x n i) n st (leBytes v n))

/-- `st.b` (R123). -/
def execStB (t : BitVec 5) (b : BitVec 3) (x : BitVec 5) (st : BitVec 4) (i : BitVec 6) (s : State) : Out :=
  .next (s.storeScalar (s.rg t).val.toNat (s.rg t).taint b x st i 1)

/-- `st.h` (R123). -/
def execStH (t : BitVec 5) (b : BitVec 3) (x : BitVec 5) (st : BitVec 4) (i : BitVec 6) (s : State) : Out :=
  .next (s.storeScalar (s.rg t).val.toNat (s.rg t).taint b x st i 2)

/-- `st.w` (R123). -/
def execStW (t : BitVec 5) (b : BitVec 3) (x : BitVec 5) (st : BitVec 4) (i : BitVec 6) (s : State) : Out :=
  .next (s.storeScalar (s.rg t).val.toNat (s.rg t).taint b x st i 4)

/-- `stb` (R123). -/
def execStb (t b : BitVec 3) (x : BitVec 5) (st : BitVec 4) (i : BitVec 6) (s : State) : Out :=
  .next (s.storeScalar (s.rb t).val.toNat (s.rb t).taint b x st i 8)

/-- `stv`: the source is not converted and its tag is ignored; a code 56 to 63 pops the port (R23, R123). -/
def execStv (t : BitVec 6) (b : BitVec 3) (x : BitVec 5) (st : BitVec 4) (i : BitVec 6) (s : State) : Out :=
  .next (s.withCodes [t] (fun rs s =>
    let r := srcAt rs 0
    s.mslot (r.taint ||| s.addrMask b x) (fun s => s.storeBytes (s.ea b x 256 i) 128 st (vecBytes r.val))))

/-- The bytes of the lanes of a piece that a predicate names. -/
def maskedEffects (p : Piece) (first : Nat) (v : Vec) (k : W64) : List Effect :=
  ((List.range p.n).filter (fun j => active k ((first + j) / 4))).map (fun j =>
    .byte (p.x.addr + BitVec.ofNat 64 j) (elem 8 v (first + j)))

/-- What a piece of a store carries to its home: its bytes, and the range itself where its home checks more than they show: through
a REMOTE page the whole range, to a lot or a session slot that of a store which writes nothing (R128, R130, R331). -/
def Piece.carries (p : Piece) (es : List Effect) : List Effect :=
  let whole := match p.x.via with
    | .phys | .copy _ => es.isEmpty && isSession (paLocal p.x.addr)
    | .lot _ _ => es.isEmpty
    | .remote _ => true
  if whole then .check p.x.addr p.n :: es else es

/-- The pieces of a masked store. -/
def draftMasked (v : Vec) (k : W64) : Nat → List Piece → List Draft
  | _, [] => []
  | first, p :: ps =>
    { x := p.x, va := p.va, effects := p.carries (maskedEffects p first v k) } :: draftMasked v k (first + p.n) ps

/-- `stm`: the lanes that the predicate names are written; the whole range is checked (R128). -/
def execStm (t : BitVec 6) (b k : BitVec 3) (st : BitVec 4) (i : BitVec 6) (s : State) : Out :=
  .next (s.withCodes [t] (fun rs s =>
    let r := srcAt rs 0
    let p := s.rk k
    s.mslot (r.taint ||| p.taint ||| (s.rb b).taint) (fun s =>
      let a := s.ea b 0 256 i
      if a.toNat % 128 ≠ 0 then s.raise cAlign a
      else s.checked .store (accessPieces a 256) (fun ps s => s.putStore .plain st (draftMasked r.val p.val 0 ps)))))

/-- The two halves of a multicast store are of one group and contiguous. -/
def oneMulticast (p q : Piece) : Bool := p.x.mc = q.x.mc && q.x.addr = p.x.addr + 128

/-- `stv.mc`: 256 bytes to every member of a group, one number of its stream (R129). -/
def execStvMc (t : BitVec 6) (b : BitVec 3) (x : BitVec 5) (st : BitVec 4) (i : BitVec 6) (s : State) : Out :=
  .next (s.withCodes [t] (fun rs s =>
    let r := srcAt rs 0
    s.mslot (r.taint ||| s.addrMask b x) (fun s =>
      let a := s.ea b x 256 i
      if a.toNat % 128 ≠ 0 then s.raise cAlign a
      else
        s.checked .mc (accessPieces a 256) (fun ps s =>
          let sc := ps.any (fun p => p.x.sc)
          match ps, draftBytes ps (vecBytes r.val) with
          | [p, q], [d, e] =>
            if oneMulticast p q then s.accept .mcast sc st p.x.mc p.x.addr [d, e]
            else
              let n := if st = 0 then 0 else s.ctx.nextSeq[st.toNat]?.getD 0
              let s := { s with issue := { s.issue with late := false } }.accept .mcast sc st p.x.mc p.x.addr [d]
              match s.issue.flow with
              | .ok => s.acceptAs .mcast sc st n q.x.mc q.x.addr [e]
              | _ => s
          | _, _ => s))))

/-- The lanes of a scatter that are left in memory: of two that name one location, the higher (R130). -/
def keepLast : List (Piece × W32) → List (Piece × W32)
  | [] => []
  | e :: es =>
    if es.any (fun f => f.1.x.pkg = e.1.x.pkg && f.1.x.via = e.1.x.via && f.1.x.addr = e.1.x.addr) then keepLast es
    else e :: keepLast es

/-- `vscat`: one store whose active lanes are written in increasing order; with no active lane a zero-length store at the
base (R130). -/
def execVscat (t : BitVec 6) (b : BitVec 3) (v : BitVec 6) (k : BitVec 3) (st : BitVec 4) (s : State) : Out :=
  .next (
    if 56 ≤ v.toNat then s.raise cPort 0
    else
      s.withCodes [t] (fun rs s =>
        let r := srcAt rs 0
        s.mslot (r.taint ||| (s.rb b).taint ||| (s.src.rv v.toNat).taint ||| (s.rk k).taint) (fun s =>
          s.lanesOf b v k (fun ls s =>
            if ls.isEmpty then
              s.checked .store [((s.rb b).val, 0)] (fun ps s =>
                s.putStore .plain st (ps.map (fun p => { x := p.x, va := p.va, effects := p.carries [] })))
            else
              s.checked .scat (ls.map (fun l => (l.2, 4))) (fun ps s =>
                let kept := keepLast (ps.zip (ls.map (fun l => lane r.val l.1)))
                s.putStore .plain st (kept.map (fun e =>
                  { x := e.1.x, va := e.1.va, effects := byteEffects e.1.x.addr (leBytes e.2.toNat 4) })))))))

/-- The accumulation of the words of a piece. -/
def draftAccum (op : BitVec 4) (d : Nat → W32) : Nat → List Piece → List Draft
  | _, [] => []
  | first, p :: ps =>
    { x := p.x, va := p.va
      effects := (List.range (p.n / 4)).map (fun j => .accum (p.x.addr + BitVec.ofNat 64 (4 * j)) op (d (first + j))) }
    :: draftAccum op d (first + p.n / 4) ps

/-- `st.acc`: always through the Curb, applied once at the home (R131, R133). -/
def execStAcc (t : BitVec 5) (b : BitVec 3) (x : BitVec 5) (st o : BitVec 4) (s : State) : Out :=
  .next (s.mslot ((s.rg t).taint ||| s.addrMask b x) (fun s =>
    let a := s.ea b x 4 0
    if a.toNat % 4 ≠ 0 then s.raise cAlign a
    else s.checked .store [(a, 4)] (fun ps s => s.putStore .accum st (draftAccum o (fun _ => (s.rg t).val) 0 ps))))

/-- The tag an accumulating vector store requires of its data (R131). -/
def accumTagOk (o t : BitVec 4) : Bool :=
  match o.toNat with
  | 0 | 4 | 5 => t = 5
  | 1 | 2 | 3 => t = 1
  | 6 | 7 => t = 9
  | 11 => t = 2
  | _ => true

/-- `stv.acc` (R131, R133). FMT_TAG is raised before ALIGN, and ALIGN before a failed translation (DESIGN CHOICE, log entry
74). -/
def execStvAcc (t : BitVec 6) (b : BitVec 3) (x : BitVec 5) (st o : BitVec 4) (s : State) : Out :=
  .next (s.withCodes [t] (fun rs s =>
    let r := srcAt rs 0
    s.mslot (r.taint ||| s.addrMask b x) (fun s =>
      let a := s.ea b x 256 0
      if !accumTagOk o r.tag then s.raise cFmtTag 0
      else if a.toNat % 128 ≠ 0 then s.raise cAlign a
      else
        s.checked .store (accessPieces a 256) (fun ps s =>
          s.putStore .accum st (draftAccum o (fun l => lane r.val l) 0 ps)))))

end Sys2Proof.Machine
end

