-- ==== Sys2Proof/Machine/MemSys.lean ====
section
/-!
DEFINITION. Full/empty and sync-word instructions, feed-port binding, fences and taint instructions
(spec/05_memory_instructions.md R134 to R146, R395; spec/12_copy_and_collective_engines.md R292).
-/

namespace Sys2Proof.Machine

/-! ### Full/empty and sync words -/

/-- The operand masks of the forms of R134. -/
def State.sysMask (s : State) (a : BitVec 3) (b : BitVec 5) : Mask := (s.rb a).taint ||| (s.rg b).taint

/-- The locations of a line of a home. -/
def State.lineLocs (s : State) (h : Home) : List (BitVec 15 × Via × Nat) :=
  (List.range 128).map (fun i => (s.pkg, .phys, h.place / 128 * 128 + i))

/-- Marks the line of an address full or empty (R135): at once in the core's own scratchpad, otherwise through the Curb
as a stream-0 store. An address that a REMOTE or LOT page names is checked at its destination (R395). -/
def State.markLine (s : State) (a : BitVec 3) (b : BitVec 5) (full : Bool) : State :=
  s.mslot (s.sysMask a b) (fun s =>
    let ad := s.eaSys a b
    s.checked .bit [(ad, 1)] (fun ps s =>
      match ps with
      | [] => s
      | p :: _ =>
        let s := s.touchAll s.me [ad]
        let go (s : State) : State :=
          match s.ownHome p.x with
          | some h =>
            if full && s.ownOverlap (s.lineLocs h) false then s.stall .storeRoom else s.feSet full h.fe
          | none => s.accept .mark p.x.sc 0 none 0 [{ x := p.x, va := ad, effects := [.mark p.x.addr full] }]
        if p.x.via = .phys || inLotWindows ad then s.fePlace .bit ad p.x (fun _ s => go s) else go s))

/-- `mkfull` (R135). -/
def execMkfull (a : BitVec 3) (b : BitVec 5) (s : State) : Out := .next (s.markLine a b true)

/-- `mkempty` (R135). -/
def execMkempty (a : BitVec 3) (b : BitVec 5) (s : State) : Out := .next (s.markLine a b false)

/-- `fecheck`: 1 if the line is full, untainted, without waiting (R135). -/
def execFecheck (d : BitVec 5) (a : BitVec 3) (b : BitVec 5) (s : State) : Out :=
  .next (s.mslot (s.sysMask a b) (fun s =>
    let ad := s.eaSys a b
    s.checked .load [(ad, 1)] (fun ps s =>
      match ps with
      | [] => s
      | p :: _ =>
        let s := s.touchAll s.me [ad]
        s.fePlace .load ad p.x (fun h s =>
          match h with
          | some h => (s.wg d (if s.feFull h.fe then 1 else 0) 0).countAccess p.x h.place
          | none =>
            s.ask .reply false none (fun t => .read p.x.pkg p.x.via s.ctx.cdie.toNat s.ctx.handle t 2 0 p.x.exp p.x.addr 1)
              (fun r s => s.answer ad r (fun v s => s.wg d v 0))))))

/-- A sync-word access (R113, R138, R139): translated, aligned to 16, in memory; of this package with its place, of
another without. The sequencer's own earlier stores to it come first (R118), and a migrating frame holds writes (R337). -/
def State.syncAccess (s : State) (a : BitVec 3) (b : BitVec 5) (m : Mask) (u : Use)
    (go : W64 → Piece → Option Nat → State → State) : State :=
  s.mslot (m ||| s.sysMask a b) (fun s =>
    let ad := s.eaSys a b
    if ad.toNat % 16 ≠ 0 then s.raise cAlign ad
    else
      s.checked u [(ad, 16)] (fun ps s =>
        match ps with
        | [] => s
        | p :: _ =>
          let s := s.touchAll s.me [ad]
          if s.ownOverlap (s.pieceLocs p) false then s.stall .fence
          else if s.taggedOver s.ctx.cdie.toNat (s.pieceLocs p) true then s.stall .taint
          else if p.x.pkg = s.pkg then
            match s.homeOf s.ctx.cdie.toNat s.ctx.sup u p.x.via p.x.addr with
            | .error c => s.raise c ad
            | .ok h =>
              if !hasMemory h.place then s.raise cPerm ad
              else if u.write && (s.migrationAt h.place).isSome then s.stall .fence
              else go ad p (some h.place) s
          else go ad p none s))

/-- `swarm` (R139). -/
def execSwarm (d : BitVec 5) (a : BitVec 3) (b : BitVec 5) (s : State) : Out :=
  .next (s.syncAccess a b (s.rg d).taint .store (fun ad p h s =>
    match h with
    | some w =>
      let gen := BitVec.ofNat 32 (s.readLE (w + 8) 4)
      if s.poisoned w 12 then s.raise cPoison ad
      else (((s.writeLE w (s.rg d).val.toNat 4).writeLE (w + 4) 0 4).wg d gen 0).countAccess p.x w
    | none =>
      s.ask .reply true none (fun t => .read p.x.pkg p.x.via s.ctx.cdie.toNat s.ctx.handle t 3 (s.rg d).val p.x.exp p.x.addr 16)
        (fun r s => s.answer ad r (fun v s => s.wg d v 0))))

/-- The generation has passed g (R139). -/
def genPassed (gen g : W32) : Bool := (0 : W32).slt (gen - g)

/-- `swait` (R139, R236). -/
def execSwait (d : BitVec 5) (a : BitVec 3) (b : BitVec 5) (s : State) : Out :=
  .next (s.syncAccess a b (s.rg d).taint .load (fun ad p h s =>
    match h with
    | some w =>
      let gen := BitVec.ofNat 32 (s.readLE (w + 8) 4)
      if s.poisoned (w + 8) 4 then s.raise cPoison ad
      else if genPassed gen (s.rg d).val then (s.wg d gen 0).countAccess p.x w else s.stall (.syncWord ad (s.rg d).val)
    | none =>
      s.ask (.syncWord ad (s.rg d).val) false none (fun t => .read p.x.pkg p.x.via s.ctx.cdie.toNat s.ctx.handle t 4 (s.rg d).val p.x.exp p.x.addr 16)
        (fun r s => s.answer ad r (fun v s => s.wg d v 0))))

/-! ### Feed ports (R140 to R142, R292) -/

/-- Bits of the control word of `fbind` (Table 5.6). -/
def ctlField (w : W32) (lo n : Nat) : Nat := w.toNat / 2 ^ lo % 2 ^ n

/-- `fbind`: the descriptor is captured and checked, and the port bound, or PORT (R140, R292). -/
def execFbind (p : BitVec 3) (a : BitVec 5) (s : State) : Out :=
  .next (s.mslot (s.rg a).taint (fun s =>
    let w := (s.rg a).val
    let mode := ctlField w 0 2
    let tag := ctlField w 5 4
    let aux := ctlField w 9 3
    let desc := s.src.feedDesc (ctlField w 2 3)
    let walk := Walk.start desc
    if (s.src.port p.toNat).closing then
      match (s.src.port p.toNat).walk.bind Walk.failed with
      | some (c, a) => s.raise c a
      | none => s.stall (.drainPort p.toNat)
    else if (s.src.port p.toNat).bind ≠ 0 || mode = 0 || mode = 3 || decide (10 ≤ tag) || (tag = 8 && aux = 7)
        || (tag ≠ 8 && aux ≠ 0) || ctlField w 12 20 ≠ 0 || !descOk desc || walk.fmt ≠ tag || walk.mm ≠ aux then
      s.raise cPort 0
    else
      s.modFeed p.toNat (fun _ =>
        { bind := BitVec.ofNat 2 mode, tag := BitVec.ofNat 4 tag, aux := BitVec.ofNat 3 aux,
          swz := BitVec.ofNat 8 walk.swz, entries := [], walk := some walk, closing := false })))

/-- A drain port before `fdrain` and `funbind` go on: a failed address traps, entries not yet written wait (R141, R292). -/
def State.drained (s : State) (p : BitVec 3) (go : State → State) : State :=
  let f := s.src.port p.toNat
  match f.walk.bind Walk.failed with
  | some (c, a) => s.raise c a
  | none => if f.entries.isEmpty then go s else s.stall (.drainPort p.toNat)

/-- `funbind` (R141); an entry that its own group has pushed is written first (R142). -/
def execFunbind (p : BitVec 3) (s : State) : Out :=
  .next (s.mslot 0 (fun s =>
    let f := s.src.port p.toNat
    if f.bind = 1 then s.modFeed p.toNat (fun _ => .zero)
    else if f.bind = 2 && !f.closing then
      s.drained p (fun s => s.modFeed p.toNat (fun now => if now.entries.isEmpty then .zero else { now with closing := true }))
    else s.raise cPort 0))

/-- `fdrain` (R141). -/
def execFdrain (p : BitVec 3) (s : State) : Out :=
  .next (s.mslot 0 (fun s =>
    let f := s.src.port p.toNat
    if f.bind ≠ 2 || f.closing then s.raise cPort 0 else s.drained p (fun s => s)))

/-! ### Fences (R127, R143, R144) -/

/-- A home is covered by a fence scope of a sequencer of a die (R143): 0 seq, 1 core, 2 die, 3 pkg, 4 dom. -/
def State.covers (s : State) (scope die : Nat) (x : Dest) : Bool :=
  match scope with
  | 0 => false
  | 1 => x.pkg = s.pkg && x.core = some s.ctx.coreNo
  | 2 => x.pkg = s.pkg && x.die = die
  | 3 => x.pkg = s.pkg
  | _ => true

/-- A part of an entry of die d is homed in the scope. A window that the Piazza translates is resolved first. -/
def State.partCovered (s : State) (scope die d : Nat) (e : CurbEntry) (p : Part) : Bool :=
  p.pending &&
    (if p.pkg = s.pkg then
      match s.partHome d e p with
      | .ok h => s.covers scope die (destOfLoc (p.pkg, .phys, h.place))
      | .error _ => s.covers scope die { pkg := p.pkg, die := s.partDie d e p, core := none }
    else s.covers scope die { pkg := p.pkg, die := p.die, core := none })

/-- A fence of the scope waits for the entry's commit: a multicast store counts as homed at every member. -/
def State.entryCovered (s : State) (scope die d : Nat) (e : CurbEntry) : Bool :=
  match e.group with
  | none => e.parts.any (fun p => s.partCovered scope die d e p)
  | some g => (s.memberDests e.offset g).any (s.covers scope die)

/-- A release of a scope: the wait of a fence, then its report of dropped stores (R127, R143, R232). -/
def State.fenceTo (s : State) (scope die : Nat) (go : State → State) : State :=
  let covered (t : TagEntry) : Bool := t.dests.any (s.covers scope die)
  match (List.range 16).findSome? (fun i => (s.ctx.tags[i]?.getD none).bind (fun t =>
      if covered t then t.void.map (fun a => (i, a)) else none)) with
  | some (i, a) => s.raiseVoid i a
  | none =>
    if (s.ctx.tags.toList.filterMap id).any covered then s.stall .fence
    else if (List.range 4).any (fun d => (s.curbOf d).any (fun e =>
        e.handle = s.ctx.handle && s.beforeGroup e && s.entryCovered scope die d e)) then s.stall .fence
    else
      match s.ctx.losses.find? (fun l => l.dests.any (s.covers scope die)) with
      | some l => s.raiseLoss l
      | none => go s

/-- `fence` (R143, R191). -/
def execFence (c : BitVec 4) (s : State) : Out :=
  .next (s.heldFirst (fun s => s.mslot 0 (fun s => s.fenceTo c.toNat s.ctx.cdie.toNat (fun s => s))))

/-- `sfence`: every earlier store of the stream has committed; tags are not waited for (R127, R144, R232). -/
def execSfence (st : BitVec 4) (s : State) : Out :=
  .next (s.mslot 0 (fun s =>
    if s.earlierEntries.any (fun e => e.stream = st) then s.stall .fence
    else
      match s.ctx.losses.find? (fun l => l.stream = st) with
      | some l => s.raiseLoss l
      | none => s))

/-! ### Taint (R145) -/

/-- The mask that {h, r} of file f names; g0 names cr.ctaint, and a port has none. -/
def State.maskOf (s : State) (r : BitVec 5) (h : BitVec 1) (f : BitVec 2) : Mask :=
  match f.toNat with
  | 0 => if r = 0 then s.src.ctaint else (s.src.rg r).taint
  | 1 => (s.src.rb (BitVec.ofNat 3 r.toNat)).taint
  | 2 =>
    let n := r.toNat + 32 * h.toNat
    if n < 56 then (s.src.rv n).taint else 0
  | _ => (s.src.rk (BitVec.ofNat 3 r.toNat)).taint

/-- `tbind`: waits until every tag of the mask has bound; a void tag raises RMT_FAULT (R145, R232). -/
def execTbind (r : BitVec 5) (h : BitVec 1) (f : BitVec 2) (s : State) : Out :=
  .next (s.hold (s.maskOf r h f) (fun s => if s.scPending then s.stall .fence else s))

/-- `tclr`: the mask is cleared; the tags stay valid (R145). `tclr g0` clears the bits that cr.ctaint held before the group, and
keeps those that an earlier word of the group has added (DESIGN CHOICE, log entry 72). -/
def execTclr (r : BitVec 5) (h : BitVec 1) (f : BitVec 2) (s : State) : Out :=
  .next (
    match f.toNat with
    | 0 =>
      if r = 0 then { s with ctx := { s.ctx with ctaint := s.ctx.ctaint &&& ~~~s.src.ctaint } }
      else s.wg r (s.src.rg r).val 0
    | 1 => s.wb (BitVec.ofNat 3 r.toNat) (s.src.rb (BitVec.ofNat 3 r.toNat)).val 0
    | 2 =>
      let n := r.toNat + 32 * h.toNat
      if n < 56 then s.wv n { s.src.rv n with taint := 0 } else s
    | _ => s.wk (BitVec.ofNat 3 r.toNat) (s.src.rk (BitVec.ofNat 3 r.toNat)).val 0)

/-- `tmask` (R145). -/
def execTmask (d r : BitVec 5) (h : BitVec 1) (f : BitVec 2) (s : State) : Out :=
  .next (s.wg d ((s.maskOf r h f).zeroExtend 32) 0)

end Sys2Proof.Machine
end

