-- ==== Sys2Proof/Machine/Crew.lean ====
section
/-!
DEFINITION. Writes by the Piazza on a job's behalf (R397), the crew area (R261), phasers (R203, R205, R262), schedule
variants (R246, R263, R264), and the crew and phaser commands (spec/08_sync_collective_system.md R199 to R205).
-/

namespace Sys2Proof.Machine

/-! ### Writes of a master (R179, R397) -/

/-- Writes bytes at a home in one piece, with the line they touch marked full where they land as copy traffic. -/
def State.writePiece (s : State) (w : Who) (x : Xlat) (bs : List Byte) (mark : Bool) : Except (BitVec 8) State :=
  if x.pkg ≠ s.pkg then
    .ok (s.emit (.copyUnit x.pkg none x.via x.exp (byteEffects x.addr bs) (if mark then [x.addr] else [])))
  else
    match s.homeOf w.die w.sup .store x.via x.addr with
    | .error c => .error c
    | .ok h => .ok (s.writeHome h.place bs (if mark then h.fe else none))

/-- Splits a range into pieces within one 128-byte line. -/
def linePieces : Nat → W64 → Nat → List (W64 × Nat)
  | 0, _, _ => []
  | fuel + 1, va, n =>
    if n = 0 then []
    else
      let k := Nat.min n (128 - va.toNat % 128)
      (va, k) :: linePieces fuel (va + BitVec.ofNat 64 k) (n - k)

/-- Writes translated pieces in order. -/
def State.writeAll (s : State) (w : Who) (mark : Bool) : List (W64 × Nat × Xlat) → List Byte → Except (BitVec 8 × W64) State
  | [], _ => .ok s
  | (va, n, x) :: ps, bs =>
    match s.writePiece w x (bs.take n) mark with
    | .error c => .error (c, va)
    | .ok s => s.writeAll w mark ps (bs.drop n)

/-- A write by a master at virtual addresses: every piece is translated first, then all are written. -/
def State.masterWrite (s : State) (w : Who) (va : W64) (bs : List Byte) (mark : Bool) : Except (BitVec 8 × W64) State :=
  let chunks := linePieces (bs.length / 128 + 2) va bs.length
  match s.translateAll w .store chunks with
  | .error e => .error e
  | .ok ps => (s.noteAll w .store chunks).writeAll w mark ps bs

/-- A byte that a master would write lies in a migrating frame (R337). -/
def State.writeBlocked (s : State) (w : Who) (ps : List (W64 × Nat)) : Bool :=
  (List.range 4).any (fun d => (s.tu d).migration.isSome) &&
    ps.any (fun p =>
      match s.translate w .store p.1 with
      | .error _ => false
      | .ok x =>
        match if x.pkg = s.pkg then s.homeOf w.die w.sup .store x.via x.addr else .error cXlate with
        | .ok h => (s.migrationAt h.place).isSome
        | .error _ => false)

/-- The Piazza as a master for a job: it walks its own root with supervisor rights (R329). -/
def State.piazza (s : State) (job : BitVec 16) : Who :=
  { die := 4, asid := ((s.jobs.find? (fun j => j.num = job)).map Job.asid).getD 0, job := job, sup := true }

/-- A failed write of the Piazza is parked in die 0's queue (R397). -/
def State.parkPiazza (s : State) (job : BitVec 16) (code : BitVec 8) (va : W64) (work : ParkedWork) : State :=
  s.parkWork 0 (mkRec 4 code 0 job va 0) work

/-! ### The crew area (R261, Tables 10.3 and 10.4) -/

/-- Reads the member entry of an index. -/
def Crew.member (c : Crew) (i : Nat) : Member :=
  tget { joined := false, sp := 0, wp := 0, mst := .none, role := 0, waiting := false } c.members i

/-- Changes the member entry of an index. -/
def Crew.modMember (c : Crew) (i : Nat) (f : Member → Member) : Crew := { c with members := tset i (f (c.member i)) c.members }

/-- The code of a registration state (Table 10.4). -/
def Mst.code : Mst → Nat
  | .none => 0
  | .pending => 1
  | .active => 2
  | .dropping => 3

/-- A member entry as 16 bytes. -/
def Member.bytes (m : Member) : List Byte :=
  leBytes (m.sp.toNat + 2 ^ 32 * m.wp.toNat + 2 ^ 64 * m.mst.code + 2 ^ 66 * m.role.toNat
    + 2 ^ 68 * (if m.waiting then 1 else 0)) 16

/-- A truth value as a bit. -/
def bitOf (b : Bool) : Nat := if b then 1 else 0

/-- A crew slot as bytes: record, membership bitmap, member array. -/
def State.crewBytes (s : State) (j : Job) (c : Crew) (live : Bool) : List Byte :=
  let mem := (c.members.filter (fun e => e.2.joined)).length
  let reg := (c.members.filter (fun e => e.2.mst ≠ .none)).length
  let res := (s.allSeqs.filter (fun q =>
    q.job = j.num && q.handle ≠ 0 && q.isResident && (c.member q.index.toNat).joined)).length
  leBytes (c.handle.toNat + 2 ^ 32 * bitOf live + 2 ^ 33 * bitOf c.gang + 2 ^ 34 * bitOf c.gangx
      + 2 ^ 35 * bitOf (decide (4 ≤ c.home))) 8
    ++ leBytes (mem + 2 ^ 17 * reg + 2 ^ 34 * res) 8
    ++ leBytes (c.p.toNat + 2 ^ 32 * c.pst.toNat) 8
    ++ leBytes (c.parker.toNat + 2 ^ 16 * bitOf c.gpark) 8
    ++ leBytes 0 32
    ++ leBytes (packNat 1 (fun i => bitOf (c.member i).joined) j.nseq) (64 * ((j.nseq + 511) / 512))
    ++ (List.range j.nseq).flatMap (fun i => (c.member i).bytes)

/-- Writes a crew's slot of the crew area; a write that fails is parked (R261, R397). -/
def State.writeCrew (s : State) (c : Crew) (live : Bool) : State :=
  let num := BitVec.ofNat 16 (c.handle.toNat / 2 ^ 16)
  match s.jobs.find? (fun j => j.num = num) with
  | none => s
  | some j =>
    let va := j.crewArea + BitVec.ofNat 64 (c.area * j.crewStride)
    match s.masterWrite (s.piazza num) va (s.crewBytes j c live) false with
    | .ok s => s
    | .error (code, a) => s.parkPiazza num code a (.crewArea num va (s.crewBytes j c live))

/-- The crew with a handle. -/
def State.crewOf (s : State) (h : W32) : Option Crew := s.crews.find? (fun c => c.handle = h)

/-- Writes the slots of every crew a sequencer index of a job belongs to: NRES follows residence. -/
def State.refreshCrews (s : State) (job : BitVec 16) (i : Nat) : State :=
  s.crews.foldl (fun s c =>
    if c.handle.toNat / 2 ^ 16 = job.toNat && (c.member i).joined then s.writeCrew c true else s) s

/-! ### Sub-partitions and variants (R246, R263, R264) -/

/-- The sub-partition of sequencer i (R246). -/
def Job.subOf (j : Job) (i : Nat) : Nat :=
  (List.range j.nsub).foldl (fun n k => if fieldOf (j.word 18) (16 * k) 16 ≤ i then k + 1 else n) 0

/-- The cores of PART that are not retired, in ascending order. -/
def State.poolOf (s : State) (j : Job) : List Nat := (List.range 192).filter (fun n => j.hasCore n && !(s.coreOf n).ret)

/-- The share of a sub-partition: with NSUB = 0, sub-partition 0 owns all (R197). -/
def Job.shareOf (j : Job) (v p : Nat) : Nat := if j.nsub = 0 then (if p = 0 then 256 else 0) else j.share v p

/-- The cores of sub-partition p under variant v (R246). -/
def State.subCores (s : State) (j : Job) (v p : Nat) : List Nat :=
  let pool := s.poolOf j
  let n := pool.length
  let c := (List.range p).foldl (fun a k => a + j.shareOf v k) 0
  let lo := n * c / 256
  let hi := n * (c + j.shareOf v p) / 256
  if n = 0 then []
  else if hi ≤ lo then (pool.drop (Nat.min lo (n - 1))).take 1
  else (pool.drop lo).take (hi - lo)

/-- The home die of the earliest-joined die-homed crew of which a sequencer is still a member (R259). -/
def State.confinement (s : State) (q : Seqr) : Option Nat :=
  (q.joined.findSome? (fun h => (s.crewOf h).bind (fun c => if c.home < 4 then some c.home else none)))

/-- The cores that sequencer i of a job may use: of its sub-partition, on its confinement die (R247). -/
def State.memberCores (s : State) (j : Job) (i : Nat) : List Nat :=
  let q := s.allSeqs.find? (fun q => q.job = j.num && q.index.toNat = i && q.handle ≠ 0)
  (s.subCores j j.sv.toNat (j.subOf i)).filter (fun n =>
    match q.bind s.confinement with | some d => n / 48 = d | none => true)

/-- A gang with more members than the context slots of the cores its members may use (R260). -/
def State.gangTooLarge (s : State) (j : Job) (c : Crew) : Bool :=
  let idx := (c.members.filter (fun e => e.2.joined)).map Prod.fst
  let cores := idx.flatMap (s.memberCores j)
  c.gang && decide (4 * cores.eraseDups.length < idx.length)

/-- Replaces a crew and writes its slot (R261). -/
def State.putCrew (s : State) (c : Crew) : State :=
  let c := match s.jobOf (BitVec.ofNat 16 (c.handle.toNat / 2 ^ 16)) with
    | some j => { c with gangx := s.gangTooLarge j c }
    | none => c
  { s with crews := s.crews.map (fun (x : Crew) => if x.handle = c.handle then c else x) }.writeCrew c true

/-- GANGX of a job's crews follows its members' cores (R260). -/
def State.regang (s : State) (num : BitVec 16) : State :=
  match s.jobOf num with
  | none => s
  | some j =>
    s.crews.foldl (fun s c =>
      if c.handle.toNat / 2 ^ 16 = num.toNat && s.gangTooLarge j c ≠ c.gangx then
        (match s.crewOf c.handle with | some c => s.putCrew c | none => s)
      else s) s

/-- Cost of a variant as a fraction; none is infinite (R263). -/
def Job.cost (j : Job) (ts : List (Nat × Nat)) (v : Nat) : Option (Nat × Nat) :=
  ts.foldl (fun best st =>
    let (p, t) := st
    let a := Nat.max 1 (j.shareOf j.sv.toNat p)
    let b := j.shareOf v p
    match best with
    | none => none
    | some (x, y) => if t = 0 then some (x, y) else if b = 0 then none else if x * b < t * a * y then some (t * a, b)
                     else some (x, y)) (some (0, 1))

/-- The first cost is strictly below m/n of the second. -/
def costBelow (n m : Nat) : Option (Nat × Nat) → Option (Nat × Nat) → Bool
  | none, _ => false
  | some _, none => true
  | some (x, y), some (x', y') => n * x * y' < m * x' * y

/-- The variant the selector chooses (R263). -/
def Job.choose (j : Job) (ts : List (Nat × Nat)) : Nat :=
  if ts.all (fun t => t.2 = 0) then j.sv.toNat
  else
    let best := (List.range (j.nvar + 1)).foldl (fun b v => if costBelow 1 1 (j.cost ts v) (j.cost ts b) then v else b) 0
    if costBelow 16 15 (j.cost ts best) (j.cost ts j.sv.toNat) then best else j.sv.toNat

/-- A pre-emption request falls on a resident sequencer (R249, R258, R264, R266). -/
def State.request (s : State) (h : BitVec 24) : State :=
  s.modSeq h (fun q =>
    if q.isResident && q.preempt.isNone then { q with preempt := some (s.dieAt q.cdie.toNat).cycle } else q)

/-- A new variant takes effect: cr.sv of every sequencer of the job, in its image too where it has one, and requests on the residents whose core is now
outside their sub-partition (R264). An image whose page is missing takes it at its restore. GANGX follows the new cores (R260). -/
def State.setVariant (s : State) (j : Job) (v : Nat) : State :=
  let sv := BitVec.ofNat 2 v
  let s := (s.modJob j.num (fun x => { x with sv := sv })).mapSeqs (fun q => if q.job = j.num then { q with sv := sv } else q)
  let written (q : Seqr) : Bool := if q.isResident then decide (0 < q.savedParts) else q.imaged
  let s := (s.allSeqs.filter (fun q => q.job = j.num && q.handle ≠ 0 && written q)).foldl (fun s q =>
    match s.masterWrite { die := q.cdie.toNat, asid := j.asid, job := j.num, sup := true }
        (j.saveBase q.index.toNat + BitVec.ofNat 64 (8 * 0x064)) (leBytes v 8) false with
    | .ok s => s
    | .error _ => s.modSeq q.handle (fun q => { q with svDue := true })) s
  let s := s.regang j.num
  (s.allSeqs.filter (fun q => q.job = j.num && q.handle ≠ 0 && q.isResident)).foldl (fun s q =>
    if (s.subCores j v (j.subOf q.index.toNat)).contains q.coreNo then s else s.request q.handle) s

/-- The completion of a phase of the schedule phaser: measurement and selection (R263, R264). -/
def State.selectVariant (s : State) (j : Job) (phase : Nat) : State :=
  let times := (List.range (j.nsub + 1)).map (fun p =>
    match j.sigTimes.find? (fun e => e.1 = p + 4 * phase) with
    | some e => (p, (e.2 - j.lastDone).toInt.toNat)
    | none => (p, 0))
  let v := j.choose times
  let s := s.modJob j.num (fun x =>
    { x with lastDone := s.ptime, sigTimes := x.sigTimes.filter (fun e => e.1 / 4 ≠ phase) })
  if v = j.sv.toNat then s else s.setVariant j v

/-- The crew's phaser is the schedule phaser of its job: start crew SCHED, with a choice of variants (R263). -/
def Job.isSchedule (j : Job) (c : Crew) : Bool := j.sched ≠ 15 && c.area = j.sched && decide (j.sched < j.ncrew) && j.nvar ≠ 0

/-! ### Phasers (R203, R205, R262) -/

/-- Two phase numbers compared as serial numbers: s32(a − b). -/
def serial (a b : W32) : Int := (a - b).toInt

/-- A member counts as a signaller. -/
def Member.signals (m : Member) : Bool := (m.mst = .active || m.mst = .dropping) && m.role ≠ 1

/-- A member counts as a waiter. -/
def Member.awaits (m : Member) : Bool := (m.mst = .active || m.mst = .dropping) && m.role ≠ 0

/-- Some signaller exists and every one has signalled the current phase (R203). -/
def Crew.allSignalled (c : Crew) : Bool :=
  c.members.any (fun e => e.2.signals)
    && c.members.all (fun e => !e.2.signals || e.2.mst = .dropping || decide (0 < serial e.2.sp c.p))

/-- Every waiter has observed the phase before (R203). -/
def Crew.allObserved (c : Crew) : Bool :=
  c.members.all (fun e => !e.2.awaits || e.2.mst = .dropping || decide (0 ≤ serial e.2.wp (c.p - 1)))

/-- Completing a phase: P advances, pending members become active, dropping members are removed (R262). -/
def Crew.complete (c : Crew) : Crew :=
  { c with
    p := c.p + 1
    members := c.members.map (fun e =>
      (e.1, match e.2.mst with
        | .pending => { e.2 with mst := .active }
        | .dropping => { e.2 with mst := .none }
        | _ => e.2)) }

/-- The state of a phaser after its transitions (Table 10.5). -/
def Crew.settle (c : Crew) : Crew :=
  { c with pst := if !(c.members.any (fun e => e.2.signals)) then 1 else if c.allSignalled then 3 else 2 }

/-- Advance: completes every phase that is due; one event can complete several (R203, R262). -/
def State.advance (s : State) : Nat → Crew → State
  | 0, c => s.putCrew c.settle
  | n + 1, c =>
    if c.allSignalled && c.allObserved then
      let s :=
        match s.jobOf (BitVec.ofNat 16 (c.handle.toNat / 2 ^ 16)) with
        | some j => if j.isSchedule c then s.selectVariant j c.p.toNat else s
        | none => s
      s.advance n c.complete
    else s.putCrew c.settle

/-- Advances a changed crew; a signaller runs at most two phases ahead, so eight rounds reach the end. -/
def State.advanceCrew (s : State) (c : Crew) : State := s.advance 8 c

/-- Drops the registration of an index, if it has one that is not already dropping (R205). -/
def Crew.drop (c : Crew) (i : Nat) : Crew :=
  c.modMember i (fun m => if m.mst = .none then m else { m with mst := .dropping, waiting := false })

/-! ### Commands (R199 to R205) -/

/-- An engine command: held on its operands and on cr.ctaint (R172). -/
def State.eslot (s : State) (m : Mask) (go : State → State) : State := s.hold (m ||| s.src.ctaint) go

/-- A command that names a crew: a handle of another job, or of no live crew, raises PHASER (R199). -/
def State.withCrew (s : State) (a : BitVec 5) (go : Crew → State → State) : State :=
  s.eslot (s.rg a).taint (fun s =>
    let h := (s.rg a).val
    match s.crewOf h with
    | none => s.raise cPhaser 0
    | some c => if h.toNat / 2 ^ 16 ≠ s.ctx.job.toNat then s.raise cPhaser 0 else go c s)

/-- A phaser number is free at a home. -/
def State.phaserFree (s : State) (home n : Nat) : Bool := !(s.crews.any (fun c => c.home = home && c.phaser = n))

/-- A new crew at a home in an area slot; which free phaser it takes is the device's choice (log entry 6). -/
def State.newCrew (s : State) (job : BitVec 16) (home slot : Nat) (gang : Bool) (members : Table Member) :
    Option (Crew × State) :=
  (pickFree (Config.freeNat s.freeCtr) 1024 (fun n => s.phaserFree home n)).map (fun n =>
    let h : W32 := BitVec.ofNat 32 (job.toNat * 2 ^ 16 + home * 2 ^ 13 + n)
    let c : Crew := { handle := h, area := slot, home := home, phaser := n, gang := gang, gangx := false, p := 0, pst := 1,
                      gpark := false, woken := false, parker := 0, members := members }
    (c, { s.drawFree with crews := s.crews ++ [c] }))

/-- `crnew` (R201, R261). -/
def execCrnew (a b : BitVec 5) (s : State) : Out :=
  .next (s.eslot (s.rg b).taint (fun s =>
    let f := (s.rg b).val
    if f.toNat / 4 ≠ 0 then s.raise cPhaser 0
    else
      match s.jobOf s.ctx.job with
      | none => s.wg a 0xFFFFFFFF 0
      | some j =>
        let used := (s.crews.filter (fun c => c.handle.toNat / 2 ^ 16 = j.num.toNat)).map Crew.area
        let home := if f.getLsbD 1 then 4 else s.ctx.cdie.toNat
        match (List.range j.maxcrew).find? (fun n => !(used.contains (j.ncrew + n))) with
        | none => s.wg a 0xFFFFFFFF 0
        | some n =>
          match s.newCrew j.num home (j.ncrew + n) (f.getLsbD 0) [] with
          | none => s.wg a 0xFFFFFFFF 0
          | some (c, s) => (s.wg a c.handle 0).writeCrew c true))

/-- A sequencer joins a crew; a resident one whose earliest die-homed crew is now this one, of another die, is asked to leave
(R259). -/
def State.joinSeq (s : State) (job : BitVec 16) (i : Nat) (h : W32) : State :=
  match s.allSeqs.find? (fun q => q.job = job && q.index.toNat = i && q.handle ≠ 0) with
  | none => s
  | some q =>
    let t := (s.modSeq q.handle (fun q => { q with joined := q.joined ++ [h] })).regang job
    match s.confinement q, s.crewOf h with
    | none, some c => if q.isResident && c.home < 4 && c.home ≠ q.cdie.toNat then t.request q.handle else t
    | _, _ => t

/-- `crjoin` (R202). -/
def execCrjoin (a b : BitVec 5) (s : State) : Out :=
  .next (s.hold (s.rg b).taint (fun s =>
    s.withCrew a (fun c s =>
      let i := (s.rg b).val.toNat
      let n := ((s.jobOf s.ctx.job).map Job.nseq).getD 0
      if n ≤ i then s.raise cPhaser 0
      else if (c.member i).joined then s
      else (s.putCrew (c.modMember i (fun m => { m with joined := true }))).joinSeq s.ctx.job i c.handle)))

/-- A member leaves a crew: a registered one is dropped first (R202, R205). -/
def State.leaveCrew (s : State) (job : BitVec 16) (i : Nat) (c : Crew) : State :=
  if !(c.member i).joined then s
  else
    let s := s.advanceCrew ((c.drop i).modMember i (fun m => { m with joined := false }))
    (s.mapSeqs (fun q => if q.job = job && q.index.toNat = i then { q with joined := q.joined.filter (fun h => h ≠ c.handle) }
                         else q)).regang job

/-- `crleave` (R202). -/
def execCrleave (a b : BitVec 5) (s : State) : Out :=
  .next (s.hold (s.rg b).taint (fun s =>
    s.withCrew a (fun c s =>
      let i := (s.rg b).val.toNat
      let n := ((s.jobOf s.ctx.job).map Job.nseq).getD 0
      if n ≤ i then s.raise cPhaser 0 else s.leaveCrew s.ctx.job i c)))

/-- Dissolves a crew: its record reads LIVE 0, its phaser is FREE. -/
def State.freeCrew (s : State) (c : Crew) : State :=
  let s := { s with crews := s.crews.filter (fun x => x.handle ≠ c.handle) }
  ((s.mapSeqs (fun q => { q with joined := q.joined.filter (fun h => h ≠ c.handle) })).writeCrew { c with pst := 0 } false).regang
    (BitVec.ofNat 16 (c.handle.toNat / 2 ^ 16))

/-- `crfree` (R202). -/
def execCrfree (a : BitVec 5) (s : State) : Out :=
  .next (s.withCrew a (fun c s =>
    if c.members.any (fun e => e.2.mst ≠ .none) then s.raise cPhaser 0 else s.freeCrew c))

/-- `phreg` (R203). -/
def execPhreg (r : BitVec 2) (a : BitVec 5) (s : State) : Out :=
  .next (s.withCrew a (fun c s =>
    let i := s.ctx.index.toNat
    let m := c.member i
    if !m.joined || m.mst ≠ .none then s.raise cPhaser 0
    else
      let busy := c.members.any (fun e => e.2.signals)
      let ph := if busy then c.p + 1 else c.p
      s.advanceCrew (c.modMember i (fun m =>
        { m with sp := ph, wp := ph, role := r, mst := if busy then .pending else .active }))))

/-- A caller registered on the crew's phaser whose registration is not dropping. -/
def Member.registered (m : Member) : Bool := m.mst = .active || m.mst = .pending

/-- `phdrop` (R205). -/
def execPhdrop (a : BitVec 5) (s : State) : Out :=
  .next (s.withCrew a (fun c s =>
    if !(c.member s.ctx.index.toNat).registered then s.raise cPhaser 0
    else s.advanceCrew (c.drop s.ctx.index.toNat)))

/-- Keeps the time of a `phsig` for the measurement of R263. -/
def State.timeSignal (s : State) (c : Crew) (i phase : Nat) : State :=
  match s.jobOf s.ctx.job with
  | none => s
  | some j =>
    if j.isSchedule c then
      let key := j.subOf i + 4 * phase
      s.modJob j.num (fun x => { x with sigTimes := (key, s.ptime) :: x.sigTimes.filter (fun e => e.1 ≠ key) })
    else s

/-- `phsig`: the release at the phaser's scope, the bound wait, the signal (R204). -/
def execPhsig (a : BitVec 5) (s : State) : Out :=
  .next (s.withCrew a (fun c s =>
    let i := s.ctx.index.toNat
    let m := c.member i
    if !m.registered || m.role = 1 then s.raise cPhaser 0
    else
      s.fenceTo (if c.home < 4 then 2 else 3) c.home (fun s =>
        if 2 ≤ serial m.sp c.p then s.stall (.phaserBound c.handle)
        else (s.timeSignal c i m.sp.toNat).advanceCrew (c.modMember i (fun m => { m with sp := m.sp + 1 })))))

/-- A `phwait` of a member is outstanding: its entry says so (Table 10.4). -/
def State.markWaiting (s : State) (crew : W32) (i : Nat) : State :=
  match s.crewOf crew with
  | some c => if (c.member i).waiting then s else s.putCrew (c.modMember i (fun m => { m with waiting := true }))
  | none => s

/-- `phwait`: the parity check, the wait, the acquire (R204). -/
def execPhwait (p : BitVec 1) (a : BitVec 5) (s : State) : Out :=
  .next (s.withCrew a (fun c s =>
    let i := s.ctx.index.toNat
    let m := c.member i
    if !m.registered || m.role = 0 || m.wp.getLsbD 0 ≠ (p = 1) then s.raise cPhaser 0
    else if serial c.p m.wp ≤ 0 then s.stall (.phaserPhase c.handle)
    else s.advanceCrew (c.modMember i (fun m => { m with wp := m.wp + 1, waiting := false }))))

end Sys2Proof.Machine
end

