-- ==== Sys2Proof/Machine/Control.lean ====
section
/-!
DEFINITION. Branches, calls, returns and the loop stack (spec/04_scalar_and_control.md R99 to R109).
-/

namespace Sys2Proof.Machine

/-- W: the address of the word that executes. -/
def State.wordAddr (s : State) : W64 := s.src.pc + BitVec.ofNat 64 (4 * s.issue.pos)

/-- The next group is the one at an address. -/
def State.goTo (s : State) (a : W64) : State := { s with issue := { s.issue with npc := some a } }

/-- The target of a branch word: W + 4 × sext(off) (R99). -/
def State.branchTarget (s : State) (o : BitVec 20) : W64 := s.wordAddr + BitVec.ofInt 64 (4 * o.toInt)

/-- The number of valid loop levels (R25). -/
def Seqr.levels (q : Seqr) : Nat := (q.ls.toList.filter (fun l => l.valid)).length

/-- Loop level i. -/
def Seqr.level (q : Seqr) (i : Nat) : LoopLevel := q.ls[i]?.getD .zero

/-- Changes a loop level of the executing context. -/
def State.setLevel (s : State) (i : Nat) (l : LoopLevel) : State :=
  { s with ctx := { s.ctx with ls := s.ctx.ls.setIfInBounds i l } }

/-- One rotation step (R20). -/
def State.rotStep (s : State) : State :=
  { s with ctx := { s.ctx with vrot := s.src.vrot - 1, krot := s.src.krot - 1 } }

/-- ExitAddress (R105): the address after the first word with S = 1 among the n at and after an address; a word that
cannot be fetched, or none of them stopping. -/
def State.exitFrom (s : State) : Nat → W64 → Except (Option (BitVec 8 × W64)) W64
  | 0, _ => .error none
  | n + 1, a =>
    match s.fetchWord a with
    | .error e => .error (some e)
    | .ok w => if w.msb then .ok (a + 4) else s.exitFrom n (a + 4)

/-- Leaves for ExitAddress(x), or raises what R105 says of a word that cannot be fetched or of none stopping. -/
def State.toExit (s : State) (x : W64) (go : State → State) : State :=
  match s.exitFrom 7 x with
  | .ok a => (go s).goTo a
  | .error (some (c, a)) => s.raise c a
  | .error none => s.takeTrap { code := cIllGroup, slot := 0, whole := true, word := 0, bad := x }

/-- The scalar test of a predicate: bit 0, inverted by n (R99). -/
def State.met (s : State) (n : BitVec 1) (k : BitVec 3) : Bool := xor ((s.rk k).val.getLsbD 0) (n = 1)

/-- `br` (R99). -/
def execBr (n : BitVec 1) (k : BitVec 3) (o : BitVec 20) (s : State) : Out :=
  let t := s.orCtaint (s.rk k).taint
  .next (if s.met n k then t.goTo (s.branchTarget o) else t)

/-- `bra`: all 64 bits of the predicate are tested (R99). -/
def execBra (n : BitVec 1) (k : BitVec 3) (o : BitVec 20) (s : State) : Out :=
  let t := s.orCtaint (s.rk k).taint
  .next (if xor ((s.rk k).val ≠ 0) (n = 1) then t.goTo (s.branchTarget o) else t)

/-- `call`: b7 takes the return address with no mask when the call is taken (R99). -/
def execCall (n : BitVec 1) (k : BitVec 3) (o : BitVec 20) (s : State) : Out :=
  let t := s.orCtaint (s.rk k).taint
  .next (if s.met n k then (t.wb 7 (s.wordAddr + 4) 0).goTo (s.branchTarget o) else t)

/-- A jump to an address held in a base register (R101). -/
def State.jumpTo (s : State) (a : BitVec 3) : State :=
  let t := (s.rb a).val
  if t.toNat % 4 ≠ 0 then s.raise cAlign t else (s.orCtaint (s.rb a).taint).goTo t

/-- `jr` (R101). -/
def execJr (a : BitVec 3) (s : State) : Out := .next (s.jumpTo a)

/-- `ret` (R101). -/
def execRet (s : State) : Out := .next (s.jumpTo 7)

/-- `loop` (R105). -/
def execLoop (c : BitVec 5) (l : BitVec 3) (n : BitVec 15) (s : State) : Out :=
  let count := s.rg c
  let stop := s.wordAddr + BitVec.ofNat 64 (4 * n.toNat)
  let start := s.src.pc + BitVec.ofNat 64 (4 * s.issue.len)
  if l.toNat ≠ s.src.levels || 6 ≤ l.toNat then .next (s.raise cLoopDepth 0)
  else if count.val = 0 then .next (s.toExit stop (fun s => s.orCtaint count.taint))
  else .next ((s.orCtaint count.taint).setLevel l.toNat
    { valid := true, count := count.val, index := 0, start := start, stop := stop })

/-- Closing one iteration of level l (R106). -/
def State.closeIter (s : State) (l : BitVec 3) (rot : Bool) : State :=
  if s.src.levels ≠ l.toNat + 1 then s.raise cLoopDepth 0
  else
    let lv := s.src.level l.toNat
    let i := lv.index + 1
    if lv.index.toNat + 1 < lv.count.toNat then
      let t := (s.setLevel l.toNat { lv with index := i }).goTo lv.start
      if rot then t.rotStep else t
    else s.setLevel l.toNat { lv with index := i, valid := false }

/-- `brl` (R106). -/
def execBrl (l : BitVec 3) (s : State) : Out := .next (s.closeIter l false)

/-- `brl.rot` (R106). -/
def execBrlRot (l : BitVec 3) (s : State) : Out := .next (s.closeIter l true)

/-- `lbrk` (R107). -/
def execLbrk (n : BitVec 1) (k : BitVec 3) (s : State) : Out :=
  if s.src.levels = 0 then .next (s.raise cLoopDepth 0)
  else
    let i := s.src.levels - 1
    let lv := s.src.level i
    let mask := (s.rk k).taint
    if s.met n k then
      .next (s.toExit lv.stop (fun s => (s.orCtaint mask).setLevel i { lv with valid := false }))
    else .next (s.orCtaint mask)

/-- `lidx` (R108). -/
def execLidx (d l : BitVec 5) (s : State) : Out :=
  if s.src.levels ≠ l.toNat + 1 then .next (s.raise cLoopDepth 0)
  else .next (s.wg d (s.src.level l.toNat).index 0)

end Sys2Proof.Machine
end

