-- ==== Sys2Proof/Machine/Issue.lean ====
section
/-!
DEFINITION. The issue of a group (spec/03_encoding_and_assembly.md R64 to R75): the registers an instruction reads and
writes, the checks of R66, the bank count of R75, the traps held for a group boundary (R191, R342), the pre-emption point
(R110), and the queue of a group's members.
-/

namespace Sys2Proof.Machine

/-- A register, or the pop or push of a feed port, that takes part in the dependence check (R66). -/
inductive RegRef where
  | g (n : Nat)
  | b (n : Nat)
  | v (n : Nat)
  | k (n : Nat)
  | pop (p : Nat)
  | push (p : Nat)
  deriving DecidableEq, Repr

/-- A g register; g0 is exempt (R16). -/
def refG (n : BitVec 5) : List RegRef := if n = 0 then [] else [.g n.toNat]
/-- A b register. -/
def refB (n : BitVec 3) : List RegRef := [.b n.toNat]
/-- A predicate; k0 is exempt (R16). -/
def refK (n : BitVec 3) : List RegRef := if n = 0 then [] else [.k n.toNat]
/-- A vector code as a source. -/
def refV (c : BitVec 6) : List RegRef := if c.toNat < 56 then [.v c.toNat] else [.pop (c.toNat - 56)]
/-- A vector code that may only name a register. -/
def refR (c : BitVec 6) : List RegRef := if c.toNat < 56 then [.v c.toNat] else []
/-- A vector code as a destination. -/
def refW (c : BitVec 6) : List RegRef := if c.toNat < 56 then [.v c.toNat] else [.push (c.toNat - 56)]
/-- The destination of a merging form, read where a predicate masks it (R150). -/
def refOld (d : BitVec 6) (k : BitVec 3) : List RegRef := if k = 0 then [] else refR d
/-- The register whose mask a taint instruction names (R145). -/
def refMask (r : BitVec 5) (h : BitVec 1) (f : BitVec 2) : List RegRef :=
  match f.toNat with
  | 0 => refG r
  | 1 => [.b (r.toNat % 8)]
  | 2 => if r.toNat + 32 * h.toNat < 56 then [.v (r.toNat + 32 * h.toNat)] else []
  | _ => refK (BitVec.ofNat 3 r.toNat)

/-- The sources, the destinations, and the destinations an instruction also reads. -/
def refs : Instr → List RegRef × List RegRef × List RegRef
  | .add d a b => (refG a ++ refG b, refG d, [])
  | .sub d a b => (refG a ++ refG b, refG d, [])
  | .mul d a b => (refG a ++ refG b, refG d, [])
  | .mulh d a b => (refG a ++ refG b, refG d, [])
  | .mulhn d a b => (refG a ++ refG b, refG d, [])
  | .div d a b => (refG a ++ refG b, refG d, [])
  | .divn d a b => (refG a ++ refG b, refG d, [])
  | .rem d a b => (refG a ++ refG b, refG d, [])
  | .remn d a b => (refG a ++ refG b, refG d, [])
  | .and d a b => (refG a ++ refG b, refG d, [])
  | .or d a b => (refG a ++ refG b, refG d, [])
  | .xor d a b => (refG a ++ refG b, refG d, [])
  | .shl d a b => (refG a ++ refG b, refG d, [])
  | .shr d a b => (refG a ++ refG b, refG d, [])
  | .sra d a b => (refG a ++ refG b, refG d, [])
  | .rotl d a b => (refG a ++ refG b, refG d, [])
  | .clz d a => (refG a, refG d, [])
  | .ctz d a => (refG a, refG d, [])
  | .popc d a => (refG a, refG d, [])
  | .min d a b => (refG a ++ refG b, refG d, [])
  | .max d a b => (refG a ++ refG b, refG d, [])
  | .minn d a b => (refG a ++ refG b, refG d, [])
  | .maxn d a b => (refG a ++ refG b, refG d, [])
  | .mov d a => (refG a, refG d, [])
  | .sel d a b p => (refG a ++ refG b ++ refK p, refG d, [])
  | .cmpEq k a b => (refG a ++ refG b, refK k, [])
  | .cmpNe k a b => (refG a ++ refG b, refK k, [])
  | .cmpLt k a b => (refG a ++ refG b, refK k, [])
  | .cmpLe k a b => (refG a ++ refG b, refK k, [])
  | .cmpLtn k a b => (refG a ++ refG b, refK k, [])
  | .cmpLen k a b => (refG a ++ refG b, refK k, [])
  | .addi d a _ => (refG a, refG d, [])
  | .andi d a _ => (refG a, refG d, [])
  | .ori d a _ => (refG a, refG d, [])
  | .xori d a _ => (refG a, refG d, [])
  | .shli d a _ => (refG a, refG d, [])
  | .shri d a _ => (refG a, refG d, [])
  | .srai d a _ => (refG a, refG d, [])
  | .lhi d _ => ([], refG d, [])
  | .addb d a b => (refB a ++ refG b, refB d, [])
  | .movb d a b => (refG a ++ refG b, refB d, [])
  | .spb d a => (refG a, refB d, [])
  | .movbLo d a => (refB a, refG d, [])
  | .movbHi d a => (refB a, refG d, [])
  | .kand d a b => (refK a ++ refK b, refK d, [])
  | .kor d a b => (refK a ++ refK b, refK d, [])
  | .kxor d a b => (refK a ++ refK b, refK d, [])
  | .knot d a => (refK a, refK d, [])
  | .kmov d a => (refK a, refK d, [])
  | .kfrom d a b => (refG a ++ refG b, refK d, [])
  | .ktoLo d a => (refK a, refG d, [])
  | .ktoHi d a => (refK a, refG d, [])
  | .nop => ([], [], [])
  | .br _ k _ => (refK k, [], [])
  | .bra _ k _ => (refK k, [], [])
  | .call _ k _ => (refK k, refB 7, [])
  | .lbrk _ k => (refK k, [], [])
  | .loop c _ _ => (refG c, [], [])
  | .brl _ => ([], [], [])
  | .brlRot _ => ([], [], [])
  | .jr a => (refB a, [], [])
  | .ret => (refB 7, [], [])
  | .lidx d _ => ([], refG d, [])
  | .trap _ => ([], [], [])
  | .eret => ([], [], [])
  | .mfc l h _ => ([], refG l ++ refG h, [])
  | .mtc l h _ => (refG l ++ refG h, [], [])
  | .rdst d a => (refB a, refB d, [])
  | .freeze a => (refG a, [], [])
  | .thaw a => (refG a, [], [])
  | .yield => ([], [], [])
  | .sleep a => (refG a, [], [])
  | .ptime d => ([], refB d, [])
  | .exit a => (refG a, [], [])
  | .svget d => ([], refG d, [])
  | .ldI8 t b x _ => (refB b ++ refG x, refG t, [])
  | .ldN8 t b x _ => (refB b ++ refG x, refG t, [])
  | .ldI16 t b x _ => (refB b ++ refG x, refG t, [])
  | .ldN16 t b x _ => (refB b ++ refG x, refG t, [])
  | .ldW t b x _ => (refB b ++ refG x, refG t, [])
  | .ldb t b x _ => (refB b ++ refG x, refB t, [])
  | .ldfe t b x _ => (refB b ++ refG x, refG t, [])
  | .ldv t b x _ _ => (refB b ++ refG x, refW t, [])
  | .stB t b x _ _ => (refG t ++ refB b ++ refG x, [], [])
  | .stH t b x _ _ => (refG t ++ refB b ++ refG x, [], [])
  | .stW t b x _ _ => (refG t ++ refB b ++ refG x, [], [])
  | .stb t b x _ _ => (refB t ++ refB b ++ refG x, [], [])
  | .stv t b x _ _ => (refV t ++ refB b ++ refG x, [], [])
  | .stm t b k _ _ => (refV t ++ refB b ++ refK k, [], [])
  | .stvMc t b x _ _ => (refV t ++ refB b ++ refG x, [], [])
  | .vgath t b v k => (refB b ++ refR v ++ refK k, refW t, refR t)
  | .vscat t b v k _ => (refV t ++ refB b ++ refR v ++ refK k, [], [])
  | .stAcc t b x _ _ => (refG t ++ refB b ++ refG x, [], [])
  | .stvAcc t b x _ _ => (refV t ++ refB b ++ refG x, [], [])
  | .mkfull a b => (refB a ++ refG b, [], [])
  | .mkempty a b => (refB a ++ refG b, [], [])
  | .fecheck d a b => (refB a ++ refG b, refG d, [])
  | .swarm d a b => (refG d ++ refB a ++ refG b, refG d, [])
  | .swait d a b => (refG d ++ refB a ++ refG b, refG d, [])
  | .fbind _ a => (refG a, [], [])
  | .funbind _ => ([], [], [])
  | .fdrain _ => ([], [], [])
  | .fence _ => ([], [], [])
  | .sfence _ => ([], [], [])
  | .tbind r h f => (refMask r h f, [], [])
  | .tclr r h f => ([], refMask r h f, [])
  | .tmask d r h f => (refMask r h f, refG d, [])
  | .vadd d a b k => (refV a ++ refV b ++ refK k, refW d, refOld d k)
  | .vsub d a b k => (refV a ++ refV b ++ refK k, refW d, refOld d k)
  | .vmul d a b k => (refV a ++ refV b ++ refK k, refW d, refOld d k)
  | .vfma d a b k => (refV a ++ refV b ++ refK k ++ refR d, refW d, [])
  | .vfms d a b k => (refV a ++ refV b ++ refK k ++ refR d, refW d, [])
  | .vneg d a k => (refV a ++ refK k, refW d, refOld d k)
  | .vabs d a k => (refV a ++ refK k, refW d, refOld d k)
  | .vmin d a b k => (refV a ++ refV b ++ refK k, refW d, refOld d k)
  | .vmax d a b k => (refV a ++ refV b ++ refK k, refW d, refOld d k)
  | .vrcp d a k => (refV a ++ refK k, refW d, refOld d k)
  | .vrsq d a k => (refV a ++ refK k, refW d, refOld d k)
  | .vexp2 d a k => (refV a ++ refK k, refW d, refOld d k)
  | .vlog2 d a k => (refV a ++ refK k, refW d, refOld d k)
  | .vsel d a b k => (refV a ++ refV b ++ refK k, refW d, [])
  | .vcmp k a b p _ => (refV a ++ refV b ++ refK p, refK k, [])
  | .vaddI32 d a b k => (refV a ++ refV b ++ refK k, refW d, refOld d k)
  | .vsubI32 d a b k => (refV a ++ refV b ++ refK k, refW d, refOld d k)
  | .vmulI32 d a b k => (refV a ++ refV b ++ refK k, refW d, refOld d k)
  | .vshlI32 d a b k => (refV a ++ refV b ++ refK k, refW d, refOld d k)
  | .vshrI32 d a b k => (refV a ++ refV b ++ refK k, refW d, refOld d k)
  | .vsraI32 d a b k => (refV a ++ refV b ++ refK k, refW d, refOld d k)
  | .vaddN32 d a b k => (refV a ++ refV b ++ refK k, refW d, refOld d k)
  | .vsubN32 d a b k => (refV a ++ refV b ++ refK k, refW d, refOld d k)
  | .vmulN32 d a b k => (refV a ++ refV b ++ refK k, refW d, refOld d k)
  | .vshlN32 d a b k => (refV a ++ refV b ++ refK k, refW d, refOld d k)
  | .vshrN32 d a b k => (refV a ++ refV b ++ refK k, refW d, refOld d k)
  | .vsraN32 d a b k => (refV a ++ refV b ++ refK k, refW d, refOld d k)
  | .vaddI16 d a b k => (refV a ++ refV b ++ refK k, refW d, refOld d k)
  | .vsubI16 d a b k => (refV a ++ refV b ++ refK k, refW d, refOld d k)
  | .vmulI16 d a b k => (refV a ++ refV b ++ refK k, refW d, refOld d k)
  | .vshlI16 d a b k => (refV a ++ refV b ++ refK k, refW d, refOld d k)
  | .vshrI16 d a b k => (refV a ++ refV b ++ refK k, refW d, refOld d k)
  | .vsraI16 d a b k => (refV a ++ refV b ++ refK k, refW d, refOld d k)
  | .vaddI8 d a b k => (refV a ++ refV b ++ refK k, refW d, refOld d k)
  | .vsubI8 d a b k => (refV a ++ refV b ++ refK k, refW d, refOld d k)
  | .vmulI8 d a b k => (refV a ++ refV b ++ refK k, refW d, refOld d k)
  | .vshlI8 d a b k => (refV a ++ refV b ++ refK k, refW d, refOld d k)
  | .vshrI8 d a b k => (refV a ++ refV b ++ refK k, refW d, refOld d k)
  | .vsraI8 d a b k => (refV a ++ refV b ++ refK k, refW d, refOld d k)
  | .vand d a b k => (refV a ++ refV b ++ refK k, refW d, refOld d k)
  | .vor d a b k => (refV a ++ refV b ++ refK k, refW d, refOld d k)
  | .vxor d a b k => (refV a ++ refV b ++ refK k, refW d, refOld d k)
  | .vnot d a k => (refV a ++ refK k, refW d, refOld d k)
  | .vmov d a k => (refV a ++ refK k, refW d, refOld d k)
  | .vcvt d a _ _ _ _ => (refV a, refW d, [])
  | .vqBfp d a st _ => (refV a ++ refR st, refW d ++ refW st, [])
  | .vdqBfp d a st => (refV a ++ refR st, refW d, [])
  | .vperm d a b k => (refV a ++ refV b ++ refK k, refW d, refOld d k)
  | .vrotl d a _ k => (refV a ++ refK k, refW d, refOld d k)
  | .vbcast d a _ k => (refV a ++ refK k, refW d, refOld d k)
  | .vext d a _ => (refV a, refG d, [])
  | .vins d a _ => (refG a, refW d, refR d)
  | .vzip d a b k => (refV a ++ refV b ++ refK k, refW d, refOld d k)
  | .vunzip d a k => (refV a ++ refK k, refW d, refOld d k)
  | .vhad d a => (refV a, refW d, [])
  | .vredsum d a k => (refV a ++ refK k, refW d, [])
  | .vredmax d a k => (refV a ++ refK k, refW d, [])
  | .vredmin d a k => (refV a ++ refK k, refW d, [])
  | .vtag d a _ _ => (refV a, refW d, [])
  | .xchain _ a b => (refG a ++ refG b, [], [])
  | .xstat _ a b => ([], refG a ++ refG b, [])
  | .xkill _ => ([], [], [])
  | .xrmw _ a b => (refG a ++ refG b, [], [])
  | .mcall _ => ([], [], [])
  | .mpset _ a b => (refG a ++ refG b, [], [])
  | .mzero _ _ a => (refG a, [], [])
  | .manch _ a => (refG a, [], [])
  | .zld _ a b => (refG a ++ refG b, [], [])
  | .zst _ a b => (refG a ++ refG b, [], [])
  | .mrload _ a b => (refG a ++ refG b, [], [])
  | .mstat _ a b => ([], refG a ++ refG b, [])
  | .cset a => (refG a, [], [])
  | .csend a => (refG a, [], [])
  | .crecv a => (refG a, [], [])
  | .creduce a => (refG a, [], [])
  | .cbcast a => (refG a, [], [])
  | .liftarm a b => (refG a ++ refG b, [], [])
  | .liftdisarm a b => (refG a, refG b, [])
  | .ctrig a b => (refG a ++ refG b, [], [])
  | .crnew a b => (refG b, refG a, [])
  | .crjoin a b => (refG a ++ refG b, [], [])
  | .crleave a b => (refG a ++ refG b, [], [])
  | .crfree a => (refG a, [], [])
  | .phreg _ a => (refG a, [], [])
  | .phdrop a => (refG a, [], [])
  | .phsig a => (refG a, [], [])
  | .phwait _ a => (refG a, [], [])
  | .launch c f a b => (refG a ++ refG b, refG c ++ refK f, [])
  | .lstat a b => (refG b, refG a, [])
  | .mte _ _ a b => (refG a ++ refG b, [], [])
  | .mfe _ _ a b => ([], refG a ++ refG b, [])
  | _ => ([], [], [])

/-- A reference by physical number under the bases in force (R20). -/
def RegRef.phys (q : Seqr) : RegRef → RegRef
  | .v n => .v (physV q.vrot n)
  | .k n => .k (physK q.krot n)
  | r => r

/-- What a word reads: its sources and the destinations it reads. -/
def readsOf (q : Seqr) (i : Instr) : List RegRef := ((refs i).1 ++ (refs i).2.2).map (RegRef.phys q)

/-- What a word writes. -/
def writesOf (q : Seqr) (i : Instr) : List RegRef := (refs i).2.1.map (RegRef.phys q)

/-- A reference that two words of a group may not both make: a pop or a push of one port. -/
def RegRef.isPort : RegRef → Bool
  | .pop _ | .push _ => true
  | _ => false

/-- The later of two words depends on the earlier (R66 check 5): read after write, write after write, two pops or two
pushes of one port. -/
def dependent (q : Seqr) (first second : Instr) : Bool :=
  (writesOf q first).any (fun r => (readsOf q second).contains r || (writesOf q second).contains r)
    || (readsOf q first).any (fun r => r.isPort && (readsOf q second).contains r)

/-- The slot class of a major: 0 A, 1 B, 2 M, 3 V, 4 E, 5 none (Table 3.2, R70). -/
def slotClass (w : W32) : Nat :=
  let m := w.toNat / 2 ^ 24 % 64
  if m < 15 then 0 else if m = 15 then 5 else if m < 32 then 1 else if m < 48 then 2 else if m < 61 then 3 else 4

/-- The slots of a class. -/
def slotCount (c : Nat) : Nat := if c = 0 || c = 3 then 2 else if c = 5 then 7 else 1

/-- The SLOT code of the n-th instruction of a class (Table 3.2). -/
def slotCode (c n : Nat) : BitVec 3 :=
  match c with
  | 0 => BitVec.ofNat 3 n
  | 1 => 2
  | 2 => 3
  | 3 => BitVec.ofNat 3 (4 + n)
  | 4 => 6
  | _ => 7

/-- How many of the words before position p have the class of word p. -/
def classRank (ws : List W32) (p : Nat) : Nat :=
  ((ws.take p).filter (fun w => slotClass w = slotClass (ws[p]?.getD 0))).length

/-- A group that failed its checks: the trap. -/
def badGroup (word : Nat) : Trap :=
  { code := cIllGroup, slot := 0, whole := true, word := BitVec.ofNat 4 word, bad := 0 }

/-- Decodes every word, or the trap of the lowest that is no instruction (R66 check 2). -/
def decodeAll : List W32 → Nat → Except Trap (List GroupWord)
  | [], _ => .ok []
  | w :: ws, p =>
    match decode w.toNat with
    | .error e => .error { code := cIllEnc, slot := e.slot, whole := false, word := BitVec.ofNat 4 p, bad := 0 }
    | .ok i =>
      match decodeAll ws (p + 1) with
      | .error t => .error t
      | .ok is => .ok (i :: is)

/-- The position of the later word of the lowest dependent pair: that of the lowest earlier word and, for it, the lowest later
word (DESIGN CHOICE, log entry 66). -/
def firstDependence (q : Seqr) (is : List Instr) : Option Nat :=
  (List.range is.length).findSome? (fun a =>
    ((List.range is.length).find? (fun b => decide (a < b) && dependent q (is[a]?.getD .nop) (is[b]?.getD .nop))))

/-- The checks of R66 on the fetched words, in order. -/
def checkGroup (q : Seqr) (ws : List W32) : Except Trap (List GroupWord) :=
  if !((ws.getLast?.map BitVec.msb).getD false) then .error (badGroup 6)
  else
    match decodeAll ws 0 with
    | .error t => .error t
    | .ok gs =>
      match (List.range gs.length).find? (fun p => decide (0 < p) && ((gs[p]?.map GroupWord.sync).getD false)) with
      | some p => .error (badGroup p)
      | none =>
        match (List.range ws.length).find? (fun p => decide (slotCount (slotClass (ws[p]?.getD 0)) ≤ classRank ws p)) with
        | some p => .error (badGroup p)
        | none =>
          match firstDependence q (gs.map GroupWord.instr) with
          | some p => .error (badGroup p)
          | none => .ok gs

/-- The extra cycles of a group: the excess reads of each vector bank (R75), the destinations that merging forms, `vins` and
`vgath` read among them (R130, R150, R168), and the v register whose mask alone `tbind` or `tmask` names (DESIGN CHOICE, log
entry 80). -/
def bankCycles (q : Seqr) (ws : List W32) (is : List Instr) : Nat :=
  let regs := ((ws.zip is).flatMap (fun e =>
    if slotClass e.1 = 2 || slotClass e.1 = 3 then
      (readsOf q e.2).filterMap (fun r => match r with | .v n => some n | _ => none)
    else [])).eraseDups
  (List.range 4).foldl (fun n b => n + ((regs.filter (fun r => r % 4 = b)).length - 2)) 0

/-- An `mtc`, whose writes come after those of the group's other members (R394). -/
def isMtc : Instr → Bool
  | .mtc _ _ _ => true
  | _ => false

/-- `brl` in either form: the end of its group is a pre-emption point (R110). -/
def isBrl : Instr → Bool
  | .brl _ | .brlRot _ => true
  | _ => false

/-- A matrix instruction: en 2 of major 0x3D (R188, R191). -/
def isMatrix (w : W32) : Bool := w.toNat / 2 ^ 24 % 64 = 61 && w.toNat / 2 ^ 21 % 8 = 2

/-- The members of a group in the order in which the model executes them: words in order, E commands after them and `mtc` last
(DESIGN CHOICE between M accesses and E commands that nothing orders, log entry 72). -/
def memberQueue (ws : List W32) (is : List Instr) : List (Nat × BitVec 3 × Instr) :=
  let ms := (is.zipIdx).map (fun e => (e.2, slotCode (slotClass (ws[e.2]?.getD 0)) (classRank ws e.2), e.1))
  let cmds := ms.filter (fun m => m.2.1 = 6)
  let rest := ms.filter (fun m => m.2.1 ≠ 6)
  rest.filter (fun m => !isMtc m.2.2) ++ cmds ++ rest.filter (fun m => isMtc m.2.2)

/-- The executing context leaves its slot at this boundary for the queue, or, in a parking gang, parked (R258, R260). -/
def State.departNow (s : State) : State :=
  { s with ctx :=
      if s.ctx.gangPark then { s.ctx with depart := some .park, gangPark := false, preempt := none }
      else { s.ctx with depart := some .requeue, preempt := none } }

/-- A request is pending and this boundary lies in no loop (R110). A group that waits has passed its boundary (R258). -/
def Seqr.mustDepart (q : Seqr) : Bool := (q.preempt.isSome || q.gangPark) && q.levels = 0 && q.wait.isNone

/-- A group is a sync group: Y of its first word, or an instruction that makes it one (R67). -/
def isSyncGroup (gs : List GroupWord) : Bool :=
  (gs.head?.any GroupWord.sync) || gs.any (fun g =>
    match g.instr with
    | .br _ _ _ | .bra _ _ _ | .call _ _ _ | .ret | .jr _ | .brl _ | .brlRot _ | .lbrk _ _ | .trap _ | .eret => true
    | _ => false)

/-- An instruction before which every access and command of its sequencer is performed (R73, R204, R225, R236). -/
def settlesQueues : Instr → Bool
  | .fence _ | .sfence _ | .phsig _ | .phwait _ _ | .exit _ | .swait _ _ _ | .ldfe _ _ _ _ => true
  | _ => false

/-- An access of the M queue lags. -/
def LateWork.isAccess : LateWork → Bool
  | .store kind _ _ _ _ => kind ≠ .rmw
  | .command _ _ _ _ => false

/-- A word reads or writes a register that a waiting command has still to write, or writes one that it has still to read
(R71). -/
def LateWork.holds (q : Seqr) (i : Instr) : LateWork → Bool
  | .store _ _ _ _ _ => false
  | .command pre _ _ c => dependent q c i || (writesOf q i).any (fun r => (readsOf pre c).contains r)

/-- What lags of the executing sequencer is performed before a group of these members: all of it, or that of one queue. -/
def State.flushed (s : State) (w : LateWork) : Bool :=
  let q := s.issue.queue
  s.issue.sync || s.late.any (fun l => l.handle = s.ctx.handle && decide (16 ≤ l.groups)) || q.any (fun m => settlesQueues m.2.2)
    || (w.isAccess && q.any (fun m => m.2.1 = 3)) || (!w.isAccess && q.any (fun m => m.2.1 = 6))
    || q.any (fun m => w.holds s.ctx m.2.2)

/-- A store of the executing sequencer homed on its own core waits in the Curb: a sync group waits for it (R67, R230). -/
def State.ownCurb (s : State) : Bool :=
  (s.entriesOf s.ctx.handle).any (fun e => e.parts.any (fun p => p.pending && s.ownCorePart s.ctx.cdie.toNat e p))

/-- The executing context's next group is fetched and checked; its members are queued (R66), a sync group's once its condition
holds (R67). A held stream is reported first (R342), then a matrix error after a restore (R191), then the group's own faults,
then a matrix error before the next matrix instruction. -/
def State.issueGroup (s : State) : State :=
  let q := s.ctx
  if q.mustDepart then s.departNow
  else
    match if q.midGroup then [] else q.heldDue, if q.midGroup then none else q.held with
    | a :: _, _ => s.raiseHeld cStreamHeld a
    | [], held =>
      match if q.resumed then held else none with
      | some (c, a) => s.raiseHeld c a
      | none =>
        match s.fetchGroup 7 q.pc with
        | .error (c, a, n) => s.takeTrap { code := c, slot := 7, whole := true, word := BitVec.ofNat 4 n, bad := a }
        | .ok ws =>
          match checkGroup q ws with
          | .error t => s.takeTrap t
          | .ok gs =>
            match if ws.any isMatrix then held else none with
            | some (c, a) => s.raiseHeld c a
            | none =>
              if isSyncGroup gs && s.ownCurb then s.recordWait .storeRoom
              else
              let is := gs.map GroupWord.instr
              let vas := (List.range ws.length).map (fun i => q.pc + BitVec.ofNat 64 (4 * i))
              { s.noteAll s.me .exec (vas.map (fun a => (a, 4))) with
                issue := { Issue.idle with
                  pre := some q, since := some s.orderNext, late := !isSyncGroup gs && Config.queueLags s.freeCtr
                  sync := isSyncGroup gs, len := ws.length, bankCycles := bankCycles q ws is, queue := memberQueue ws is } }

/-- A sequencer issues its next group: it runs and is not leaving its slot, or it leaves it in a group that has had an effect
elsewhere (R252). -/
def Seqr.issues (q : Seqr) : Bool := if q.depart.isNone then q.st = .running else q.midGroup

/-- Group issue (R66): the step executes the members queued here. Of a sequencer that is leaving its slot it performs what its
queues still hold (R252). -/
def execGroupIssue (h : BitVec 24) (s : State) : Out :=
  let s := s.select h
  .next (
    if s.ctx.handle = h && h ≠ 0 && s.issue.queue.isEmpty then
      let s := { s with issue := .idle }
      if s.ctx.issues then s.issueGroup
      else if s.ctx.depart.isSome then { s with issue := { Issue.idle with sync := true } }
      else s
    else s)

end Sys2Proof.Machine
end

