-- ==== Sys2Proof/Machine/Image.lean ====
section
/-!
DEFINITION. The context image and its words (spec/01_machine_state.md R29, R33, R39, Tables 1.2 to 1.10), the save area
(spec/10_execution_and_scheduling.md R252 to R255), and the slots, lots and tiles of cores.
-/

namespace Sys2Proof.Machine

/-! ### Words of the image -/

/-- The code of a sequencer state (Table 1.7). -/
def SeqState.code : SeqState → Nat
  | .queued => 0
  | .resident => 1
  | .running => 2
  | .parked => 3
  | .frozen => 4
  | .retired => 5

/-- The tile descriptor as a word (Table 1.4). -/
def Tile.word (t : Tile) : W64 :=
  BitVec.ofNat 64 (t.kind.toNat + 4 * t.anchor.toNat + 2 ^ 12 * bitOf t.o + 2 ^ 13 * bitOf t.x + 2 ^ 14 * bitOf t.nan
    + 2 ^ 15 * bitOf t.busy)

/-- A tile with the descriptor of a word; BUSY is the engine's own. -/
def Tile.setWord (t : Tile) (w : W64) : Tile :=
  { t with kind := BitVec.ofNat 2 w.toNat, anchor := BitVec.ofNat 10 (w.toNat / 4), o := w.getLsbD 12,
           x := w.getLsbD 13, nan := w.getLsbD 14 }

/-- The entry of a taint tag (R33). -/
def TagEntry.word (t : TagEntry) : W64 :=
  BitVec.ofNat 64 (1 + 2 * t.entry.toNat + 2 ^ 13 * t.stream.toNat + 2 ^ 17 * t.seqno.toNat)

/-- The valid bits of the taint tags: cr.tags. -/
def Seqr.tagBits (q : Seqr) : Nat := packNat 1 (fun i => bitOf (q.tags[i]?.getD none).isSome) 16

/-- Control register n, zero-extended (Table 1.3). -/
def Seqr.cr (q : Seqr) (n : Nat) : W64 :=
  match n with
  | 0 => q.vrot.zeroExtend 64
  | 1 => q.krot.zeroExtend 64
  | 2 => q.rmode.zeroExtend 64
  | 3 => q.ovf.zeroExtend 64
  | 4 => q.seed.zeroExtend 64
  | 5 => q.fstat.zeroExtend 64
  | 6 => q.ctaint.zeroExtend 64
  | 7 => BitVec.ofNat 64 q.tagBits
  | 8 => q.sv.zeroExtend 64
  | 9 => q.bankstall.zeroExtend 64
  | 10 => q.parkLimit.zeroExtend 64
  | 11 => q.holdmax.zeroExtend 64
  | 12 => q.roerr.zeroExtend 64
  | 13 => BitVec.ofNat 64 (q.index.toNat + 2 ^ 16 * q.job.toNat)
  | 14 => q.handle.zeroExtend 64
  | 15 => q.cause.zeroExtend 64
  | 16 => q.epc
  | 17 => q.badaddr
  | 18 => q.trapBase
  | 19 => if q.sup then 1 else 0
  | _ => 0

/-- Writes control register n with the low bits of a value, reserved ones as zero (R9); the registers that are RO for both levels
keep theirs. -/
def Seqr.setCr (q : Seqr) (n : Nat) (v : W64) : Seqr :=
  match n with
  | 0 => { q with vrot := v.truncate 5 }
  | 1 => { q with krot := v.truncate 2 }
  | 2 => { q with rmode := v.truncate 3 }
  | 3 => { q with ovf := v.truncate 2 }
  | 4 => { q with seed := seedFix (v.truncate 32) }
  | 5 => { q with fstat := (v.truncate 7).zeroExtend 32 }
  | 8 => { q with sv := v.truncate 2 }
  | 9 => { q with bankstall := v.truncate 32 }
  | 10 => { q with parkLimit := v.truncate 32 }
  | 11 => { q with holdmax := v.truncate 32 }
  | 12 => { q with roerr := v.truncate 32 }
  | 15 => { q with cause := (v.truncate 16).zeroExtend 32 }
  | 16 => { q with epc := v }
  | 17 => { q with badaddr := v }
  | 18 => { q with trapBase := v }
  | _ => q

/-- The value fits no reserved value or field of control register n (R29). -/
def crAccepts (n : Nat) (v : W64) : Bool :=
  match n with
  | 2 => decide (v.toNat % 8 ≤ 4)
  | 5 => v.toNat % 2 ^ 32 / 2 ^ 7 = 0
  | 15 => v.toNat % 2 ^ 32 / 2 ^ 16 = 0
  | _ => true

/-- The state word (Table 1.7). -/
def Seqr.stateWord (q : Seqr) : W64 :=
  BitVec.ofNat 64 (q.st.code + 8 * q.cls.toNat + 2 ^ 6 * packNat 1 (fun i => bitOf (q.level i).valid) 6
    + 2 ^ 12 * bitOf q.sup + 2 ^ 13 * bitOf q.recon + 2 ^ 16 * q.core.toNat + 2 ^ 22 * q.cdie.toNat)

/-- The control word of a port (Table 1.7). -/
def FeedPort.word (f : FeedPort) : W64 :=
  BitVec.ofNat 64 (f.bind.toNat + 4 * f.tag.toNat + 2 ^ 6 * f.aux.toNat + 2 ^ 9 * f.entries.length + 2 ^ 16 * f.swz.toNat)

/-- 64-bit word i of a vector. -/
def vecWord (v : Vec) (i : Nat) : W64 := v.extractLsb' (64 * i) 64

/-- Word n of the image (Table 1.10), given the tile descriptors. -/
def Seqr.imageWord (q : Seqr) (tiles : Nat → W64) (n : Nat) : W64 :=
  if n = 0 then q.pc
  else if n = 1 then q.stateWord
  else if n < 0x022 then
    let r := q.g[n - 2]?.getD (.zero 32)
    BitVec.ofNat 64 (r.val.toNat + 2 ^ 32 * r.taint.toNat)
  else if n < 0x02A then (q.b[n - 0x022]?.getD (.zero 64)).val
  else if n < 0x032 then (q.b[n - 0x02A]?.getD (.zero 64)).taint.zeroExtend 64
  else if n < 0x03A then (if n = 0x032 then BitVec.allOnes 64 else (q.k[n - 0x032]?.getD (.zero 64)).val)
  else if n < 0x042 then (q.k[n - 0x03A]?.getD (.zero 64)).taint.zeroExtend 64
  else if n < 0x054 then
    let l := q.level ((n - 0x042) / 3)
    match (n - 0x042) % 3 with
    | 0 => BitVec.ofNat 64 (l.count.toNat + 2 ^ 32 * l.index.toNat)
    | 1 => l.start
    | _ => l.stop
  else if n < 0x05C then q.mp[n - 0x054]?.getD 0
  else if n < 0x07C then q.cr (n - 0x05C)
  else if n < 0x080 then 0
  else if n < 0x0B8 then
    let r := q.v[n - 0x080]?.getD .zero
    BitVec.ofNat 64 (r.tag.toNat + 2 ^ 4 * r.aux.toNat + 2 ^ 16 * r.taint.toNat)
  else if n < 0x0C8 then ((q.tags[n - 0x0B8]?.getD none).map TagEntry.word).getD 0
  else if n < 0x0D0 then tiles (n - 0x0C8)
  else if n < 0x100 then 0
  else if n < 0x200 then q.stagingOf ((n - 0x100) / 64) ((n - 0x100) % 64)
  else if n < 0x900 then vecWord (q.v[(n - 0x200) / 32]?.getD .zero).val ((n - 0x200) % 32)
  else if n < 0xD08 then
    let f := q.port ((n - 0x900) / 129)
    match (n - 0x900) % 129 with
    | 0 => f.word
    | i + 1 => vecWord (f.entries[i / 32]?.getD 0) (i % 32)
  else 0

/-- The number of words of an image (R39). -/
def imageWords : Nat := 0xD08

/-- The vector that 32 words spell. -/
def vecOf (f : Nat → W64) : Vec := BitVec.ofNat 2048 (packNat 64 (fun i => (f i).toNat) 32)

/-- A port from its words; its walk is kept in the walk block. -/
def FeedPort.ofWords (f : FeedPort) (rd : Nat → W64) : FeedPort :=
  let c := rd 0
  { f with
    bind := c.truncate 2
    tag := BitVec.ofNat 4 (c.toNat / 4)
    aux := BitVec.ofNat 3 (c.toNat / 2 ^ 6)
    swz := BitVec.ofNat 8 (c.toNat / 2 ^ 16)
    entries := (List.range (Nat.min 4 (fieldOf c 9 3))).map (fun e => vecOf (fun i => rd (1 + 32 * e + i))) }

/-- The bits of a staging register that are not reserved (Tables 7.2, 8.6, 12.2). -/
def stagingMask (c i : Nat) : W64 :=
  match c, i with
  | 0, 2 => 0xF
  | 1, 1 => 0xFFFFFFFF
  | 3, 0 => BitVec.ofNat 64 (2 ^ 28 - 1)
  | 3, 1 => BitVec.ofNat 64 (2 ^ 50 - 1)
  | 3, 4 => BitVec.ofNat 64 (2 ^ 55 - 1)
  | 3, 5 => BitVec.ofNat 64 (2 ^ 14 - 1)
  | 2, i =>
    match i % 8 with
    | 0 => 0x7FFF
    | 4 => 0xFFFFFFFF
    | 6 | 7 => 0
    | _ => BitVec.allOnes 64
  | _, _ => BitVec.allOnes 64

/-- A context with the registers that the words of an image spell, reserved bits as zero (R9). Its identity, state, class and place, and the identities
of its tags stay those the package keeps; a tag is valid where the word says so. -/
def Seqr.load (q : Seqr) (rd : Nat → W64) : Seqr :=
  let q := { q with
    pc := rd 0
    g := Vector.ofFn (fun i => if i.val = 0 then .zero 32 else
      { val := (rd (2 + i.val)).truncate 32, taint := BitVec.ofNat 16 ((rd (2 + i.val)).toNat / 2 ^ 32) })
    b := Vector.ofFn (fun i => { val := rd (0x022 + i.val), taint := (rd (0x02A + i.val)).truncate 16 })
    k := Vector.ofFn (fun i => if i.val = 0 then .zero 64 else
      { val := rd (0x032 + i.val), taint := (rd (0x03A + i.val)).truncate 16 })
    ls := Vector.ofFn (fun i =>
      let w := rd (0x042 + 3 * i.val)
      { valid := (rd 1).getLsbD (6 + i.val), count := w.truncate 32, index := BitVec.ofNat 32 (w.toNat / 2 ^ 32),
        start := rd (0x043 + 3 * i.val), stop := rd (0x044 + 3 * i.val) })
    mp := Vector.ofFn (fun i => rd (0x054 + i.val))
    v := Vector.ofFn (fun i =>
      let m := rd (0x080 + i.val)
      { val := vecOf (fun j => rd (0x200 + 32 * i.val + j)), tag := m.truncate 4, aux := BitVec.ofNat 3 (m.toNat / 16),
        taint := BitVec.ofNat 16 (m.toNat / 2 ^ 16) })
    ports := Vector.ofFn (fun i => (q.port i.val).ofWords (fun j => rd (0x900 + 129 * i.val + j)))
    staging := (List.range 256).foldl (fun t i =>
      let w := rd (0x100 + i) &&& stagingMask (i / 64) (i % 64)
      if w = 0 then t else tset i w t) []
    ctaint := (rd (0x05C + 6)).truncate 16
    tags := Vector.ofFn (fun i => if (rd (0x0B8 + i.val)).getLsbD 0 then q.tags[i] else none) }
  (List.range 20).foldl (fun q n => q.setCr n (rd (0x05C + n))) q

/-! ### Tiles, lots and slots of a core -/

/-- The number that a sequencer's tile name t maps to: core and physical tile. -/
def Seqr.tileNo (q : Seqr) (t : Nat) : Option Nat := q.tiles[t]?

/-- Physical tile t of core n. -/
def State.tileAt (s : State) (n t : Nat) : Tile := tget .reset (s.coreOf n).tiles t

/-- Changes a physical tile. -/
def State.modTile (s : State) (n t : Nat) (f : Tile → Tile) : State :=
  s.modCore n (fun c => { c with tiles := tset t (f (tget .reset c.tiles t)) c.tiles })

/-- The descriptor of a sequencer's tile: of its physical tile while it holds a slot, else of its image. -/
def State.tileDesc (s : State) (q : Seqr) (t : Nat) : W64 :=
  match q.tileNo t with
  | some p => (s.tileAt q.coreNo p).word
  | none => q.tileWords[t]?.getD 0

/-- Word n of a sequencer's image. -/
def State.imageOf (s : State) (q : Seqr) (n : Nat) : W64 := q.imageWord (s.tileDesc q) n

/-- The sequencers that hold a slot of core n. -/
def State.onCore (s : State) (n : Nat) : List Seqr :=
  s.allSeqs.filter (fun q => q.handle ≠ 0 && q.isResident && q.coreNo = n)

/-- The sequencers whose stopped restore holds room on core n (R254). -/
def State.restoringOn (s : State) (n : Nat) : List Seqr :=
  s.allSeqs.filter (fun q => q.handle ≠ 0 && q.restoring.isSome && q.coreNo = n)

/-- The physical lots of core n in use. -/
def State.usedLots (s : State) (n : Nat) : List Nat := (s.onCore n ++ s.restoringOn n).flatMap Seqr.lots
/-- The physical tiles of core n in use. -/
def State.usedTiles (s : State) (n : Nat) : List Nat := (s.onCore n ++ s.restoringOn n).flatMap Seqr.tiles
/-- The free context slots of core n. -/
def State.freeSlots (s : State) (n : Nat) : List Nat :=
  (List.range 4).filter (fun i => ((s.coreOf n).slots[i]?.getD none).isNone)

/-- k free numbers below n: which of them is the device's choice (log entry 6). -/
def State.pickMany (s : State) (n : Nat) (used : List Nat) : Nat → List Nat
  | 0 => []
  | k + 1 =>
    match pickFree (Config.freeNat s.freeCtr) n (fun i => !(used.contains i)) with
    | none => []
    | some i => i :: s.pickMany n (i :: used) k

/-! ### The save area (R253, R254, R294) -/

/-- The die scheduler as a master for a sequencer's save area. -/
def State.saver (s : State) (q : Seqr) (die : Nat) : Who := { die := die, asid := s.asidOf q.job, job := q.job, sup := true }

/-- Copies n bytes between places, poison as marks; both places are multiples of 32. -/
def State.copyBlock (s : State) (src dst n : Nat) : State :=
  let marks := s.poison
  let s := s.writeBytes (atAddrs dst ((List.range n).map (fun i => Memory.read s.mem (src + i))))
  let moved := marks.filter (fun g => decide (src ≤ 32 * g) && 32 * g < src + n)
  { s with poison := s.poison ++ moved.map (fun g => g - src / 32 + dst / 32) }

/-- The full/empty bits of a lot as the 512 bits of its bitmap. -/
def State.lotBits (s : State) (core lot : Nat) : List Byte :=
  let l := lineOf (lotPlace core lot 0)
  leBytes (packNat 1 (fun i => bitOf (!(s.empties.contains (l + i)))) 512) 64

/-- Sets the bits of a lot from a bitmap at a place. -/
def State.setLotBits (s : State) (core lot bm : Nat) : State :=
  let l := lineOf (lotPlace core lot 0)
  { s with empties :=
      s.empties.filter (fun x => decide (x < l) || decide (l + 512 ≤ x))
        ++ ((List.range 512).filter (fun i => !((Memory.read s.mem (bm + i / 8)).getLsbD (i % 8)))).map (fun i => l + i) }

/-- Every bit of a lot is full. -/
def State.fillLotBits (s : State) (core lot : Nat) : State :=
  let l := lineOf (lotPlace core lot 0)
  { s with empties := s.empties.filter (fun x => decide (x < l) || decide (l + 512 ≤ x)) }

/-- A tile as bytes in `zst` layout (R193). -/
def Tile.bytes (t : Tile) : List Byte := (List.range 16384).flatMap (fun i => leBytes (tget 0 t.cells i).toNat 6)

/-- The walk block of a port (R294). -/
def Walk.blockBytes (w : Walk) : List Byte :=
  (List.range 8).flatMap (fun i => leBytes (w.desc[i]?.getD 0).toNat 8)
    ++ leBytes (w.i1 + 2 ^ 16 * w.i2 + 2 ^ 32 * w.i3 + 2 ^ 48 * w.off) 8 ++ leBytes w.bytes 8

/-- The state that a departure leads to (Table 10.1). -/
def Depart.leadsTo : Depart → SeqState
  | .freeze => .frozen
  | .park => .parked
  | .requeue => .queued

/-- The parts of a save before its lots, in order: offset in the save area and bytes. The image's state word is that of the state
which the save leads to. -/
def State.saveParts (s : State) (q : Seqr) : List (Nat × List Byte) :=
  let core := q.coreNo
  let saved := { q with st := (q.depart.map Depart.leadsTo).getD q.st }
  [(0, (List.range imageWords).flatMap (fun n => leBytes (s.imageOf saved n).toNat 8))]
    ++ (q.lots.zipIdx).map (fun l => (0x7000 + 64 * l.2, s.lotBits core l.1))
    ++ (q.tiles.zipIdx).map (fun t => (0x8000 + 0x18000 * t.2, (s.tileAt core t.1).bytes))
    ++ (List.range 8).filterMap (fun p => ((q.port p).walk).map (fun w => (0xF0000 + 128 * p, w.blockBytes)))

/-- Writes the parts of a sequencer's save in order, up to the first that fails; the parts done are counted. -/
def State.writeParts (s : State) (w : Who) (h : BitVec 24) (base : W64) :
    List (Nat × List Byte) → State × Option (BitVec 8 × W64)
  | [] => (s, none)
  | (o, bs) :: ps =>
    match s.masterWrite w (base + BitVec.ofNat 64 o) bs false with
    | .error e => (s, some e)
    | .ok s => (s.modSeq h (fun q => { q with savedParts := q.savedParts + 1 })).writeParts w h base ps

/-- The memory that an address of a save area names, on this package or another. -/
def State.areaAddr (s : State) (die : Nat) (asid : BitVec 8) (va : W64) : Option W64 :=
  match s.leafFor die asid va with
  | some (l, _) => if !pteBit l 8 && hasMemory (paLocal (frameAddr l va)) then some (frameAddr l va) else none
  | none => none

/-- What stops a save or a restore at an address of the save area: no page of memory, or a read-only one (R254). -/
def State.areaFault (s : State) (die : Nat) (asid : BitVec 8) (va : W64) : Option (BitVec 8) :=
  match s.leafFor die asid va, s.areaAddr die asid va with
  | some (l, _), some _ => if pteBit l 3 then some cPerm else none
  | _, _ => some cXlate

/-- Saves lot n of a sequencer, physical lot l of its core, to its copy with its bitmap (R253): in this package with its poison
marks, to another as copy traffic. -/
def State.saveLot (s : State) (die : Nat) (j : Job) (q : Seqr) (n l : Nat) : Except (BitVec 8 × W64) State :=
  let va := j.saveBase q.index.toNat + BitVec.ofNat 64 (0x100000 + 0x10000 * n)
  let a := lotPlace q.coreNo l 0
  let bits := s.lotBits q.coreNo l
  match match s.areaFault die j.asid va, s.areaAddr die j.asid va with
    | some c, _ => Except.error (c, va)
    | none, none => .error (cXlate, va)
    | none, some pa =>
      if paPkg pa = s.pkg then .ok (s.copyBlock a (paLocal pa) 0x10000)
      else s.masterWrite (s.saver q die) va (s.bytesAt a 0x10000) false with
  | .error e => .error e
  | .ok s => s.masterWrite (s.saver q die) (j.saveBase q.index.toNat + BitVec.ofNat 64 (0x7000 + 64 * n)) bits false

/-- Saves the lots of a sequencer from number n on, one at a time, each remapped once it is copied; up to the first that
fails (R253, R254). -/
def State.saveLots (s : State) (die : Nat) (j : Job) (q : Seqr) : Nat → List Nat → State × Option (BitVec 8 × W64)
  | _, [] => (s, none)
  | n, l :: ls =>
    match s.saveLot die j q n l with
    | .error e => (s, some e)
    | .ok s => (s.modSeq q.handle (fun q => { q with savedLots := n + 1 })).saveLots die j q (n + 1) ls

/-- Parks a save or restore that found part of its area missing (R254). -/
def State.parkSave (s : State) (q : Seqr) (die : Nat) (e : BitVec 8 × W64) : State :=
  s.parkWork die (mkRec 4 e.1 (q.handle.zeroExtend 32) q.job e.2 0) (.saveArea q.handle)

/-- A save or restore of the sequencer waits for its record to be resolved. -/
def State.saveParked (s : State) (h : BitVec 24) : Bool := s.parked.any (fun p => p.work = .saveArea h)

/-- A commmand of the core's matrix queue belongs to the sequencer (R253). -/
def State.matrixOwes (s : State) (q : Seqr) : Bool := (s.coreOf q.coreNo).mq.any (fun c => c.handle = q.handle)

/-- Copy traffic of a core's matrix engine is under way. -/
def State.coreTraffic (s : State) (n : Nat) : Bool := s.landings.any (fun l => l.core = n && l.port.isNone)

/-- An entry of a drain port of a sequencer is on its way (R291). -/
def State.portTraffic (s : State) (h : BitVec 24) (p : Nat) : Bool := s.landings.any (fun l => l.handle = h && l.port = some p)

/-- Frees the slot of a sequencer; RUN keeps the slot the core last issued from (R251). -/
def State.freeSlot (s : State) (q : Seqr) : State :=
  (s.modCore q.coreNo (fun c =>
    { c with slots := c.slots.map (fun x => if x = some q.handle then none else x) })).leaveLdfe s.pkg q.handle

/-- Writes word n of a departed sequencer's image into its save area, where the image has been written. -/
def State.reimage (s : State) (h : BitVec 24) (n : Nat) : State :=
  match s.seqOf h with
  | none => s
  | some q =>
    if !q.imaged || q.isResident then s
    else
      match s.jobOf q.job with
      | none => s
      | some j =>
        match s.masterWrite (s.saver q q.cdie.toNat) (j.saveBase q.index.toNat + BitVec.ofNat 64 (8 * n))
            (leBytes (s.imageOf q n).toNat 8) false with
        | .ok s => s
        | .error _ => s

/-- Changes the state of a sequencer that holds no slot, in its image too. -/
def State.setSt (s : State) (h : BitVec 24) (st : SeqState) : State := (s.modSeq h (fun q => { q with st := st })).reimage h 1

/-- A stopped restore is undone: the lots it had loaded go back to their copies, and its room on the core is free (R254). -/
def State.undoRestore (s : State) (h : BitVec 24) : State :=
  match s.seqOf h with
  | none => s
  | some q =>
    match q.restoring, s.jobOf q.job with
    | some k, some j =>
      let s := (q.lots.zipIdx).foldl (fun s l =>
        if l.2 < k then (match s.saveLot q.cdie.toNat j q l.2 l.1 with | .ok s => s | .error _ => s) else s) s
      (s.freeSlot q).modSeq h (fun q => { q with restoring := none, lots := [], tiles := [] })
    | _, _ => s

/-- A sequencer enters the tail of the queue (R247). -/
def State.enqueue (s : State) (h : BitVec 24) : State :=
  { (s.setSt h .queued) with runQueue := s.runQueue.filter (fun x => x ≠ h) ++ [h] }

/-- The save of a departing context (R252, R253): its parts, then its lots, which are remapped to their copies; the slot
is free, and the sequencer is in the state its departure leads to (R250). A part that fails stops the save, which goes on from
it (R254). -/
def State.saveContext (s : State) (q : Seqr) : State :=
  match s.jobOf q.job with
  | none => s
  | some j =>
    let die := q.cdie.toNat
    let (s, err) := s.writeParts (s.saver q die) q.handle (j.saveBase q.index.toNat) ((s.saveParts q).drop q.savedParts)
    match err with
    | some e => s.parkSave q die e
    | none =>
      match s.saveLots die j q q.savedLots (q.lots.drop q.savedLots) with
      | (s, some e) => s.parkSave q die e
      | (s, none) =>
        let words := (List.range 8).map (s.tileDesc q)
        let s := s.freeSlot q
        let s := if q.depart = some .park then s.modCore q.coreNo (fun c => { c with parks := c.parks + 1 }) else s
        let s := s.modSeq q.handle (fun q =>
          { q with st := (q.depart.map Depart.leadsTo).getD q.st, depart := none, lots := [], tiles := [], tileWords := words, imaged := true, preempt := none
                   gangPark := false, savedParts := 0, savedLots := 0 })
        let s := s.refreshCrews q.job q.index.toNat
        let s := if 0 < q.savedParts then s.reimage q.handle 1 else s
        if q.depart = some .requeue then s.enqueue q.handle else s

end Sys2Proof.Machine
end

