-- ==== Sys2Proof/Machine/Jobs.lean ====
section
/-!
DEFINITION. The end of a job (spec/08_sync_collective_system.md R198), the freezing, thawing and retirement of sequencers
(R222, R225, spec/10_execution_and_scheduling.md R250), and pre-emption requests for a queued sequencer (R247 to R249).
-/

namespace Sys2Proof.Machine

/-! ### The end of a job (R198, R397) -/

/-- The live engine jobs of a program job leave the footprint tables (R242). -/
def State.leaveFeet (s : State) (num : BitVec 16) : State :=
  { s with dies := s.dies.map (fun d => (d.1, { d.2 with live := d.2.live.filter (fun f => f.job ≠ num) })) }

/-- What a job holds goes: its crews are dissolved, its footprint entries, its routines (R194) and its number are free, and
its idle copy channels belong to no job; the others stay as they are (R222). -/
def State.releaseJob (s : State) (num : BitVec 16) : State :=
  let s := { s with jobs := s.jobs.map (fun (x : Job) => if x.num = num then { x with retired := true } else x) }
  let s := (s.crews.filter (fun c => c.handle.toNat / 2 ^ 16 = num.toNat)).foldl (fun s c => s.freeCrew c) s
  let s := s.leaveFeet num
  { s with
    dies := s.dies.map (fun d => (d.1, { d.2 with foot := d.2.foot.filter (fun f => f.2.job ≠ num) }))
    cores := s.cores.map (fun c => (c.1, { c.2 with dir := c.2.dir.map (fun e =>
      (e.1, if e.2.owner.toNat = num.toNat + 1 then { e.2 with valid := false, owner := 0 } else e.2)) }))
    channels := s.channels.map (fun c => (c.1, if c.2.job = num && c.2.state = 0 then { c.2 with job := 0 } else c.2)) }

/-- Once its completion record is written or abandoned, a job's launch entry shows its end, and, unless a deadline ended it,
what it holds is released. -/
def State.closeJob (s : State) (num : BitVec 16) : State :=
  match s.jobs.find? (fun j => j.num = num && !j.retired) with
  | none => s
  | some j =>
    let e := j.ended.getD 0
    let s := { s with
      launches := s.launches.map (fun (l : Nat × LaunchEntry) =>
        if l.2.job = num && l.2.state = 1 then (l.1, { l.2 with state := 2, fin := BitVec.ofNat 2 e.toNat }) else l)
      jobs := s.jobs.map (fun (x : Job) => if x.num = num && !x.retired then { x with doneWritten := true } else x) }
    if e = 1 then s else s.releaseJob num

/-- The bytes of a completion record (Table 8.2). -/
def State.doneBytes (s : State) (j : Job) : List Byte :=
  leBytes j.status.toNat 4 ++ leBytes (j.ended.getD 0).toNat 4 ++ leBytes s.ptime.toNat 8

/-- Writes the completion record, or parks it; the job's end waits for it (R397), and for a migrating frame (R337). -/
def State.writeDone (s : State) (j : Job) : State :=
  if j.word 20 = 0 then s.closeJob j.num
  else if s.writeBlocked (s.piazza j.num) (linePieces 3 (j.word 20) 16) then s
  else
    match s.masterWrite (s.piazza j.num) (j.word 20) (s.doneBytes j) true with
    | .ok s => s.closeJob j.num
    | .error (c, a) => s.parkPiazza j.num c a (.completion j.num)

/-- A job ends with an END code (Table 8.2). -/
def State.endJob (s : State) (num : BitVec 16) (e : Nat) : State :=
  match s.jobOf num with
  | none => s
  | some j =>
    if j.ended.isSome then s
    else
      let s := s.modJob num (fun j => { j with ended := some (BitVec.ofNat 32 e) })
      s.writeDone { j with ended := some (BitVec.ofNat 32 e) }

/-! ### Pre-emption requests (R246 to R249) -/

/-- A core may take a sequencer: its sub-partition under the current variant, and its confinement die (R247). -/
def State.allowed (s : State) (j : Job) (q : Seqr) (n : Nat) : Bool :=
  (s.subCores j j.sv.toNat (j.subOf q.index.toNat)).contains n
    && (match s.confinement q with | some d => n / 48 = d | none => true)

/-- A core has room for a sequencer of a job. -/
def State.hasRoom (s : State) (j : Job) (n : Nat) : Bool :=
  !(s.freeSlots n).isEmpty && decide ((s.usedLots n).length + j.lots ≤ 48) && decide ((s.usedTiles n).length + j.tiles ≤ 8)

/-- A ballast sequencer waits for cores that a queued sequencer of classes 0 to 3 may use (R248). -/
def State.ballastWaits (s : State) (q : Seqr) (n : Nat) : Bool :=
  q.cls = 4 && s.runQueue.any (fun h =>
    match s.seqOf h with
    | none => false
    | some x => decide (x.cls.toNat < 4) && x.st = .queued &&
        (match s.jobOf x.job with | some j => s.allowed j x n | none => false))

/-- The eligible cores of a queued sequencer, in ascending order (R247). -/
def State.eligible (s : State) (q : Seqr) : List Nat :=
  match s.jobOf q.job with
  | none => []
  | some j => (List.range 192).filter (fun n => s.allowed j q n && s.hasRoom j n && !(s.ballastWaits q n))

/-- The resident sequencer on which a request for a queued one falls: of a numerically greater class or ballast, with a
LONGITER, of the lowest priority, and of those the one made resident most recently (R249). Of a gang, each member's request falls
on another one than those in the list (R260). -/
def State.victim (s : State) (q : Seqr) (others : List (BitVec 24)) : Option Seqr :=
  match s.jobOf q.job with
  | none => none
  | some j =>
    let cands : List Seqr := s.allSeqs.filter (fun x =>
      x.handle ≠ 0 && x.isResident && !others.contains x.handle && s.allowed j q x.coreNo && decide (q.cls.toNat < x.cls.toNat)
        && (match s.jobOf x.job with | some k => k.longiter ≠ 0 | none => false))
    cands.foldl (fun (best : Option Seqr) (x : Seqr) =>
      match best with
      | none => some x
      | some y =>
        if y.cls.toNat < x.cls.toNat || (y.cls = x.cls && decide (y.residentSince < x.residentSince)) then some x
        else some y) none

/-- A request for a queued sequencer is outstanding. -/
def State.asking (s : State) (q : Seqr) : Bool :=
  match q.target.bind s.seqOf with
  | none => false
  | some x => x.isResident && (x.preempt.isSome || x.depart.isSome)

/-- A queued sequencer makes its one request (R249). -/
def State.askFor (s : State) (h : BitVec 24) (others : List (BitVec 24) := []) : State :=
  match s.seqOf h with
  | none => s
  | some q =>
    if q.st ≠ .queued || s.asking q then s
    else
      match s.victim q others with
      | none => s
      | some x => (s.request x.handle).modSeq h (fun q => { q with target := some x.handle })

/-- A queued sequencer without an eligible core makes its request. -/
def State.askRoom (s : State) (h : BitVec 24) : State :=
  match s.seqOf h with
  | none => s
  | some q => if q.restoring.isNone && (s.eligible q).isEmpty then s.askFor h else s

/-- A sequencer enters the queue and makes its request if it finds no core. -/
def State.requeue (s : State) (h : BitVec 24) : State := (s.enqueue h).askRoom h

/-! ### Freezing and retiring sequencers (R222, R225, R250) -/

/-- `freeze` of a sequencer: a resident one stops at its next group boundary, past a group that has had an effect elsewhere, and is
saved (R252); another is marked in its image. A supervisor context never freezes (Table 14.7). -/
def State.freezeSeq (s : State) (h : BitVec 24) : State :=
  match s.seqOf h with
  | none => s
  | some q =>
    if q.sup then s
    else
    match q.st with
    | .frozen | .retired => s
    | .resident | .running =>
      if q.midGroup then s.modSeq h (fun q => { q with depart := some .freeze, preempt := none, gangPark := false })
      else
        (s.leaveWaits q).modSeq h (fun q => { q.noWait with depart := some .freeze, preempt := none, gangPark := false })
    | .parked | .queued =>
      let s := ({ s with runQueue := s.runQueue.filter (fun x => x ≠ h) }.undoRestore h).leaveWaits q
      (s.modSeq h Seqr.noWait).setSt h .frozen

/-- `thaw` of a frozen sequencer: it is re-queued at its class; one that has stopped and is still being saved is queued then. -/
def State.thawSeq (s : State) (h : BitVec 24) : State :=
  match s.seqOf h with
  | none => s
  | some q =>
    if q.depart = some .freeze then s.modSeq h (fun q => { q with depart := some .requeue })
    else if q.st ≠ .frozen then s
    else s.requeue h

/-- The executing sequencer retires with a status (R198, R225). -/
def State.retireCtx (s : State) (status : W32) : State :=
  let q := s.ctx
  let s := s.crews.foldl (fun s c =>
    if c.handle.toNat / 2 ^ 16 = q.job.toNat && (c.member q.index.toNat).joined then s.leaveCrew q.job q.index.toNat c else s) s
  let s := s.freeSlot q
  let s := { s with ctx :=
    { s.ctx.noWait with st := .retired, lots := [], tiles := [], tags := Vector.replicate 16 none, preempt := none
                        gangPark := false, depart := none } }
  let s := s.modJob q.job (fun j => { j with left := j.left - 1, status := if j.status = 0 then status else j.status })
  match s.jobOf q.job with
  | some j => if j.left = 0 then s.endJob q.job 0 else s
  | none => s

end Sys2Proof.Machine
end

