-- ==== Sys2Proof/Machine/System.lean ====
section
/-!
DEFINITION. The system instructions on the executing context (spec/08_sync_collective_system.md R206, R217 to R225):
traps, control registers, yielding, sleeping, time and exit.
-/

namespace Sys2Proof.Machine

/-- A supervisor-only operation in user mode raises PRIV, and has no effect (R35). -/
def State.supOnly (s : State) (go : State → State) : State := if s.src.sup then go s else s.raise cPriv 0

/-- `trap` (R218). -/
def execTrap (_i : BitVec 8) (s : State) : Out := .next (s.raise cTrapInsn 0)

/-- `eret`: continues at cr.epc (R219). -/
def execEret (s : State) : Out := .next (s.supOnly State.trapReturn)

/-- `mfc`: the value from before the group, 64 bits over two registers (R29, R220). -/
def execMfc (l h : BitVec 5) (n : BitVec 8) (s : State) : Out :=
  .next (
    if n = 18 && !s.src.sup then s.raise cPriv 0
    else
      let v := s.src.cr n.toNat
      (s.wg l (v.truncate 32) 0).wg h (BitVec.ofNat 32 (v.toNat / 2 ^ 32)) 0)

/-- The control registers RO for both levels (R29). -/
def crReadOnly (n : Nat) : Bool := n = 6 || n = 7 || n = 13 || n = 14 || n = 19

/-- The control registers only a supervisor writes (R29). -/
def crSupWrite (n : Nat) : Bool := n = 8 || n = 10 || n = 11 || n = 15 || n = 16 || n = 17 || n = 18

/-- Writes a control register after the group's other members: the counters gain what the group adds, cr.fstat the flags
it raises (R394). -/
def State.writeCr (s : State) (n : Nat) (v : W64) : State :=
  let v := match n with
    | 5 => v ||| s.issue.raised.zeroExtend 64
    | 9 => (satAdd (v.truncate 32) s.issue.bankCycles).zeroExtend 64
    | 12 => (satAdd (v.truncate 32) s.issue.roerrs).zeroExtend 64
    | _ => v
  { s with ctx := s.ctx.setCr n v }

/-- `mtc` (R29, R30, R220, R394). -/
def execMtc (l h : BitVec 5) (n : BitVec 8) (s : State) : Out :=
  .next (s.hold ((s.rg l).taint ||| (s.rg h).taint) (fun s =>
    let v : W64 := BitVec.ofNat 64 ((s.rg l).val.toNat + 2 ^ 32 * (s.rg h).val.toNat)
    if crReadOnly n.toNat then s.roerrUp
    else if crSupWrite n.toNat && !s.src.sup then s.raise cPriv 0
    else if !crAccepts n.toNat v then s.roerrUp
    else s.writeCr n.toNat v))

/-- A sequencer of the same or a higher class is queued that could take a slot of the context's core (R223). -/
def State.queuedForCore (s : State) : Bool :=
  s.runQueue.any (fun h =>
    match s.seqOf h with
    | none => false
    | some x => x.st = .queued && decide (x.cls.toNat ≤ s.ctx.cls.toNat) &&
        (match s.jobOf x.job with | some j => s.allowed j x s.ctx.coreNo | none => false))

/-- `yield` (R223). -/
def execYield (s : State) : Out :=
  .next (if s.queuedForCore then { s with ctx := { s.ctx with depart := some .requeue, preempt := none } }
         else s)

/-- The sleep of the executing context is over: a parked sleeper counts package time, another the cycles of its die. -/
def State.slept (s : State) (c : Nat) : Bool :=
  if s.ctx.wakeAt ≠ 0 then decide (s.ctx.wakeAt.toNat ≤ s.ptime.toNat)
  else decide (c ≤ (s.dieAt s.ctx.cdie.toNat).cycle)

/-- `sleep`: waits u(g[ra]) cycles (R223). -/
def execSleep (a : BitVec 5) (s : State) : Out :=
  .next (s.hold (s.rg a).taint (fun s =>
    let n := (s.rg a).val.toNat
    if n = 0 then s
    else
      match s.ctx.wait with
      | some (.sleepUntil c, _) =>
        if s.slept c then { s with ctx := { s.ctx with wakeAt := 0 } } else s.stall (.sleepUntil c)
      | _ => s.stall (.sleepUntil ((s.dieAt s.ctx.cdie.toNat).cycle + n))))

/-- `ptime`: the values one sequencer reads never decrease (R224). -/
def execPtime (d : BitVec 3) (s : State) : Out :=
  let t := if s.ctx.lastPtime.ult s.ptime then s.ptime else s.ctx.lastPtime
  .next ({ s with ctx := { s.ctx with lastPtime := t } }.wb d t 0)

/-- `svget` (R206). -/
def execSvget (d : BitVec 5) (s : State) : Out := .next (s.wg d (s.src.sv.zeroExtend 32) 0)

/-- Every drain port is written, or the failed address of one traps (R225, R292). -/
def State.drainAll (s : State) : List Nat → (State → State) → State
  | [], go => go s
  | p :: ps, go =>
    if (s.src.port p).bind = 2 then s.drained (BitVec.ofNat 3 p) (fun s => s.drainAll ps go) else s.drainAll ps go

/-- `exit` (R225): the waits in order, then the sequencer retires. -/
def execExit (a : BitVec 5) (s : State) : Out :=
  .next (s.hold (s.rg a).taint (fun s =>
    s.heldFirst (fun s => s.fenceTo 4 s.ctx.cdie.toNat (fun s =>
      if s.matrixOwes s.ctx then s.stall .engineDone
      else s.drainAll (List.range 8) (fun s => s.retireCtx (s.rg a).val)))))

end Sys2Proof.Machine
end

