-- ==== Sys2Proof/Machine/Routine.lean ====
section
/-!
DEFINITION. The routine store of a core and its directory, the words of a routine as checked by R275, and the standard
library (spec/11_matrix_engine.md R272 to R275, R282).
-/

namespace Sys2Proof.Machine

/-- The words of the standard library, in the order of Table 11.5 (R282). -/
def libWords : List Nat :=
  let p : Instr := .uopLoop 2 1 0
  let gemm (f : BitVec 4) : List Instr := [p, .loadb f 0 1 1, .streama f 0 1 0 8 0 127 0]
  let gemmt (f : BitVec 4) : List Instr := .trans 1 :: gemm f
  let drn (f : BitVec 4) (m : BitVec 3) : Instr := .drain 8 f m 7 0 1 2 0 127 1
  (gemm 2 ++ gemm 3 ++ gemm 4 ++ [p, .loadb 8 7 1 2, .streama 8 7 1 0 8 0 127 0]
    ++ gemmt 2 ++ gemmt 3 ++ gemmt 4 ++ [.had 8 0 127, drn 1 0, drn 2 0, drn 3 0, drn 4 0, drn 8 7]).map encodeUop

/-- The lengths of the library's routines 0 to 12. -/
def libLengths : List Nat := [3, 3, 3, 3, 4, 4, 4, 1, 1, 1, 1, 1, 1]

/-- The directory entry of a routine after reset: the library's, or an invalid one (R282). -/
def libEntry (n : Nat) : DirEntry :=
  if n < 13 then
    { valid := true, offset := BitVec.ofNat 14 ((libLengths.take n).foldl (fun a b => a + b) 0),
      length := BitVec.ofNat 15 (libLengths[n]?.getD 0), owner := 0 }
  else { valid := false, offset := 0, length := 0, owner := 0 }

/-- The directory entry of routine n of a core. -/
def Core.entry (c : Core) (n : Nat) : DirEntry := tget (libEntry n) c.dir n

/-- Micro-op word w of a core's routine store; words beyond the library are zero at reset (log entry 10). -/
def Core.uopWord (c : Core) (w : Nat) : W64 := tget (BitVec.ofNat 64 (libWords[w]?.getD 0)) c.store w

/-- The free words of a core's routine store (`mx.rsfree`, Table 7.2). -/
def Core.freeWords (c : Core) : Nat :=
  16384 - (List.range 256).foldl (fun a n => if (c.entry n).valid then a + (c.entry n).length.toNat else a) 0

/-- The range of an entry. -/
def DirEntry.covers (e : DirEntry) (w : Nat) : Bool := e.valid && decide (e.offset.toNat ≤ w) && w < e.offset.toNat + e.length.toNat

/-- Two ranges of words overlap. -/
def rangesMeet (o n o' n' : Nat) : Bool := decide (o < o' + n') && decide (o' < o + n) && n ≠ 0 && n' ≠ 0

/-- A range overlaps a valid routine other than n. -/
def Core.overlaps (c : Core) (n o len : Nat) : Bool :=
  (List.range 256).any (fun k => k ≠ n && (c.entry k).valid && rangesMeet o len (c.entry k).offset.toNat (c.entry k).length.toNat)

/-- A call of routine n has been accepted on the core and not completed. -/
def Core.calls (c : Core) (n : Nat) : Bool :=
  c.mq.any (fun m => match m.op with | .call a => a.routine = n | _ => false)

/-- The LOOP bodies of a routine's words: first and last word of each. -/
def loopBodies (is : List Instr) : List (Nat × Nat) :=
  (is.zipIdx).filterMap (fun e => match e.1 with | .uopLoop len _ _ => some (e.2 + 1, e.2 + len.toNat) | _ => none)

/-- The conditions of R275 on the words together: every body lies within the routine, bodies nest or are apart, and no
nesting is deeper than two. -/
def bodiesOk (n : Nat) (bs : List (Nat × Nat)) : Bool :=
  bs.all (fun b => decide (b.2 < n)
    && bs.all (fun c => decide (c.2 < b.1) || decide (b.2 < c.1) || (decide (b.1 ≤ c.1) && decide (c.2 ≤ b.2))
        || (decide (c.1 ≤ b.1) && decide (b.2 ≤ c.2)))
    && decide ((bs.filter (fun c => decide (c.1 ≤ b.1) && decide (b.2 ≤ c.2))).length ≤ 2))

/-- A routine's words are valid (R275). -/
def routineOk (ws : List Nat) : Bool :=
  let is := ws.filterMap decodeUop
  is.length = ws.length && bodiesOk ws.length (loopBodies is)

end Sys2Proof.Machine
end

