-- ==== Sys2Proof/Machine/Engine.lean ====
section
/-!
DEFINITION. Engine registers, the commands to the copy engines, `xrmw`, and launches
(spec/07_engine_instructions.md R171 to R187; spec/08_sync_collective_system.md R207, R208).
-/

namespace Sys2Proof.Machine

/-! ### Engine registers (R28, R174, R175, R209, R216, R290) -/

/-- The class number of an en code: 0 xc, 1 mx, 2 fd, 3 cl. -/
def engClass (e : BitVec 3) : Nat := if e = 0 then 0 else e.toNat - 1

/-- Writes a staging register of the executing context. -/
def State.setStaging (s : State) (c i : Nat) (v : W64) : State :=
  let v := v &&& stagingMask c i
  let k := 64 * c + i
  { s with ctx := { s.ctx with staging := (if v = 0 then terase k s.ctx.staging else tset k v s.ctx.staging) } }

/-- The assigned registers (R28): xc and mx have 64 staging registers, those not listed being free storage (R175, Table 7.2);
fd has 64 (Table 12.2); cl has those of Table 8.6 (log entry 35). -/
def engAssigned (c i : Nat) : Bool :=
  match c with
  | 0 => i < 64 || i = 64 || i = 65
  | 1 => i < 64 || i = 64
  | 2 => i < 64
  | _ => i ≤ 5 || i = 64 || i = 65

/-- An engine register as the executing sequencer reads it; unassigned indices read zero (R28). -/
def State.engRead (s : State) (c i : Nat) : W64 :=
  let card (n : Nat) : W64 := ((s.jobOf s.ctx.job).map (fun j => j.word n)).getD 0
  if !engAssigned c i then 0
  else if i < 64 then s.src.stagingOf c i
  else
    match c, i with
    | 0, 64 => card 11
    | 0, 65 => card 12
    | 1, 64 => BitVec.ofNat 64 (s.coreOf s.ctx.coreNo).freeWords
    | 3, 64 => BitVec.ofNat 64 (s.wcoll.toNat + 256 * s.wprog.toNat)
    | 3, 65 => BitVec.ofNat 64 ((card 13).toNat % 2 ^ 50)
    | _, _ => 0

/-- The 64-bit value of two g registers. -/
def State.pair (s : State) (lo hi : BitVec 5) : W64 := BitVec.ofNat 64 ((s.rg lo).val.toNat + 2 ^ 32 * (s.rg hi).val.toNat)

/-- `mte` (R28, R174, R216). -/
def execMte (e : BitVec 3) (i : BitVec 7) (a b : BitVec 5) (s : State) : Out :=
  .next (s.eslot ((s.rg a).taint ||| (s.rg b).taint) (fun s =>
    let c := engClass e
    let v := s.pair a b
    if !engAssigned c i.toNat then s.roerrUp
    else if i.toNat < 64 then s.setStaging c i.toNat v
    else if !s.src.sup then s.raise cPriv 0
    else if c = 3 && i = 64 then { s with wcoll := v.truncate 8, wprog := BitVec.ofNat 8 (v.toNat / 256) }
    else s.roerrUp))

/-- `mfe`: both halves untainted (R174). -/
def execMfe (e : BitVec 3) (i : BitVec 7) (a b : BitVec 5) (s : State) : Out :=
  .next (s.eslot 0 (fun s =>
    let v := s.engRead (engClass e) i.toNat
    (s.wg a (v.truncate 32) 0).wg b (BitVec.ofNat 32 (v.toNat / 2 ^ 32)) 0))

/-! ### Copy channels (R181 to R184) -/

/-- The status word of a channel (Table 7.4). -/
def Channel.status (c : Channel) : W32 :=
  BitVec.ofNat 32 (c.state.toNat + 8 * bitOf c.killed + 16 * bitOf c.killing + 32 * c.pend.length + 256 * c.last.toNat
    + 2 ^ 13 * (if c.state = 3 then c.fkind.toNat else 0))

/-- A command that names a channel of the sequencer's die: an ungranted one raises ENGINE (R181). -/
def State.withChannel (s : State) (c : BitVec 7) (go : Channel → State → State) : State :=
  let grant := s.engRead 0 (64 + c.toNat / 64)
  if !grant.getLsbD (c.toNat % 64) then s.raise cEngine 0 else go (s.chan s.ctx.cdie.toNat c.toNat) s

/-- `xchain` (R182). -/
def execXchain (c : BitVec 7) (a b : BitVec 5) (s : State) : Out :=
  .next (s.eslot ((s.rg a).taint ||| (s.rg b).taint) (fun s =>
    s.withChannel c (fun ch s =>
      let h := s.pair a b
      if h.toNat % 64 ≠ 0 then s.raise cAlign h
      else
        match s.translate s.me .store h 64 with
        | .error (code, va) => s.raise code va
        | .ok _ =>
          let s := s.touch s.me h
          if ch.state = 4 then s.raise cEngine 0
          else if 3 ≤ ch.pend.length then s.stall .engineRoom
          else
            s.modChan s.ctx.cdie.toNat c.toNat (fun ch =>
              if ch.state = 0 then { ch with cur := some h, killed := false, state := 1 }
              else { ch with pend := ch.pend ++ [h], killed := false }))))

/-- `xstat` (R183). -/
def execXstat (c : BitVec 7) (a b : BitVec 5) (s : State) : Out :=
  .next (s.eslot 0 (fun s => s.withChannel c (fun ch s => (s.wg a ch.status 0).wg b ch.retcnt 0)))

/-- `xkill`: a kill is accepted; it completes in a step of its own (R184). -/
def execXkill (c : BitVec 7) (s : State) : Out :=
  .next (s.eslot 0 (fun s => s.withChannel c (fun ch s =>
    if ch.state = 4 then s.raise cEngine 0
    else if ch.state = 0 then s
    else s.modChan s.ctx.cdie.toNat c.toNat (fun ch => { ch with killing := true }))))

/-! ### Returning read-modify-write (R185 to R187) -/

/-- A writable scratchpad address on the sequencer's die (R186). -/
def State.retOk (s : State) (a : W64) : Except (BitVec 8 × W64) Unit :=
  match s.translate s.me .store a with
  | .error e => .error e
  | .ok x =>
    match if x.pkg = s.pkg then s.homeOf s.ctx.cdie.toNat s.ctx.sup .store x.via x.addr else .error cPerm with
    | .error c => .error (c, a)
    | .ok h => if isScratch h.place && dieOf h.place = s.ctx.cdie.toNat then .ok () else .error (cPerm, a)

/-- `xrmw`: a command enters the Curb as a store of the stream in `xc.strm` (R185 to R187). -/
def execXrmw (o : BitVec 4) (a b : BitVec 5) (s : State) : Out :=
  .next (s.eslot ((s.rg a).taint ||| (s.rg b).taint) (fun s =>
    let addr := s.src.stagingOf 0 0
    let ret := s.src.stagingOf 0 1
    let st : BitVec 4 := (s.src.stagingOf 0 2).truncate 4
    if addr.toNat % 4 ≠ 0 then s.raise cAlign addr
    else if ret ≠ 0 && ret.toNat % 4 ≠ 0 then s.raise cAlign ret
    else
      match s.translate s.me .store addr 4 with
      | .error (c, va) => s.raise c va
      | .ok x =>
        if s.scPending then s.stall .fence
        else
        match if ret = 0 then .ok () else s.retOk ret with
        | .error (c, va) => s.raise c va
        | .ok _ =>
          let s := s.touchAll s.me (if ret = 0 then [addr] else [addr, ret])
          s.accept .rmw x.sc st none 0
            [{ x := x, va := addr, effects := [.rmw x.addr o (s.rg a).val (s.rg b).val ret] }]))

/-! ### Launch (R207, R208) -/

/-- An entry of the pending-launch store. -/
def State.launchEntry (s : State) (n : Nat) : LaunchEntry := tget .reset s.launches n

/-- The 32 words of a card that bytes spell. -/
def cardOf (bs : List Byte) : Vector W64 32 :=
  Vector.ofFn (fun i => BitVec.ofNat 64 (ofBytes ((bs.drop (8 * i.val)).take 8)))

/-- The bytes that a master on behalf of the executing sequencer reads, at their home and not from any Curb; another
package's are asked for (R334, R336, R345). -/
def State.readHomes (s : State) (w : Who) (p : Piece) (go : List Byte → State → State) : State :=
  if p.x.pkg = s.pkg then
    match s.homeOf w.die w.sup .load p.x.via p.x.addr with
    | .error c => s.raise c p.va
    | .ok h =>
      match (List.range p.n).find? (fun i => s.poisoned (h.place + i) 1) with
      | some i => s.raise cPoison (p.va + BitVec.ofNat 64 i)
      | none => go (s.bytesAt h.place p.n) ((s.touchVia p.x.via p.x.addr).countRemote h.place s.pkg w.die)
  else
    s.ask .reply false none (fun t => .read p.x.pkg p.x.via w.die s.ctx.handle t 0 0 p.x.exp p.x.addr p.n) (fun r s =>
      match r with
      | .value v => go ((vecBytes v).take p.n) s
      | .fault c a => s.raise c (if c = cRmtFault then p.va else p.va + (a - p.x.addr))
      | .poison a => s.raise cPoison (p.va + (a - p.x.addr))
      | .again => s.stall .reply)

/-- The serial of the next acceptance. -/
def State.nextSerial (s : State) : BitVec 24 := s.serial + 1

/-- `launch`: all 256 entries occupied is a refusal that the sequencer counts; otherwise the card is read and enqueued
(R207). The Piazza translates its address with its own root of the job's address space (R329). Which free entry it takes is the
device's choice (log entry 6). -/
def execLaunch (c : BitVec 5) (f : BitVec 3) (a b : BitVec 5) (s : State) : Out :=
  .next (s.eslot ((s.rg a).taint ||| (s.rg b).taint) (fun s =>
    let h := s.pair a b
    if h.toNat % 256 ≠ 0 then s.raise cAlign h
    else
      let w : Who := { s.me with die := 4 }
      match s.translate w .load h 256 with
      | .error (code, va) => s.raise code va
      | .ok x =>
          let s := s.touch w h
          match pickFree (Config.freeNat s.freeCtr) 256 (fun n => !(s.launchEntry n).occupied) with
          | none =>
            let n := s.ctx.launchRefused + 1
            ({ s with ctx := { s.ctx with launchRefused := n } }.wk f (BitVec.allOnes 64) 0).wg c n 0
          | some n =>
            s.readHomes w { va := h, n := 256, x := x } (fun bs s =>
              let s := s.drawFree
              let e : LaunchEntry :=
                { card := cardOf bs, serial := s.nextSerial, order := s.orderNext, asid := s.asidOf s.ctx.job,
                  parent := s.ctx.job, state := 0, fin := 0, job := 0, occupied := true, taken := none }
              let ticket : W32 := BitVec.ofNat 32 (n + 256 * s.nextSerial.toNat)
              let s := { s with
                launches := tset n e s.launches, serial := s.nextSerial, orderNext := s.orderNext + 1
                ctx := { s.ctx with launchRefused := 0 } }
              (s.wk f 0 0).wg c ticket 0)))

/-- The status word of a ticket (Table 8.5): an entry whose serial differs is unknown. -/
def State.ticketWord (s : State) (t : W32) : W32 :=
  let e := s.launchEntry (t.toNat % 256)
  if e.serial.toNat ≠ t.toNat / 256 || e.state = 5 then 5
  else
    let st := e.state.toNat
    BitVec.ofNat 32 (st + (if st = 2 then 8 * e.fin.toNat else 0) + (if st = 1 || st = 2 then 2 ^ 16 * e.job.toNat else 0))

/-- `lstat` (R208). -/
def execLstat (a b : BitVec 5) (s : State) : Out :=
  .next (s.eslot (s.rg b).taint (fun s => s.wg a (s.ticketWord (s.rg b).val) 0))

end Sys2Proof.Machine
end

