-- ==== Sys2Proof/Machine/Foot.lean ====
section
/-!
DEFINITION. Footprint tables (spec/09_memory_model.md R238 to R242) and the reading and writing of memory by engines: the
chunks of a walk, a read at the home under the full/empty rule, and sync-word additions (R136, R138, R291, R292).
-/

namespace Sys2Proof.Machine

/-! ### Footprints -/

/-- The regions of entry e for a job on a die: an entry that is no declaration of the job covers every address (R241). -/
def State.footRegions (s : State) (die : Nat) (job : BitVec 16) (e : Nat) : List (W64 × Nat × Bool × Bool) :=
  match (s.dieAt die).foot.find? (fun f => f.1 = e && f.2.job = job) with
  | some f => f.2.regions
  | none => [(0, 2 ^ 64, true, true)]

/-- Two regions overlap in a byte and one of them is written (R241). -/
def regionsConflict (a b : W64 × Nat × Bool × Bool) : Bool :=
  decide (a.1.toNat < b.1.toNat + b.2.1) && decide (b.1.toNat < a.1.toNat + a.2.1) && (a.2.2.2 || b.2.2.2)

/-- The footprints of two live jobs of one program job conflict. -/
def State.footConflict (s : State) (die : Nat) (a b : FootJob) : Bool :=
  a.job = b.job && (s.footRegions die a.job a.entry).any (fun x =>
    (s.footRegions die b.job b.entry).any (fun y => regionsConflict x y))

/-- No live job occupies entry e of a die. -/
def State.footFree (s : State) (die e : Nat) : Bool := !((s.dieAt die).live.any (fun f => f.entry = e))

/-- Registers an engine job on a free entry; its number is its place in the order of arrival. -/
def State.footRegister (s : State) (die : Nat) (who : EngineJob) (job : BitVec 16) (e : Nat) : State :=
  { s.modDie die (fun d => { d with live := d.live ++ [{ who := who, job := job, entry := e, num := s.orderNext }] }) with
    orderNext := s.orderNext + 1 }

/-- Every earlier-registered live job that conflicts with job number n has left (R241). -/
def State.footMayStart (s : State) (die n : Nat) : Bool :=
  match (s.dieAt die).live.find? (fun f => f.num = n) with
  | none => true
  | some f => (s.dieAt die).live.all (fun g => decide (n ≤ g.num) || !(s.footConflict die g f))

/-- Job number n leaves the table of a die (R242). -/
def State.footLeave (s : State) (die n : Nat) : State :=
  s.modDie die (fun d => { d with live := d.live.filter (fun f => f.num ≠ n) })

/-! ### Memory as an engine reaches it -/

/-- What a read of an engine gives: bytes, an empty line to wait on, or a failure with its address. -/
inductive EngRead where
  | bytes (bs : List Byte)
  | wait (va : W64)
  | fail (code : BitVec 8) (va : W64)
  deriving DecidableEq, Repr

/-- Chunks of a walk's stream from place p on, each within one run and one 128-byte line. -/
def Walk.chunks (w : Walk) : Nat → Nat → Nat → List (W64 × Nat)
  | 0, _, _ => []
  | fuel + 1, p, n =>
    if n = 0 then []
    else
      let a := w.addr p
      let k := Nat.min n (Nat.min (w.l0 - p % w.l0) (128 - a.toNat % 128))
      if k = 0 then [] else (a, k) :: w.chunks fuel (p + k) (n - k)

/-- Reads n bytes of one line at their home for a master (R136, R238, R345); with `scratch` the address must be a
scratchpad's (R292). What another package holds is the environment's (log entry 15). -/
def State.engReadLine (s : State) (w : Who) (scratch : Bool) (va : W64) (n : Nat) : EngRead :=
  match s.translate w .load va with
  | .error (c, a) => .fail c a
  | .ok x =>
    if x.pkg ≠ s.pkg then
      if scratch && x.via = .phys && !isScratch (paLocal x.addr) then .fail cPerm va
      else
        match s.farFault x with
        | some c => .fail c va
        | none => .bytes ((List.range n).map (fun i => Config.farByte s.freeCtr (va.toNat + i)))
    else
      match s.homeOf w.die w.sup .load x.via x.addr with
      | .error c => .fail c va
      | .ok h =>
        if scratch && h.fe.isNone then .fail cPerm va
        else if !s.feFull h.fe then .wait va
        else
          match (List.range n).find? (fun i => !isSession h.place && s.poisoned (h.place + i) 1) with
          | some i => .fail cPoison (va + BitVec.ofNat 64 i)
          | none => .bytes (s.bytesAt h.place n)

/-- Reads the chunks in order; the first that waits or fails decides. -/
def State.engReadAll (s : State) (w : Who) (scratch : Bool) : List (W64 × Nat) → EngRead
  | [] => .bytes []
  | (va, n) :: cs =>
    match s.engReadLine w scratch va n with
    | .bytes bs =>
      (match s.engReadAll w scratch cs with
      | .bytes rest => .bytes (bs ++ rest)
      | r => r)
    | r => r

/-- The next n bytes of a walk (R291). -/
def State.walkRead (s : State) (w : Who) (k : Walk) (n : Nat) : EngRead := s.engReadAll w true (k.chunks n k.place n)

/-- Where the chunks of a written entry lead: each must be a writable scratchpad address (R292). -/
def State.walkWritable (s : State) (w : Who) : List (W64 × Nat) → Except (BitVec 8 × W64) (List (W64 × Nat × Xlat))
  | [] => .ok []
  | (va, n) :: cs =>
    match s.translate w .store va n with
    | .error e => .error e
    | .ok x =>
      match (if x.pkg = s.pkg then (s.homeOf w.die w.sup .store x.via x.addr).map Home.fe
        else if x.via = .phys && !isScratch (paLocal x.addr) then .ok none
        else
          match s.farFault x with
          | some c => .error c
          | none => .ok (some (.line 0)) : Except (BitVec 8) (Option FeRef)) with
      | .error c => .error (c, va)
      | .ok none => .error (cPerm, va)
      | .ok (some _) =>
        match s.walkWritable w cs with
        | .error e => .error e
        | .ok xs => .ok ((va, n, x) :: xs)

/-- A later byte that the walk writes in entries of n bytes, from place p on, falls into the line of an address; it is
exhausted at an entry that it ends part-way through (R291). -/
def Walk.returnsTo (w : Walk) (n p : Nat) (va : W64) : Bool :=
  (List.range (w.c1 * w.c2 * w.c3)).any (fun r =>
    let first := Nat.max (r * w.l0) p
    let last := Nat.min ((r + 1) * w.l0) (w.length / n * n)
    if last ≤ first then false
    else
      let a := (w.addr first).toNat
      let z := a + (last - first)
      decide (a < va.toNat / 128 * 128 + 128) && decide (va.toNat / 128 * 128 < z))

/-- Adds n landed bytes to the sync word at a virtual address (R138, R292); 0 names none. -/
def State.engSync (s : State) (w : Who) (va : W64) (n : Nat) : Except (BitVec 8 × W64) State :=
  if va = 0 then .ok s
  else
    match s.translate w .store va 16 with
    | .error e => .error e
    | .ok x =>
      if x.pkg ≠ s.pkg then
        match s.farFault x with
        | some c => .error (c, va)
        | none => if n = 0 then .ok s else .ok ((s.touch w va).emit (.syncAdd x.pkg x.via x.exp x.addr n))
      else
        match s.homeOf w.die w.sup .store x.via x.addr with
        | .error c => .error (c, va)
        | .ok h =>
          if !hasMemory h.place then .error (cPerm, va)
          else if n = 0 then .ok s
          else .ok ((s.note w .store va).countAt h.place n)

/-- The master that walks for a sequencer: its own address space and job (R292). -/
def State.masterOf (s : State) (q : Seqr) : Who :=
  { die := q.cdie.toNat, asid := s.asidOf q.job, job := q.job, sup := q.sup }

end Sys2Proof.Machine
end

