-- ==== Sys2Proof/Machine/Matrix.lean ====
section
/-!
DEFINITION. The matrix instructions and the matrix queue of a core (spec/07_engine_instructions.md R188 to R195), and the
end of routines (R190, R191, R265, R280).
-/

namespace Sys2Proof.Machine

/-! ### The queue -/

/-- Changes the running routine of a core. -/
def State.modRoutine (s : State) (n : Nat) (f : Routine → Routine) : State :=
  s.modCore n (fun c => { c with routine := c.routine.map f })

/-- A tile selector of a micro-op: a tile name, or one of mp6's (R274). -/
def CallArgs.tileName (a : CallArgs) (ts : BitVec 4) : Nat :=
  if ts.toNat < 8 then ts.toNat else fieldOf (a.mp[6]) (3 * (ts.toNat - 8)) 3

/-- WMASK of a call's control word (Table 7.6). -/
def CallArgs.wmask (a : CallArgs) (t : Nat) : Bool := (a.mp[7]).getLsbD t
/-- RMASK of a call's control word. -/
def CallArgs.rmask (a : CallArgs) (t : Nat) : Bool := (a.mp[7]).getLsbD (8 + t)

/-- A queued call writes physical tile t of its core: the tile is BUSY (Table 1.4, R190). -/
def State.owed (s : State) (n t : Nat) : Bool :=
  (s.coreOf n).mq.any (fun m =>
    match m.op, s.seqOf m.handle with
    | .call a, some q => (q.tiles.zipIdx).any (fun x => x.1 = t && a.wmask x.2)
    | _, _ => false)

/-- Sets BUSY of every tile of a core as its queue stands. -/
def State.refreshBusy (s : State) (n : Nat) : State :=
  (List.range 8).foldl (fun s t => if (s.tileAt n t).busy = s.owed n t then s else s.modTile n t (fun x => { x with busy := s.owed n t })) s

/-- Removes the commands of a core's queue that satisfy p, with their registrations (R242). -/
def State.dropCmds (s : State) (n : Nat) (p : MatCmd → Bool) : State :=
  let gone := (s.coreOf n).mq.filter p
  let s := gone.foldl (fun s m => match m.reg with | some r => s.footLeave (n / 48) r | none => s) s
  (s.modCore n (fun c => { c with mq := c.mq.filter (fun m => !p m) })).refreshBusy n

/-- The head command of a core leaves the queue; a routine of its ends. -/
def State.popCmd (s : State) (n : Nat) : State :=
  match (s.coreOf n).mq with
  | [] => s
  | m :: ms =>
    let s := match m.reg with | some r => s.footLeave (n / 48) r | none => s
    (s.modCore n (fun c => { c with mq := ms, routine := none })).refreshBusy n

/-- A parked sequencer is re-queued (R191, R257). -/
def State.unpark (s : State) (h : BitVec 24) : State :=
  match s.seqOf h with
  | none => s
  | some q =>
    if q.depart = some .park then s.modSeq h (fun q => { q with depart := some .requeue })
    else if q.st ≠ .parked then s
    else s.requeue h

/-- An error that a command of core n met is held for its sequencer: its queued commands are discarded, but not a routine that
runs, and, parked, it is re-queued (R191). -/
def State.holdFor (s : State) (n : Nat) (h : BitVec 24) (gaddr : W64) (code : BitVec 8) : State :=
  let running := if (s.coreOf n).routine.isSome then (s.coreOf n).mq.take 1 else []
  let s := s.dropCmds n (fun x => x.handle = h && !(running.contains x))
  let s := s.modSeq h (fun q => if q.held.isSome then q else { q with held := some (code, gaddr) })
  s.unpark h

/-- The head command of a core fails: it ends, and the error is held (R191). -/
def State.holdError (s : State) (n : Nat) (m : MatCmd) (code : BitVec 8) : State :=
  (s.modCore n (fun c => { c with routine := none })).holdFor n m.handle m.gaddr code

/-! ### Issue (R188 to R195) -/

/-- A matrix instruction: in a supervisor context it raises MATRIX (R35, R188). -/
def State.mx (s : State) (m : Mask) (go : State → State) : State :=
  s.eslot m (fun s => if s.src.sup then s.raise cMatrix 0 else go s)

/-- A matrix instruction that names a tile: a name at or above the allocation raises MATRIX (R27, R188). -/
def State.mxTile (s : State) (m : Mask) (t : BitVec 3) (go : Nat → State → State) : State :=
  s.mx m (fun s =>
    match s.src.tileNo t.toNat with
    | none => s.raise cMatrix 0
    | some p => go p s)

/-- The engine accepts a command, or the group waits for one of the eight places (R173, R188). -/
def State.mxAccept (s : State) (op : MatOp) : State :=
  let n := s.ctx.coreNo
  if 8 ≤ (s.coreOf n).mq.length then s.stall .engineRoom
  else
    let m : MatCmd := { handle := s.ctx.handle, job := s.ctx.job, gaddr := s.src.pc, op := op, started := false, reg := none }
    (s.modCore n (fun c => { c with mq := c.mq ++ [m] })).refreshBusy n

/-- The words of routine n of a core. -/
def Core.routineWords (c : Core) (n : Nat) : List Nat :=
  (List.range (c.entry n).length.toNat).map (fun i => (c.uopWord ((c.entry n).offset.toNat + i)).toNat)

/-- The count of a LOOP (R276). -/
def CallArgs.loopCount (a : CallArgs) (cm : BitVec 1) (count : W32) : Nat :=
  if cm = 1 then fieldOf (a.mp[(count.toNat % 8)]?.getD 0) 0 32 else count.toNat

/-- The KIND that a routine's words leave a tile with; a LOOP of count 0 skips its body (R276). -/
def kindBy (a : CallArgs) (t : Nat) : List Instr → Nat → BitVec 2 → BitVec 2
  | [], _, k => k
  | _ :: is, n + 1, k => kindBy a t is n k
  | i :: is, 0, k =>
    match i with
    | .zero ts kind _ _ => kindBy a t is 0 (if a.tileName ts = t then (if kind = 1 then 2 else 1) else k)
    | .uopLoop len cm count => kindBy a t is (if a.loopCount cm count = 0 then len.toNat else 0) k
    | _ => kindBy a t is 0 k

/-- The KIND of a sequencer's tile as it will stand after every command accepted from it, a running one too (R188). -/
def State.kindAfter (s : State) (q : Seqr) (t : Nat) : BitVec 2 :=
  let c := s.coreOf q.coreNo
  let p := q.tiles[t]?.getD 0
  c.mq.foldl (fun k m =>
    if m.handle ≠ q.handle then k
    else
      match m.op with
      | .zero x f _ => if x = p then (if f then 2 else 1) else k
      | .call a => kindBy a t ((c.routineWords a.routine).filterMap decodeUop) 0 k
      | _ => k) (s.tileAt q.coreNo p).kind

/-- The routines of the queued calls of a sequencer are known: none is still to be loaded by a command ahead of its call. A
kind check waits until they are (R188, R194; log entry 36). -/
def Core.kindsKnown (h : BitVec 24) : List MatCmd → List Nat → Bool
  | [], _ => true
  | m :: ms, loads =>
    match m.op with
    | .rload n _ _ _ => kindsKnown h ms (n :: loads)
    | .call a => !(m.handle = h && loads.contains a.routine) && kindsKnown h ms loads
    | _ => kindsKnown h ms loads

/-- A load of routine n stands in the queue of a core. -/
def Core.loading (c : Core) (n : Nat) : Bool := c.mq.any (fun m => match m.op with | .rload k _ _ _ => k = n | _ => false)

/-- The directory of a core as its queued loads will leave it. -/
def Core.planned (c : Core) : Core :=
  c.mq.foldl (fun c m =>
    match m.op with
    | .rload n k o _ =>
      { c with dir := tset n { valid := decide (k ≠ 0), offset := BitVec.ofNat 14 o, length := BitVec.ofNat 15 k,
                               owner := if k = 0 then 0 else BitVec.ofNat 17 (m.job.toNat + 1) } c.dir }
    | _ => c) c

/-- The caller may call routine n: it is valid, and the library's or its own job's (R190, R194). -/
def Core.callable (c : Core) (n : Nat) (job : BitVec 16) : Bool :=
  (c.entry n).valid && ((c.entry n).owner = 0 || (c.entry n).owner.toNat = job.toNat + 1)

/-- Routine n is owned by the library or by another job than the caller's; an entry that was never loaded, or was freed, has no
owner (R194). -/
def Core.ownedByOther (c : Core) (n : Nat) (job : BitVec 16) : Bool :=
  let e := c.entry n
  e.owner.toNat ≠ job.toNat + 1 && (e.valid || e.owner ≠ 0)

/-- mp7 is legal for an allocation (R190, Table 7.6). -/
def controlOk (mp7 : W64) (alloc : Nat) : Bool :=
  mp7.toNat / 2 ^ 26 = 0 && (mp7.getLsbD 17 || fieldOf mp7 18 8 = 0)
    && (List.range 8).all (fun t => decide (t < alloc) || !(mp7.getLsbD t || mp7.getLsbD (8 + t)))

/-- A queued call names a footprint entry. -/
def MatCmd.foot (m : MatCmd) : Option Nat :=
  match m.op with
  | .call a => if (a.mp[7]).getLsbD 17 then some (fieldOf (a.mp[7]) 18 8) else none
  | _ => none

/-- Registers the first call of a core that names a footprint entry and is not registered, once the entry is free (R241). -/
def State.registerCall (s : State) (n : Nat) : State :=
  match ((s.coreOf n).mq.zipIdx).find? (fun m => m.1.foot.isSome && m.1.reg.isNone) with
  | none => s
  | some (m, i) =>
    let e := m.foot.getD 0
    if !s.footFree (n / 48) e then s
    else
      let r := s.orderNext
      (s.footRegister (n / 48) (.call n) m.job e).modCore n (fun c =>
        { c with mq := (c.mq.zipIdx).map (fun x => if x.2 = i then { x.1 with reg := some r } else x.1) })

/-- `mcall`: it is checked against the directory as the queued loads will leave it, and waits in the queue behind them
(R190, R194). -/
def execMcall (r : BitVec 8) (s : State) : Out :=
  .next (s.mx 0 (fun s =>
    let c := (s.coreOf s.ctx.coreNo).planned
    let q := s.src
    let mp7 := q.mp[7]
    if !c.callable r.toNat q.job then s.raise cMatrix 0
    else if !controlOk mp7 q.tiles.length then s.raise cMatrix 0
    else
      let a : CallArgs :=
        { routine := r.toNat, mp := q.mp, fd := Vector.ofFn (fun i => q.stagingOf 2 i.val), rmode := q.rmode,
          ovf := q.ovf, gen := seedFix (s.seedNow ^^^ 0x9E3779B9) }
      let t := s.mxAccept (.call a)
      match t.issue.flow with
      | .ok => { t with ctx := { t.ctx with seed := seedStep t.ctx.seed } }.registerCall s.ctx.coreNo
      | _ => t))

/-- `mpset` (R189). -/
def execMpset (n : BitVec 3) (a b : BitVec 5) (s : State) : Out :=
  .next (s.mx ((s.rg a).taint ||| (s.rg b).taint) (fun s =>
    { s with ctx := { s.ctx with mp := s.ctx.mp.setIfInBounds n.toNat (s.pair a b) } }))

/-- An anchor in range (R192). -/
def anchorOk (v : W32) : Bool := decide (-512 ≤ v.toInt) && decide (v.toInt ≤ 511)

/-- `mzero` (R192). -/
def execMzero (k : BitVec 1) (t : BitVec 3) (a : BitVec 5) (s : State) : Out :=
  .next (s.mxTile (if k = 1 then 0 else (s.rg a).taint) t (fun p s =>
    if k = 1 then s.mxAccept (.zero p true 0)
    else if !anchorOk (s.rg a).val then s.raise cMatrix 0
    else s.mxAccept (.zero p false ((s.rg a).val.truncate 10))))

/-- `manch` (R192). FMT_TAG of a tile of another kind is raised before MATRIX of the anchor (DESIGN CHOICE, log entry 74). -/
def execManch (t : BitVec 3) (a : BitVec 5) (s : State) : Out :=
  .next (s.mxTile (s.rg a).taint t (fun p s =>
    if !Core.kindsKnown s.ctx.handle (s.coreOf s.ctx.coreNo).mq [] then s.stall .engineRoom
    else if s.kindAfter s.ctx t.toNat ≠ 1 then s.raise cFmtTag 0
    else if !anchorOk (s.rg a).val then s.raise cMatrix 0
    else s.mxAccept (.anch p ((s.rg a).val.truncate 10))))

/-- A row address of `zld` or `zst` lies in the sequencer's lots or its die's HBM (R193): the home of its line. -/
def State.rowHome (s : State) (q : Seqr) (u : Use) (va : W64) : Except (BitVec 8 × W64) (Xlat × Home) :=
  match s.translate (s.masterOf q) u va 128 with
  | .error e => .error e
  | .ok x =>
    if x.pkg ≠ s.pkg then .error (cPerm, va)
    else
      match s.homeOf q.cdie.toNat q.sup u x.via x.addr with
      | .error c => .error (c, va)
      | .ok h =>
        let own := match x.via with
          | .lot j i => decide (j = q.job ∧ i = q.index)
          | _ => isHbm h.place && dieOf h.place = q.cdie.toNat
              || isScratch h.place && scratchCore h.place = q.coreNo
                  && q.lots.any (fun l => decide (lotPlace q.coreNo l 0 ≤ h.place) && h.place < lotPlace q.coreNo l 0 + 0x10000)
        if own then .ok (x, h) else .error (cPerm, va)

/-- The homes of the six lines of each row. -/
def State.rowHomes (s : State) (q : Seqr) (u : Use) : List W64 → Except (BitVec 8 × W64) (List (W64 × Xlat × Home))
  | [] => .ok []
  | va :: vs =>
    match s.rowHome q u va, s.rowHomes q u vs with
    | .error e, _ => .error e
    | .ok _, .error e => .error e
    | .ok (x, h), .ok r => .ok ((va, x, h) :: r)

/-- The line addresses of a row. -/
def rowLines (va : W64) : List W64 := (List.range 6).map (fun i => va + BitVec.ofNat 64 (128 * i))

/-- The checks of `zld` and `zst` in their order, and their acceptance (R193). -/
def State.moveTile (s : State) (store : Bool) (t : BitVec 3) (p : Nat) (a b : BitVec 5) : State :=
  let f := (s.rg a).val.toNat
  let c := (s.rg b).val.toNat
  let addr := s.src.stagingOf 1 0
  let stride := s.src.stagingOf 1 1
  let sync := s.src.stagingOf 1 2
  let u := if store then Use.store else Use.load
  if c = 0 || decide (128 < f + c) then s.raise cMatrix 0
  else if stride.toNat % 128 ≠ 0 || decide (stride.toNat < 768) then s.raise cMatrix 0
  else if addr.toNat % 128 ≠ 0 then s.raise cAlign addr
  else
    match s.rowHomes s.ctx u ((List.range c).flatMap (fun i => rowLines (addr + BitVec.ofNat 64 (i * stride.toNat)))) with
    | .error (code, va) => s.raise code va
    | .ok _ =>
      if sync ≠ 0 && sync.toNat % 16 ≠ 0 then s.raise cAlign sync
      else
        match if sync = 0 then .ok () else (s.translate s.me .store sync).map (fun _ => ()) with
        | .error (code, va) => s.raise code va
        | .ok () =>
          if !Core.kindsKnown s.ctx.handle (s.coreOf s.ctx.coreNo).mq [] then s.stall .engineRoom
          else if s.kindAfter s.ctx t.toNat = 0 then s.raise cFmtTag 0
          else s.mxAccept (if store then .store p f c addr stride sync else .load p f c addr stride)

/-- `zld` (R193). -/
def execZld (t : BitVec 3) (a b : BitVec 5) (s : State) : Out :=
  .next (s.mxTile ((s.rg a).taint ||| (s.rg b).taint) t (fun p s => s.moveTile false t p a b))

/-- `zst` (R193). -/
def execZst (t : BitVec 3) (a b : BitVec 5) (s : State) : Out :=
  .next (s.mxTile ((s.rg a).taint ||| (s.rg b).taint) t (fun p s => s.moveTile true t p a b))

/-- `mrload`: checked against the directory as the queued loads will leave it (R188, R194). -/
def execMrload (r : BitVec 8) (a b : BitVec 5) (s : State) : Out :=
  .next (s.mx ((s.rg a).taint ||| (s.rg b).taint) (fun s =>
    let c := (s.rg a).val.toNat
    let o := (s.rg b).val.toNat
    let core := (s.coreOf s.ctx.coreNo).planned
    let addr := s.src.stagingOf 1 3
    if core.ownedByOther r.toNat s.ctx.job then s.raise cPriv 0
    else if decide (16384 < o + c) || core.overlaps r.toNat o c then s.raise cMatrix 0
    else if addr.toNat % 8 ≠ 0 then s.raise cAlign addr
    else
      s.checked .load (linePieces (8 * c / 128 + 2) addr (8 * c)) (fun _ s => s.mxAccept (.rload r.toNat c o addr))))

/-- `mstat`: it waits for every earlier command of the sequencer (R195). -/
def execMstat (t : BitVec 3) (a b : BitVec 5) (s : State) : Out :=
  .next (s.mxTile 0 t (fun p s =>
    if (s.coreOf s.ctx.coreNo).mq.any (fun m => m.handle = s.ctx.handle) then s.stall .engineDone
    else (s.wg a ((s.tileAt s.ctx.coreNo p).word.truncate 32) 0).wg b s.ctx.calls 0))

/-! ### Tiles -/

/-- Zero, or +0, in every cell, with O, X and V clear (R192). -/
def Tile.zeroed (t : Tile) (f48 : Bool) (anchor : BitVec 10) : Tile :=
  { kind := if f48 then 2 else 1, anchor := if f48 then 0 else anchor, o := false, x := false, nan := false, busy := t.busy,
    cells := [], poisoned := [] }

/-- A cell of a tile. -/
def Tile.cell (t : Tile) (i : Nat) : BitVec 48 := tget 0 t.cells i

/-- Writes a cell; zero cells are not listed. -/
def Tile.setCell (t : Tile) (i : Nat) (c : BitVec 48) : Tile :=
  { t with cells := if c = 0 then terase i t.cells else tset i c t.cells }

/-- The anchor as an integer. -/
def Tile.anc (t : Tile) : Int := t.anchor.toInt

/-- A cell update with its status bits (R31, Table 1.4). -/
def Tile.update (t : Tile) (i : Nat) (u : CellOut) : Tile :=
  { t.setCell i u.cell with o := t.o || u.o, x := t.x || u.x, nan := t.nan || u.v }

/-- Re-anchors an A48 tile (R192). -/
def Tile.reanchor (t : Tile) (anchor : BitVec 10) : Tile :=
  { t.cells.foldl (fun t c => t.update c.1 (a48Anchor t.anc anchor.toInt c.2)) t with anchor := anchor }

/-- Adds contributions to a cell in order (R59, R61): the tile and whether NV is set. -/
def Tile.addTo (t : Tile) (i : Nat) (ps : List Num) : Tile × Bool :=
  ps.foldl (fun (t, nv) p =>
    let u := if t.kind = 2 then f48Add (t.cell i) p else a48Add t.anc (t.cell i) p
    (t.update i u, nv || u.nv)) (t, false)

/-- The exact value of a cell (R62). -/
def Tile.value (t : Tile) (i : Nat) : Num := cellValue (t.kind = 2) t.anc (t.cell i)

/-- The tile has a poisoned cell in rows `r` to `r + n − 1`. -/
def Tile.poisonIn (t : Tile) (r n : Nat) : Bool := t.poisoned.any (fun i => decide (128 * r ≤ i) && i < 128 * (r + n))

/-! ### The turn of a queued command (R188, R192 to R194) -/

/-- Changes the head command of a core. -/
def State.modHead (s : State) (n : Nat) (f : MatCmd → MatCmd) : State :=
  s.modCore n (fun c => { c with mq := match c.mq with | [] => [] | m :: ms => f m :: ms })

/-- One row of `zld`: its lines are read under the full/empty rule, and its cells written; a mapping that fails now is a
held error (R193). -/
def State.loadRow (s : State) (n : Nat) (m : MatCmd) (q : Seqr) (tile first : Nat) (addr : W64) (next : MatOp) : State :=
  match s.rowHomes q .load (rowLines addr) with
  | .error _ => s.holdError n m cMatrix
  | .ok ls =>
    if ls.any (fun l => !s.feFull l.2.2.fe) then s
    else if ls.any (fun l => s.poisoned l.2.2.place 128) then s.holdError n m cPoison
    else
      let bs := ls.flatMap (fun l => s.bytesAt l.2.2.place 128)
      let s := (s.noteAll (s.masterOf q) .load ((rowLines addr).map (fun a => (a, 128)))).modTile n tile (fun t =>
        (List.range 128).foldl (fun t j =>
          { t.setCell (128 * first + j) (BitVec.ofNat 48 (ofBytes ((bs.drop (6 * j)).take 6))) with
            poisoned := t.poisoned.filter (fun i => i ≠ 128 * first + j) }) t)
      s.modHead n (fun m => { m with op := next })

/-- One row of `zst`: it leaves as copy traffic (R193). -/
def State.storeRow (s : State) (n : Nat) (m : MatCmd) (q : Seqr) (tile first : Nat) (addr sync : W64) (next : MatOp) : State :=
  let t := s.tileAt n tile
  if t.poisonIn first 1 then s.holdError n m cPoison
  else
    match s.rowHomes q .store (rowLines addr) with
    | .error _ => s.holdError n m cMatrix
    | .ok ls =>
      let bs := (List.range 128).flatMap (fun j => leBytes (t.cell (128 * first + j)).toNat 6)
      let s := s.touchAll (s.masterOf q) (rowLines addr)
      let l : Landing :=
        { num := s.landNext, core := n, port := none, handle := m.handle, gaddr := m.gaddr, sync := sync, count := 768
          pieces := (ls.zipIdx).map (fun x =>
            { va := x.1.1, pkg := s.pkg, via := x.1.2.1.via, addr := x.1.2.1.addr, exp := x.1.2.1.exp
              bytes := (bs.drop (128 * x.2)).take 128 })
          lines := ls.map (fun x => x.1.toNat / 128) }
      { s with landNext := s.landNext + 1, landings := s.landings ++ [l] }.modHead n (fun m => { m with op := next })

/-- `mrload`: the words are read and checked as they arrive, and the routine is valid if they are (R194, R275). -/
def State.loadRoutine (s : State) (core : Nat) (m : MatCmd) (q : Seqr) (n c o : Nat) (addr : W64) : State :=
  match s.engReadAll (s.masterOf q) false (linePieces (8 * c / 128 + 2) addr (8 * c)) with
  | .wait _ => s
  | .fail code _ => s.holdError core m (if code = cPoison then cPoison else cMatrix)
  | .bytes bs =>
    let ws := (List.range c).map (fun i => ofBytes ((bs.drop (8 * i)).take 8))
    let ok := decide (c ≠ 0) && routineOk ws
    let e : DirEntry :=
      { valid := ok, offset := BitVec.ofNat 14 o, length := BitVec.ofNat 15 c,
        owner := if c = 0 then 0 else if ok then BitVec.ofNat 17 (m.job.toNat + 1) else ((s.coreOf core).entry n).owner }
    ((s.noteAll (s.masterOf q) .load (linePieces (8 * c / 128 + 2) addr (8 * c))).modCore core (fun x =>
      { x with store := (ws.zipIdx).foldl (fun t w => tset (o + w.2) (BitVec.ofNat 64 w.1) t) x.store
               dir := tset n e x.dir })).modHead core (fun m => { m with started := true })

/-- The head command of a core's queue reaches its turn and runs (R188): `mzero` and `manch` take their effect, `zld` and
`zst` move their next row, `mrload` loads. A call's turn is `routineStart`. -/
def execMatrixCommandTurn (n : Nat) (s : State) : Out :=
  .next (match (s.coreOf n).mq.head? with
  | none => s
  | some m =>
    match s.seqOf m.handle with
    | none => s
    | some q =>
      match m.op with
      | .call _ => s.modHead n (fun m => { m with started := true })
      | .zero t f a =>
        if m.started then s else (s.modTile n t (fun x => x.zeroed f a)).modHead n (fun m => { m with started := true })
      | .anch t a =>
        if m.started then s
        else if !(s.tileAt n t).poisoned.isEmpty then s.holdError n m cPoison
        else (s.modTile n t (fun x => x.reanchor a)).modHead n (fun m => { m with started := true })
      | .load t f c addr st =>
        if c = 0 then s else s.loadRow n m q t f addr (.load t (f + 1) (c - 1) (addr + st) st)
      | .store t f c addr st sync =>
        if c = 0 then s else s.storeRow n m q t f addr sync (.store t (f + 1) (c - 1) (addr + st) st sync)
      | .rload r c o addr => if m.started then s else s.loadRoutine n m q r c o addr)

/-- The active `mzero`, `manch`, `zld`, `zst` or `mrload` finishes, and the next command's turn can come (R188). -/
def execMatrixCommandComplete (n : Nat) (s : State) : Out :=
  .next (match (s.coreOf n).mq.head? with
  | none => s
  | some m =>
    let ended : Bool := match m.op with
      | .call _ => false
      | .zero _ _ _ | .anch _ _ | .rload _ _ _ _ => m.started
      | .load _ _ c _ _ => c = 0
      | .store _ _ c _ _ _ => c = 0 && !s.coreTraffic n
    if ended then s.popCmd n else s)

/-! ### Routines (R190, R191, R265, R280, R281) -/

/-- An accepted call at the head of the queue starts its first micro-op once its footprint is free (R241, R281). -/
def execRoutineStart (n : Nat) (s : State) : Out :=
  .next (match (s.coreOf n).mq.head? with
  | none => s
  | some m =>
    match m.op with
    | .call a =>
      let c := s.coreOf n
      let foot := !((a.mp[7]).getLsbD 17) || (match m.reg with | some r => s.footMayStart (n / 48) r | none => false)
      if c.routine.isSome || !foot then s
      else if !c.callable a.routine m.job then s.holdError n m cMatrix
      else
        let r : Routine :=
          { args := a, pos := 0, loops := [], t := false, active := none, shadow := none, walks := [], flags := 0,
            gen := a.gen, pending := [], rows := 0, begun := false, ahead := none, rowFrom := s.landNext, began := (s.dieAt (n / 48)).cycle, stopped := none,
            done := decide ((c.entry a.routine).length = 0) }
        (s.modCore n (fun c => { c with routine := some r })).modHead n (fun m => { m with started := true })
    | _ => s)

/-- A routine stops: no row enters after it (R191). -/
def State.stopRoutine (s : State) (n : Nat) (code : BitVec 8) : State :=
  s.modRoutine n (fun r => { r with stopped := if r.stopped.isSome then r.stopped else some code })

/-- The products of element K of a row and of a column (R59, R267): one for each element of a floating-point format, one
for each block of BFP. -/
def fpProducts (fa fb : Nat) : List Nat → List Nat → List Num
  | a :: as, b :: bs => numMul (tagValue fa a) (tagValue fb b) :: fpProducts fa fb as bs
  | _, _ => []

/-- The exact dot product of two blocks (R54, R59). A NaN block times a zero block is NaN (DESIGN CHOICE, log entry 79). -/
def blockDot (ma mb : Nat) (sa sb : W32) (qa qb : List Nat) : Num :=
  if scReserved sa ≠ 0 || scReserved sb ≠ 0 || scE sa = 255 || scE sb = 255 then .nan true
  else if scE sa = 0 || scE sb = 0 then .fin false 0 0
  else
    let z : Int := (List.range 32).foldl (fun z j =>
      if scVcm1 sa < j || scVcm1 sb < j then z
      else z + (BitVec.ofNat ma (qa[j]?.getD 0)).toInt * (BitVec.ofNat mb (qb[j]?.getD 0)).toInt) 0
    Num.ofInt (z * ((16 + scF sa) * (16 + scF sb) : Nat))
      ((scE sa : Int) + scE sb - 254 - 8 - (ma - 1 : Nat) - (mb - 1 : Nat))

/-- The mantissa width of a BFP operand. -/
def Stationary.m (x : Stationary) : Nat := x.mm.toNat + 2

/-- The contributions of a streamed row to column n, in K order (R267, R279). -/
def PassRow.contribs (p : PassRow) (n : Nat) : List Num :=
  let a := p.a.elems[0]?.getD []
  let b := p.b.elems[n]?.getD []
  let ps :=
    if p.b.fmt = 8 then
      (List.range 64).map (fun j => blockDot p.a.m p.b.m ((p.a.scales[0]?.getD [])[j]?.getD 0) ((p.b.scales[n]?.getD [])[j]?.getD 0)
        ((a.drop (32 * j)).take 32) ((b.drop (32 * j)).take 32))
    else fpProducts p.a.fmt.toNat p.b.fmt.toNat a b
  if p.s5 then ps.map (fun x => numScale x (-5)) else ps

/-- Adds a streamed row to its tile; a poisoned cell takes nothing and stops the routine (R345). -/
def State.landRow (s : State) (n : Nat) (p : PassRow) : State :=
  let t := s.tileAt n p.tile
  let (t', nv) := (List.range 128).foldl (fun (t, nv) j =>
    let i := 128 * p.row + j
    if t.poisoned.contains i then (t, nv)
    else
      let (t, v) := t.addTo i (p.contribs j)
      (t, nv || v)) (t, false)
  let s := (s.modTile n p.tile (fun _ => t')).modRoutine n (fun r => { r with flags := r.flags ||| flagIf nv fNV })
  if t.poisonIn p.row 1 then s.stopRoutine n cPoison else s

/-- The contributions of the oldest streamed row land (R273). -/
def execContributionLand (n : Nat) (s : State) : Out :=
  .next (match (s.coreOf n).routine with
  | none => s
  | some r =>
    match r.pending with
    | [] => s
    | p :: ps => (s.modRoutine n (fun r => { r with pending := ps })).landRow n p)

/-- A routine completes once its last micro-op is done and every contribution and drain write has landed (R190, R281). A
stopped one too ends when they have landed: its error is held, unless a deadline stopped it (R191, R265, R280). -/
def execRoutineComplete (n : Nat) (s : State) : Out :=
  .next (match (s.coreOf n).routine, (s.coreOf n).mq.head? with
  | some r, some m =>
    if !r.pending.isEmpty || s.coreTraffic n then s
    else
      match r.stopped with
      | some code => if code = cDeadline then s.popCmd n else s.holdError n m code
      | none =>
        if !r.done then s
        else
          (s.popCmd n).modSeq m.handle (fun q =>
            { q with fstat := q.fstat ||| r.flags.zeroExtend 32, calls := q.calls + 1 })
  | _, _ => s)

/-- A routine that passes 65,536 cycles stops with MATRIX (R191, R281). -/
def execRoutineLimit (n : Nat) (s : State) : Out :=
  .next (match (s.coreOf n).routine with
  | none => s
  | some r => if (s.dieAt (n / 48)).cycle - r.began ≤ 65536 then s else s.stopRoutine n cMatrix)

/-- A deadline stop meets a DRAIN row on its way: the row may be half-written, and its pieces from a free one on are not made
(R280, log entry 6). -/
def State.cutRow (s : State) (n : Nat) : State :=
  match (s.coreOf n).routine with
  | none => s
  | some r =>
    let from' := r.rowFrom + Config.freeNat s.freeCtr % (s.landNext - r.rowFrom + 1)
    { s with landings := s.landings.filter (fun l => !(l.core = n && l.port.isNone && decide (from' ≤ l.num) && l.pieces.all (fun p => p.pkg = s.pkg))) }.drawFree

/-- Stops the calls of a job on every core and discards its queued commands (R265, R280). -/
def State.stopJobMatrix (s : State) (job : BitVec 16) : State :=
  (s.cores.map Prod.fst).foldl (fun s n =>
    let running := (s.coreOf n).routine.isSome
    let s := match (s.coreOf n).mq.head? with
      | some m => if running && m.job = job then (s.cutRow n).stopRoutine n cDeadline else s
      | none => s
    match (s.coreOf n).mq with
    | [] => s
    | m :: _ => s.dropCmds n (fun x => x.job = job && !(running && x = m))) s

/-! ### Landings (R193, R278) -/

/-- Changes port p of a sequencer. -/
def State.modPortOf (s : State) (h : BitVec 24) (p : Nat) (f : FeedPort → FeedPort) : State :=
  s.modSeq h (fun q => { q with ports := q.ports.setIfInBounds p (f (q.port p)) })

/-- A port's walk fails at an address (R292). -/
def FeedPort.failAt (f : FeedPort) (code : BitVec 8) (va : W64) : FeedPort :=
  { f with walk := f.walk.map (fun w => { w with failed := some (code, va) }) }

/-- The oldest entry of a drain port is written. -/
def FeedPort.written (f : FeedPort) : FeedPort :=
  { f with entries := f.entries.drop 1, walk := f.walk.map (fun w => w.advance 256) }

/-- A closing port is unbound with its last entry (R142). -/
def FeedPort.closed (f : FeedPort) : FeedPort := if f.entries.isEmpty && f.closing then .zero else f

/-- Copy traffic fails at an address: of a drain port, its walk fails there (R292); of a core's matrix engine, the call that sent it
stops, or the error of its command is held (R191, R193). -/
def State.failEngine (s : State) (l : Landing) (e : BitVec 8 × W64) : State :=
  match l.port with
  | some p => s.modPortOf l.handle p (fun f => f.failAt e.1 e.2)
  | none =>
  match (s.coreOf l.core).mq.head? with
  | none => s.holdFor l.core l.handle l.gaddr cMatrix
  | some m =>
    if !(m.handle = l.handle && m.gaddr = l.gaddr) then s.holdFor l.core l.handle l.gaddr cMatrix
    else
      match m.op with
      | .call _ => s.stopRoutine l.core cMatrix
      | _ => s.holdError l.core m cMatrix

/-- The pieces of an entry at its translated chunks. -/
def entryPieces : List (W64 × Nat × Xlat) → List Byte → List LandPiece
  | [], _ => []
  | (va, n, x) :: ps, bs =>
    { va := va, pkg := x.pkg, via := x.via, addr := x.addr, exp := x.exp, bytes := bs.take n } :: entryPieces ps (bs.drop n)

/-- The homes of a landing's pieces. -/
def State.landHomes (s : State) (w : Who) : List LandPiece → Except (BitVec 8 × W64) (List (Home × LandPiece))
  | [] => .ok []
  | p :: ps =>
    match s.homeOf w.die w.sup .store p.via p.addr, s.landHomes w ps with
    | .ok h, .ok hs => .ok ((h, p) :: hs)
    | .error c, _ => .error (c, p.va)
    | _, .error c => .error c

/-- The pieces of a landing translated again, because their leases ran out on the way (R334). -/
def State.landAgain (s : State) (w : Who) : List LandPiece → Except (BitVec 8 × W64) (List LandPiece)
  | [] => .ok []
  | p :: ps =>
    match s.translate w .store p.va p.bytes.length, s.landAgain w ps with
    | .ok x, .ok qs => .ok ({ p with pkg := x.pkg, via := x.via, addr := x.addr, exp := x.exp } :: qs)
    | .error e, _ => .error e
    | _, .error c => .error c

/-- The master of a landing. -/
def State.landWho (s : State) (l : Landing) : Who :=
  match s.seqOf l.handle with
  | some q => s.masterOf q
  | none => { die := l.core / 48, asid := 0, job := 0, sup := false }

/-- The pieces for other packages leave: their lines are marked when the landing is acknowledged. -/
def State.sendFar (s : State) (ps : List LandPiece) : State :=
  (ps.filter (fun p => p.pkg ≠ s.pkg)).foldl (fun s p => s.emit (.copyUnit p.pkg none p.via p.exp (byteEffects p.addr p.bytes) [])) s

/-- Pieces reach their homes: their bytes are written and the lines in the list marked full. -/
def State.landPieces (s : State) (w : Who) (done : List Nat) (hs : List (Home × LandPiece)) : State :=
  hs.foldl (fun s (x : Home × LandPiece) =>
    ((s.touchVia x.2.via x.2.addr).countRemote x.1.place s.pkg w.die).writeHome x.1.place x.2.bytes
      (if done.contains (x.2.va.toNat / 128) then x.1.fe else none)) s

/-- Copy traffic lands: its bytes are written, the lines that no write of the engine still awaits are marked full, and its
count is added to the sync word (R138, R179, R278, R291). A migrating frame holds it (R337); traffic that arrives after its
lease is translated again, and a failure then is the engine's error (R334, R193). -/
def execCopyTrafficLand (k : Nat) (s : State) : Out :=
  .next (match s.landings.find? (fun l => l.num = k) with
  | none => s
  | some l =>
    let w := s.landWho l
    let rest := s.landings.filter (fun x => x.num ≠ k)
    if l.pieces.any (fun p => p.pkg = s.pkg && s.tooLate p.exp) then
      match s.landAgain w l.pieces with
      | .error e => ({ s with landings := rest }).failEngine l e
      | .ok ps =>
        let s := (s.touchAll w (ps.map LandPiece.va)).sendFar ps
        { s with landings := lmod (fun x => x.num = k) (fun (x : Landing) => { x with pieces := ps }) s.landings }
    else
      let done := l.lines.filter (fun x => !(rest.any (fun y =>
        y.core = l.core && y.port = l.port && (l.port.isNone || y.handle = l.handle) && y.lines.contains x)))
      let far := l.pieces.filter (fun p => p.pkg ≠ s.pkg)
      match s.landHomes w (l.pieces.filter (fun p => p.pkg = s.pkg)) with
      | .error e => ({ s with landings := rest }).failEngine l e
      | .ok hs =>
        if hs.any (fun h => (s.frameOf h.1).isSome) then s
        else
          let s := { s with landings := rest }.landPieces w done hs
          let s := (far.filter (fun p => done.contains (p.va.toNat / 128))).foldl (fun s p =>
            s.emit (.copyUnit p.pkg none p.via p.exp [] [p.addr])) s
          let s := match l.port with | some p => s.modPortOf l.handle p FeedPort.written | none => s
          match s.engSync w l.sync l.count with
          | .ok s => (match l.port with | some p => s.modPortOf l.handle p FeedPort.closed | none => s)
          | .error e => s.failEngine l e)

end Sys2Proof.Machine
end

