-- ==== Sys2Proof/Machine/Copy.lean ====
section
/-!
DEFINITION. Copy channels while they run (spec/07_engine_instructions.md R176 to R184; spec/12_copy_and_collective_engines.md
R284 to R289), the registration of engine jobs (R241), and the walks of feed ports (R141, R290 to R294).
-/

namespace Sys2Proof.Machine

/-! ### Transfer records (Table 7.3) -/

/-- The snapshot of a transfer record. -/
abbrev XRec := Vector W64 8

def XRec.word (r : XRec) (i : Nat) : W64 := r[i]?.getD 0
def XRec.next (r : XRec) : W64 := BitVec.ofNat 64 ((r.word 0).toNat / 64 * 64)
def XRec.scat (r : XRec) : Bool := (r.word 3).getLsbD 0
def XRec.fpv (r : XRec) : Bool := (r.word 3).getLsbD 1
def XRec.sync (r : XRec) : W64 := BitVec.ofNat 64 ((r.word 3).toNat / 16 * 16)
def XRec.aop (r : XRec) : BitVec 4 := (r.word 4).truncate 4
def XRec.acc (r : XRec) : Bool := (r.word 4).getLsbD 4
def XRec.idx (r : XRec) : W64 := BitVec.ofNat 64 ((r.word 4).toNat / 64 * 64)
def XRec.l0 (r : XRec) : Nat := fieldOf (r.word 5) 0 24
def XRec.l1 (r : XRec) : Nat := fieldOf (r.word 5) 24 16
def XRec.l2 (r : XRec) : Nat := fieldOf (r.word 5) 40 16
def XRec.foot (r : XRec) : Nat := fieldOf (r.word 5) 56 8
/-- A stride of a record: half h of word i, signed. -/
def XRec.stride (r : XRec) (i h : Nat) : Int := (BitVec.ofNat 32 (fieldOf (r.word i) (32 * h) 32)).toInt

/-- The record is not one of those that R180 refuses. -/
def XRec.ok (r : XRec) : Bool :=
  fieldOf (r.word 3) 2 2 = 0 && fieldOf (r.word 4) 5 1 = 0
    && (if r.acc then decide (r.aop.toNat < 12) && r.l0 % 4 = 0 && (r.word 1).toNat % 4 = 0 && (r.word 2).toNat % 4 = 0
          && [6, 7].all (fun i => [0, 1].all (fun h => fieldOf (r.word i) (32 * h) 32 % 4 = 0))
        else r.aop = 0)
    && (r.fpv || r.foot = 0) && (!r.scat || r.idx ≠ 0)

/-- A row of a record: the number of its first unit, its units, and where it starts (R177, R284). -/
structure XRow where
  unit0 : Nat
  units : Nat
  src : W64
  dst : W64
  deriving DecidableEq, Repr

/-- The number of landing units of a row (R284). -/
def XRec.rowUnits (r : XRec) (dst : W64) : Nat :=
  if r.acc then r.l0 / 4 else (dst.toNat % 64 + r.l0 + 63) / 64

/-- Row j of plane k, given the index entry if the record has a list (R177). -/
def XRec.row (r : XRec) (k j : Nat) (idx : Int) (unit0 : Nat) : XRow :=
  let lst := r.idx ≠ 0
  let so := k * r.stride 6 1 + (if lst && !r.scat then idx else (j : Int)) * r.stride 6 0
  let d := k * r.stride 7 1 + (if lst && r.scat then idx else (j : Int)) * r.stride 7 0
  let dst := r.word 2 + BitVec.ofInt 64 d
  { unit0 := unit0, units := r.rowUnits dst, src := r.word 1 + BitVec.ofInt 64 so, dst := dst }

/-- The rows of a record that are reached, in order, given the index entries read so far: without a list, all of them; and
whether they are all (R177). -/
def XRec.rows (r : XRec) (idxs : List W32) : Nat → Nat → Nat → List XRow × Bool
  | 0, _, _ => ([], true)
  | n + 1, i, u =>
    match if r.idx = 0 then some 0 else idxs[i]? with
    | none => ([], false)
    | some e =>
      let x := r.row (i / r.l1) (i % r.l1) e.toInt u
      let (xs, all) := r.rows idxs n (i + 1) (u + x.units)
      (x :: xs, all)

/-- A landing unit: source, destination and length. -/
structure XUnit where
  src : W64
  dst : W64
  n : Nat
  deriving DecidableEq, Repr

/-- Unit b of a row (R284). -/
def XRec.unitOf (r : XRec) (x : XRow) (b : Nat) : XUnit :=
  let o := if r.acc then 4 * b else if b = 0 then 0 else 64 * b - x.dst.toNat % 64
  let z := if r.acc then 4 * b + 4 else Nat.min r.l0 (64 * (b + 1) - x.dst.toNat % 64)
  { src := x.src + BitVec.ofNat 64 o, dst := x.dst + BitVec.ofNat 64 o, n := z - o }

/-! ### The ports of the compute dies (R302, R312) -/

/-- The port of compute die d passes traffic: it is UP and not frozen (R302, R312, R343). -/
def State.diePortOpen (s : State) (d : Nat) : Bool := (s.port (64 + d)).state = 2 && !(s.port (64 + d)).frozen

/-- n flits go on to a die over its port (R302, R305, R312). -/
def State.toDie (s : State) (d : Nat) (vc : BitVec 3) (n : Nat) : State :=
  ((List.range n).foldl (fun (t : State) i => t.emit (.toDie d vc (Config.flitPayload s.freeCtr i))) s).drawFree

/-- What a Piazza sends a die over its port, if the port passes it; else nothing happens yet (R312). -/
def State.viaDie (s : State) (d : Nat) (vc : BitVec 3) (n : Nat) (go : State → State) : State :=
  if 4 ≤ d then go s else if s.diePortOpen d then (go s).toDie d vc n else s

/-! ### Channels -/

/-- The master that a channel of a die is: it translates as its job (R329). -/
def State.chanWho (s : State) (die : Nat) (c : Channel) : Who :=
  { die := die, asid := s.asidOf c.job, job := c.job, sup := false }

/-- The number of rows of a record; one with a zero length moves nothing (R177). -/
def XRec.rowCount (r : XRec) : Nat := if r.l0 = 0 then 0 else r.l1 * r.l2

/-- The rows of a channel's claimed record that it has reached, and whether they are all. -/
def Channel.rows (c : Channel) : List XRow × Bool := XRec.rows c.snap c.idxs (XRec.rowCount c.snap) 0 0

/-- The number of units in rows. -/
def unitTotal (rows : List XRow) : Nat := rows.foldl (fun n x => n + x.units) 0

/-- The row and place of a unit. -/
def findUnit (rows : List XRow) (u : Nat) : Option (XRow × Nat) :=
  (rows.find? (fun x => decide (x.unit0 ≤ u) && u < x.unit0 + x.units)).map (fun x => (x, u - x.unit0))

/-- The form of R222 for a copy channel. -/
def chanMaster (die ch : Nat) : W32 := BitVec.ofNat 32 (2 ^ 28 + 2 ^ 24 * die + ch)

/-- The fault with which a channel stops (R288): state, fault kind, address, CODE. -/
def stopOf (code : BitVec 8) (va : W64) : BitVec 3 × BitVec 3 × W64 × BitVec 8 :=
  if code = cXlate then (3, 1, va, cXlate)
  else if code = cPoison then (3, 3, va, cPoison)
  else (4, 0, va, code)

/-- A channel that walks will stop with a fault; the first one counts. One that has stopped stays as it is: the fault recurs when
it resumes (R289). -/
def State.chanStop (s : State) (die ch : Nat) (f : BitVec 3 × BitVec 3 × W64 × BitVec 8) : State :=
  s.modChan die ch (fun c =>
    { c with stopping := if c.stopping.isSome || !(c.state = 1 || c.state = 2) then c.stopping else some f })

/-- The channel walks and holds no claim. -/
def Channel.mayClaim (c : Channel) : Bool :=
  c.state = 1 && !c.claimed && !c.killing && c.stopping.isNone && c.cur.isSome

/-- Registers a channel's record on its footprint entry, and starts it once nothing earlier conflicts (R241). -/
def State.footChannel (s : State) (die ch : Nat) : State :=
  let c := s.chan die ch
  let r : XRec := c.snap
  if !c.claimed || c.started || c.stopping.isSome || !(c.state = 1 || c.state = 2) then s
  else if !r.fpv then s.modChan die ch (fun c => { c with started := true, state := 1 })
  else
    let s := if (s.dieAt die).live.any (fun f => f.who = .channel ch) || !s.footFree die r.foot then s
      else s.footRegister die (.channel ch) c.job r.foot
    match (s.dieAt die).live.find? (fun f => f.who = .channel ch) with
    | some f =>
      if s.footMayStart die f.num then s.modChan die ch (fun c => { c with started := true, state := 1 })
      else s.modChan die ch (fun c => { c with state := 2 })
    | none => s.modChan die ch (fun c => { c with state := 2 })

/-- The channel holds the snapshot of the record it claims (R178, R180, R284). -/
def State.takeRecord (s : State) (die ch : Nat) (va : W64) (snap : XRec) : State :=
  let s := s.modChan die ch (fun c =>
    { c with cur := some va, snap := snap, claimed := true, started := false, claim := c.claim + 1, wmark := 0, sent := 0
             acked := [], applied := [], idxs := [], marked := [] })
  if !snap.ok then s.chanStop die ch (4, 0, va, cEngine) else s.footChannel die ch

/-- A channel claims its next record by a swap of OWN at its home (R178, R180, R288). What a record of another package
holds is the environment's (log entry 15). -/
def execRecordClaim (die ch : Nat) (s : State) : Out :=
  .next (
    let c := s.chan die ch
    if !c.mayClaim then s
    else
      let va := c.cur.getD 0
      let w := s.chanWho die c
      match s.translate w .store va 8 with
      | .error (code, a) => s.chanStop die ch (stopOf code a)
      | .ok x =>
        let s := s.note w .store va
        if x.pkg ≠ s.pkg then
          let snap : XRec := Vector.ofFn (fun i =>
            BitVec.ofNat 64 (ofBytes ((List.range 8).map (fun j => Config.farByte s.freeCtr (va.toNat + 8 * i.val + j)))))
          match s.farFault x with
          | some code => s.chanStop die ch (stopOf code va)
          | none =>
          if (snap.word 0).getLsbD 0 then s.chanStop die ch (3, 2, va, cEngine)
          else (s.emit (.recordOwn x.pkg x.via x.exp x.addr true 0)).takeRecord die ch va (snap.set 0 (snap.word 0 ||| 1))
        else
          match s.homeOf w.die w.sup .store x.via x.addr with
          | .error code => s.chanStop die ch (stopOf code va)
          | .ok h =>
            if !hasMemory h.place then s.chanStop die ch (stopOf cPerm va)
            else if (s.migrationAt h.place).isSome then s
            else
            match (List.range 64).find? (fun i => s.poisoned (h.place + i) 1) with
            | some i => s.chanStop die ch (stopOf cPoison (va + BitVec.ofNat 64 i))
            | none =>
            if (Memory.read s.mem h.place).getLsbD 0 then s.chanStop die ch (3, 2, va, cEngine)
            else
              let s := s.writeBytes [(h.place, Memory.read s.mem h.place ||| 1)]
              s.takeRecord die ch va (Vector.ofFn (fun i => BitVec.ofNat 64 (s.readLE (h.place + 8 * i.val) 8))))

/-- An engine job registers on its footprint entry once it is free, and a channel's record starts when no earlier
conflicting job is live (R241). -/
def execFootprintRegister (die : Nat) (job : EngineJob) (s : State) : Out :=
  .next (match job with
  | .channel ch => s.footChannel die ch
  | .call n => if n / 48 = die then s.registerCall n else s)

/-- The unit's source bytes, or why it cannot be sent. -/
def State.unitSource (s : State) (w : Who) (u : XUnit) : EngRead := s.engReadAll w false (linePieces (u.n / 128 + 3) u.src u.n)

/-- A parked unit waits for its record. -/
def State.unitParked (s : State) (die ch u : Nat) : Bool := s.parked.any (fun p => p.work = .copyUnit die ch u)

/-- The identity of a unit of a channel, with the watermark that its header carries (R284, R286). -/
def Channel.unitId (c : Channel) (die ch u : Nat) : UnitId × Nat := ({ die := die, ch := ch, claim := c.claim, unit := u }, c.wmark)

/-- A unit as its home on this package sees it: its source and its identity (R286). -/
def State.unitRequest (s : State) (die ch u : Nat) (c : Channel) (via : Via) (expiry : W64) (es : List Effect) : ExtRequest :=
  { port := 127, vc := 0, srcPkg := s.pkg, handle := 0, job := c.job, sup := false, stream := 0, seqno := 0, pred := none, of := 1
    srcDie := die, tag := 0, unit := some (c.unitId die ch u), via := via, expiry := expiry, effects := es }

/-- The unit's home writes it, or applies it once (R126, R286, R341): it is acknowledged later. A unit for another package leaves
with its identity. -/
def State.landUnit (s : State) (die ch u : Nat) (c : Channel) (x : XUnit) (bs : List Byte) : State :=
  let r : XRec := c.snap
  let w := s.chanWho die c
  let done (s : State) : State := s.modChan die ch (fun c => { c with applied := c.applied ++ [u], sent := Nat.max c.sent (u + 1) })
  let d := BitVec.ofNat 32 (ofBytes bs)
  match s.translate w .store x.dst bs.length with
  | .error (code, a) => s.chanStop die ch (stopOf code a)
  | .ok t =>
    let s := s.note w .store x.dst
    let es : List Effect := if r.acc then [.accum t.addr r.aop d] else byteEffects t.addr bs
    let req := s.unitRequest die ch u c t.via t.exp es
    if t.pkg ≠ s.pkg then done (s.emit (.copyUnit t.pkg (some (c.unitId die ch u)) t.via t.exp es []))
    else if (s.unitDone req).isSome then done s
    else
      match s.homeOf w.die w.sup .store t.via t.addr with
      | .error code => s.chanStop die ch (stopOf code x.dst)
      | .ok h =>
        if (s.migrationAt h.place).isSome then s
        else
          match s.applyHomes { who := w, pkg := s.pkg } (some c.job)
              (es.zipIdx.map (fun e => ({ h with place := h.place + e.2 }, e.1))) with
          | .done s => done (if r.acc then s.unitApplied req 0 else s)
          | .held => s
          | .fault code =>
            if code = cPoison then
              s.parkWork (dieOf h.place) (mkRec 4 code (chanMaster die ch) c.job x.dst (BitVec.ofNat 64 (2 ^ 40 * s.pkg.toNat)))
                (.copyUnit die ch u)
            else s.chanStop die ch (stopOf code x.dst)

/-- While a kill is pending, the unit still belongs to the row in progress (R184). -/
def XRec.inProgress (r : XRec) (rows : List XRow) (c : Channel) (u : Nat) : Bool :=
  u < c.sent || (!r.acc && (match findUnit rows (c.sent - 1) with
    | some (x, _) => decide (c.sent ≠ 0) && u < x.unit0 + x.units
    | none => false))

/-- The rows up to the one that holds unit u: their index entries are read as they are reached (R177); what kept an entry
from being read. -/
def State.reach (s : State) (die ch u : Nat) : Nat → State × EngRead
  | 0 => (s, .bytes [])
  | n + 1 =>
    let c := s.chan die ch
    let r : XRec := c.snap
    let w := s.chanWho die c
    if (findUnit c.rows.1 u).isSome || c.rows.2 then (s, .bytes [])
    else
      let va := r.idx + BitVec.ofNat 64 (4 * c.idxs.length)
      match s.engReadLine w false va 4 with
      | .bytes bs =>
        ((s.noteAll w .load [(va, 4)]).modChan die ch (fun c => { c with idxs := c.idxs ++ [BitVec.ofNat 32 (ofBytes bs)] })).reach
          die ch u n
      | e => (s, e)

/-- Unit u of a channel is acknowledged. -/
def Channel.hasAck (c : Channel) (u : Nat) : Bool := u < c.wmark || c.acked.contains u

/-- The rows of a channel's claimed record by their destinations, and whether they are all known: an index list that selects
sources leaves every destination known (R177). -/
def Channel.dstRows (c : Channel) : List XRow × Bool :=
  let r : XRec := c.snap
  if r.scat then c.rows
  else
    let r : XRec := c.snap.set 4 (BitVec.ofNat 64 ((r.word 4).toNat % 64))
    r.rows [] r.rowCount 0 0

/-- A destination line whose every unit is acknowledged, of a record whose destinations are all known: no later byte can fall in
it (R179, R287; log entry 67). -/
def Channel.lineDone (c : Channel) (line : Nat) : Bool :=
  let r : XRec := c.snap
  let rows := c.dstRows
  rows.2 && rows.1.all (fun y => (List.range y.units).all (fun b =>
    (r.unitOf y b).dst.toNat / 128 ≠ line || c.hasAck (y.unit0 + b)))

/-- Marks a destination line full, once, when it is done (R179, R287): in another package by a request to its home. A line whose
address fails now stops the channel, and is marked on resumption (R288, R289). -/
def State.markLineOf (s : State) (die ch : Nat) (dst : W64) : State :=
  let c := s.chan die ch
  let line := dst.toNat / 128
  if c.marked.contains line || !c.lineDone line then s
  else
    let a := BitVec.ofNat 64 (128 * line)
    let marked (s : State) : State := s.modChan die ch (fun c => { c with marked := line :: c.marked })
    match s.translate (s.chanWho die c) .store a with
    | .error (code, va) => s.chanStop die ch (stopOf code va)
    | .ok t =>
      if t.pkg ≠ s.pkg then marked (s.emit (.copyUnit t.pkg none t.via t.exp [] [t.addr]))
      else
        match s.homeOf die false .store t.via t.addr with
        | .ok h => marked (s.writeHome h.place [] h.fe)
        | .error code => s.chanStop die ch (stopOf code a)

/-- The destinations of the acknowledged units of a channel's record. -/
def Channel.ackedDsts (c : Channel) : List W64 :=
  let r : XRec := c.snap
  c.dstRows.1.flatMap (fun y => (List.range y.units).filterMap (fun b =>
    if c.hasAck (y.unit0 + b) then some (r.unitOf y b).dst else none))

/-- Marks every line that is done now: the last row has been reached, or the channel resumes. -/
def State.markLines (s : State) (die ch : Nat) : State :=
  let c := s.chan die ch
  if c.dstRows.2 then c.ackedDsts.foldl (fun s a => s.markLineOf die ch a) s else s

/-- A landing unit of a channel is sent and arrives at its home (R177, R284, R286, R288): it is one of the 1,024 from the
watermark, every unit before it has been sent, and it has not been applied. -/
def execUnitArrive (die ch u : Nat) (s : State) : Out :=
  .next (
    let c := s.chan die ch
    let r : XRec := c.snap
    let w := s.chanWho die c
    if !c.claimed || !c.started || c.state ≠ 1 || c.stopping.isSome || decide (u < c.wmark) || decide (c.wmark + 1024 ≤ u)
        || c.applied.contains u || decide (c.sent < u) || s.unitParked die ch u then s
    else
      let known := c.rows.2
      let (s, e) := s.reach die ch u (r.rowCount + 1)
      let s := if known then s else s.markLines die ch
      let c := s.chan die ch
      match findUnit c.rows.1 u, e with
      | none, .fail code va => s.chanStop die ch (stopOf code va)
      | none, _ => s
      | some (x, b), _ =>
        if c.killing && !r.inProgress c.rows.1 c u then s
        else
          let x := r.unitOf x b
          match s.unitSource w x with
          | .wait _ => s
          | .fail code va => s.chanStop die ch (stopOf code va)
          | .bytes bs => (s.noteAll w .load (linePieces (x.n / 128 + 3) x.src x.n)).landUnit die ch u c x bs)

/-- The watermark passes the acknowledged units (R285). -/
def Channel.advance : Nat → Channel → Channel
  | 0, c => c
  | n + 1, c =>
    if c.acked.contains c.wmark then
      Channel.advance n { c with wmark := c.wmark + 1, acked := c.acked.filter (fun u => u ≠ c.wmark)
                                 applied := c.applied.filter (fun u => u ≠ c.wmark) }
    else c

/-- The fault that the home of another package reports of a unit it was sent (R288, log entry 15). -/
def State.unitFault (s : State) (die : Nat) (c : Channel) (x : XUnit) : Option (BitVec 8) :=
  match s.translate (s.chanWho die c) .store x.dst x.n with
  | .ok t => if t.pkg ≠ s.pkg then s.farFault t else none
  | .error _ => none

/-- A unit is no longer under way: it is sent again when the channel resumes (R289, R334). -/
def State.unsend (s : State) (die ch u : Nat) : State :=
  s.modChan die ch (fun c => { c with applied := c.applied.filter (fun v => v ≠ u) })

/-- A landing unit is acknowledged to its channel (R285, R287): its bytes are counted once, its line is marked full with its
last unit, and the watermark advances. A sync word that cannot be counted, or a fault that a home of another package
reports, stops the channel and leaves the unit to be sent again (R288, R289). -/
def State.ackUnit (s : State) (die ch u : Nat) : State :=
    let c := s.chan die ch
    let r : XRec := c.snap
    if !c.claimed || !c.applied.contains u || c.hasAck u then s
    else
      match findUnit c.rows.1 u with
      | none => s
      | some (x, b) =>
        let x := r.unitOf x b
        match s.unitFault die c x with
        | some code => (s.unsend die ch u).chanStop die ch (stopOf code x.dst)
        | none =>
          match s.engSync (s.chanWho die c) r.sync x.n with
          | .error (code, va) => (s.unsend die ch u).chanStop die ch (stopOf code va)
          | .ok s =>
            let s := s.modChan die ch (fun c => { c with acked := c.acked ++ [u] })
            let s := s.markLineOf die ch x.dst
            s.modChan die ch (fun c => Channel.advance c.acked.length c)

/-- The home of a unit of a channel is in another package. -/
def State.unitFar (s : State) (die ch u : Nat) : Bool :=
  let c := s.chan die ch
  let r : XRec := c.snap
  (findUnit c.rows.1 u).any (fun y =>
    match s.translate (s.chanWho die c) .store (r.unitOf y.1 y.2).dst (r.unitOf y.1 y.2).n with
    | .ok t => t.pkg ≠ s.pkg
    | .error _ => false)

/-- The acknowledgment of a landing unit reaches its channel (R285, R287), from another package over its die's port (R312). -/
def execUnitAck (die ch u : Nat) (s : State) : Out :=
  .next (if s.unitFar die ch u then s.viaDie die 6 1 (fun s => s.ackUnit die ch u) else s.ackUnit die ch u)

/-- Writes OWN 0 and STATUS into the claimed record (R178), or the failure of that write. -/
def State.writeReturn (s : State) (die ch : Nat) (status : BitVec 5) : Except (BitVec 8 × W64) State :=
  let c := s.chan die ch
  let w := s.chanWho die c
  let r : XRec := c.snap
  let va := c.cur.getD 0
  match s.translate w .store va 8 with
  | .error e => .error e
  | .ok x =>
    if x.pkg ≠ s.pkg then .ok ((s.touch w va).emit (.recordOwn x.pkg x.via x.exp x.addr false status))
    else
      match s.homeOf w.die w.sup .store x.via x.addr with
      | .error code => .error (code, va)
      | .ok h =>
        .ok ((s.note w .store va).writeHome h.place (leBytes ((r.word 0).toNat / 64 * 64 + 2 * status.toNat) 8) none)

/-- The channel's record is returned and leaves the footprint table; the channel goes on to `next`, if nonzero, and else to
its next pending head (R178, R242). -/
def State.dropClaim (s : State) (die ch : Nat) (status : BitVec 5) (counted : Bool) (next : W64) : State :=
  let s := s.modDie die (fun d => { d with live := d.live.filter (fun f => f.who ≠ .channel ch) })
  s.modChan die ch (fun c =>
    { c with last := if counted then status else c.last
             retcnt := if counted then c.retcnt + 1 else c.retcnt
             claimed := false, started := false, wmark := 0, sent := 0, acked := [], applied := []
             cur := if next = 0 then c.pend.head? else some next
             pend := if next = 0 then c.pend.drop 1 else c.pend
             stopping := none, fkind := 0, faultSlot := none
             state := if next = 0 && c.pend.isEmpty then 0 else 1
             job := if next = 0 && c.pend.isEmpty && !s.jobLive c.job then 0 else c.job })

/-- After every byte has landed and every addition is applied, the record is returned DONE and the next one follows
(R178). A record whose address fails now stops the channel (R288). -/
def execRecordReturn (die ch : Nat) (s : State) : Out :=
  .next (
    let c := s.chan die ch
    let r : XRec := c.snap
    let rows := c.rows
    if !c.claimed || !c.started || c.state ≠ 1 || c.stopping.isSome || c.killing || !rows.2
        || c.wmark ≠ unitTotal rows.1 || s.writeBlocked (s.chanWho die c) [(c.cur.getD 0, 8)] then s
    else
      match s.writeReturn die ch 1 with
      | .error (code, va) => s.chanStop die ch (stopOf code va)
      | .ok s => s.dropClaim die ch 1 true r.next)

/-- A channel stops with a fault once the units it sent are acknowledged, and posts its record (R288, Table 14.6). -/
def execChannelFault (die ch : Nat) (s : State) : Out :=
  .next (
    let c := s.chan die ch
    match c.stopping with
    | none => s
    | some (st, kind, va, code) =>
      if c.applied.any (fun u => !c.hasAck u) then s
      else
        let q := (s.dieAt die).queue
        let slot := if st = 3 && q.pending < 1024 then some (q.tail.toNat % 1024) else none
        let s := s.modChan die ch (fun c => { c with state := st, fkind := kind, faddr := va, stopping := none, faultSlot := slot })
        s.post die (mkRec (if st = 3 then 2 else 3) code (chanMaster die ch) c.job va 0))

/-- The fault record of a channel is withdrawn: KIND becomes 0 (R184). -/
def State.withdrawFault (s : State) (die ch : Nat) : State :=
  s.modDie die (fun d =>
    { d with queue := { d.queue with
        recs := (match (s.chan die ch).faultSlot with
          | some k => d.queue.recs.map (fun x => if x.1 = k then (x.1, { x.2 with kind := 0 }) else x)
          | none => d.queue.recs)
        holding := d.queue.holding.map (fun x =>
          if x.kind = 2 && x.master = chanMaster die ch then { x with kind := 0 } else x) } })

/-- A kill takes effect: the claimed record is returned KILLED, the pending heads are discarded, and the channel is IDLE
(R184). -/
def State.killChannel (s : State) (die ch : Nat) : State :=
  let c := s.chan die ch
  let s := if c.state = 3 then s.withdrawFault die ch else s
  let s := if c.claimed then (match s.writeReturn die ch 2 with | .ok s => s | .error _ => s) else s
  (s.dropClaim die ch 2 c.claimed 0).modChan die ch (fun c =>
    { c with pend := [], cur := none, state := 0, killed := true, killing := false, job := if s.jobLive c.job then c.job else 0 })

/-- A kill completes once the row in progress, or the word, has landed (R184). -/
def execKillComplete (die ch : Nat) (s : State) : Out :=
  .next (
    let c := s.chan die ch
    let r : XRec := c.snap
    let rows := c.rows.1
    let finished :=
      c.state = 3 || c.state = 4 || !c.claimed || !c.started ||
        (match if r.acc then none else findUnit rows (c.sent - 1) with
        | some (x, _) => c.sent = 0 || decide (x.unit0 + x.units ≤ c.wmark)
        | none => decide (c.sent ≤ c.wmark))
    if c.killing && finished then s.killChannel die ch else s)

/-- An ignored write is counted (R38). -/
def State.refuse (s : State) : State := { s with refusedWrites := s.refusedWrites + 1 }

/-- The rows wholly below the watermark: their index entries stand, the others are read again (R289). -/
def Channel.keptRows (c : Channel) : Nat := (c.rows.1.filter (fun x => decide (x.unit0 + x.units ≤ c.wmark))).length

/-- A stopped channel goes on from its watermark: unacknowledged units are sent again, and their homes do not apply a word again;
source bytes and index entries are read again, and lines still to be marked are marked (R286, R287, R289). A refused record stops
it again. -/
def State.resumeChannel (s : State) (die ch : Nat) : State :=
  let c := s.chan die ch
  let r : XRec := c.snap
  let s := s.modChan die ch (fun c =>
    { c with state := if c.cur.isNone then 0 else 1
             fkind := 0, stopping := none, faultSlot := none, started := c.started && c.claimed
             idxs := c.idxs.take c.keptRows
             applied := c.applied.filter (fun u => c.hasAck u) })
  let s := if c.claimed && c.started then s.markLines die ch else s
  if c.claimed && !r.ok then s.chanStop die ch (4, 0, c.cur.getD 0, cEngine)
  else if c.claimed && !c.started then s.footChannel die ch
  else s

/-- ACT 1 on a channel: in FAULT it resumes, otherwise the write is ignored and counted (R289). -/
def execChannelResume (die ch : Nat) (s : State) : Out :=
  .next (if (s.chan die ch).state = 3 then s.resumeChannel die ch else s.refuse)

/-- ACT 2 on a stopped channel: the claimed record is returned DROPPED and its NEXT follows; with FKIND 2 nothing is
returned (R289). -/
def execChannelDrop (die ch : Nat) (s : State) : Out :=
  .next (
    let c := s.chan die ch
    let r : XRec := c.snap
    if !(c.state = 3 || c.state = 4) then s.refuse
    else if c.claimed then
      (match s.writeReturn die ch 3 with
      | .ok s => s.dropClaim die ch 3 true r.next
      | .error _ => s.dropClaim die ch 3 true r.next)
    else s.dropClaim die ch 0 false 0)

/-- ACT 3 on a stopped channel: as `xkill`, which also unfreezes it into IDLE (R184, R289). -/
def execChannelKill (die ch : Nat) (s : State) : Out :=
  .next (if (s.chan die ch).state = 3 || (s.chan die ch).state = 4 then s.killChannel die ch else s.refuse)

/-! ### Feed ports (R23, R141, R291 to R294) -/

/-- The sequencer holds a slot and its walks move: they stop when it departs (R253). -/
def Seqr.walksMove (q : Seqr) : Bool := (q.st = .resident || q.st = .running) && q.depart.isNone

/-- A fill walk delivers its next entry to a port with room, or records the address that failed (R291, R292, R345). -/
def execFeedFill (h : BitVec 24) (port : BitVec 3) (s : State) : Out :=
  .next (match s.seqOf h with
  | none => s
  | some q =>
    let f := q.port port.toNat
    match f.walk with
    | none => s
    | some w =>
      if f.bind ≠ 1 || w.failed.isSome || decide (4 ≤ f.entries.length) || w.exhausted 256 || !q.walksMove then s
      else
        match s.walkRead (s.masterOf q) w 256 with
        | .wait _ => s
        | .fail code va => s.modPortOf h port.toNat (fun f => f.failAt code va)
        | .bytes bs =>
          (s.noteAll (s.masterOf q) .load (w.chunks 256 w.place 256)).modPortOf h port.toNat (fun f =>
            { f with entries := f.entries ++ [BitVec.ofNat 2048 (ofBytes bs)], walk := some (w.advance 256) }))

/-- Writes an entry at translated chunks: each line that the walk does not return to is marked full (R291). -/
def State.writeChunks (s : State) (w : Who) (done : W64 → Bool) : List (W64 × Nat × Xlat) → List Byte → State
  | [], _ => s
  | (va, n, x) :: ps, bs =>
    let s := match s.writePiece w x (bs.take n) (done va) with
      | .ok s => s
      | .error _ => s
    s.writeChunks w done ps (bs.drop n)

/-- An entry of a drain port with bytes in another package leaves as copy traffic: it is written once those have landed, and its
lines are marked and its bytes counted then (R291). -/
def State.sendEntry (s : State) (q : Seqr) (p : Nat) (w : Walk) (ps : List LandPiece) : State :=
  let l : Landing :=
    { num := s.landNext, core := q.coreNo, port := some p, handle := q.handle, gaddr := 0, pieces := ps, sync := w.sync, count := 256
      lines := ((ps.filter (fun x => !(w.returnsTo 256 (w.place + 256) x.va))).map (fun x => x.va.toNat / 128)).eraseDups }
  { s with landNext := s.landNext + 1, landings := s.landings ++ [l] }.sendFar ps

/-- A drain walk writes the oldest entry of its port, marks the lines it completes full and counts the bytes; a failed
address is recorded instead (R141, R291, R292). -/
def execFeedDrainWrite (h : BitVec 24) (port : BitVec 3) (s : State) : Out :=
  .next (match s.seqOf h with
  | none => s
  | some q =>
    let f := q.port port.toNat
    match f.walk, f.entries with
    | some w, e :: _ =>
      if f.bind ≠ 2 || w.failed.isSome || w.exhausted 256 || !q.walksMove || s.portTraffic h port.toNat then s
      else
        let who := s.masterOf q
        let chunks := w.chunks 256 w.place 256
        match s.walkWritable who chunks with
        | .error (code, va) => s.modPortOf h port.toNat (fun f => f.failAt code va)
        | .ok ps =>
          if s.writeBlocked who chunks then s
          else if ps.any (fun x => x.2.2.pkg ≠ s.pkg) then
            (s.noteAll who .store chunks).sendEntry q port.toNat w (entryPieces ps (vecBytes e))
          else
            let s := ((s.noteAll who .store chunks).writeChunks who (fun va => !(w.returnsTo 256 (w.place + 256) va)) ps
              (vecBytes e)).modPortOf h port.toNat FeedPort.written
            match s.engSync who w.sync 256 with
            | .ok s => s.modPortOf h port.toNat FeedPort.closed
            | .error (code, va) => s.modPortOf h port.toNat (fun f => f.failAt code va)
    | _, _ => s)

end Sys2Proof.Machine
end

