-- ==== Sys2Proof/Machine/Collective.lean ====
section
/-!
DEFINITION. The collective engine: channels, messages, credits, the lift table and its trigger counters
(spec/08_sync_collective_system.md R209 to R215; spec/12_copy_and_collective_engines.md R295 to R300, R396).
-/

namespace Sys2Proof.Machine

/-! ### Channels (Tables 8.6 and 12.3) -/

def Coll.fmt (c : Coll) : Nat := fieldOf c.shape 0 4
def Coll.rop (c : Coll) : Nat := fieldOf c.shape 4 4
def Coll.depth (c : Coll) : Nat := fieldOf c.shape 8 12
def Coll.elems (c : Coll) : Nat := fieldOf c.shape 20 24
def Coll.topk (c : Coll) : Nat := fieldOf c.shape 44 5
def Coll.peerPkg (c : Coll) : BitVec 15 := BitVec.ofNat 15 (fieldOf c.peer 0 15)
def Coll.peerCh (c : Coll) : Nat := fieldOf c.peer 15 12
def Coll.peerGroup (c : Coll) : BitVec 10 := BitVec.ofNat 10 (fieldOf c.peer 15 10)
def Coll.mc (c : Coll) : Bool := c.peer.getLsbD 27

/-- Bytes of an element (R296). -/
def elemBytes (fmt : Nat) : Nat := if fmt = 2 then 2 else if fmt = 3 || fmt = 4 then 1 else 4

/-- The bytes of a message (R296). -/
def Coll.size (c : Coll) : Nat := c.elems * elemBytes c.fmt

/-- The slot stride (R296). -/
def Coll.stride (c : Coll) : Nat := (c.size + 127) / 128 * 128

/-- The slots landed and not released at a receive end: credits granted and not returned are the rest of its ring. -/
def Coll.landed (c : Coll) : Nat := c.depth - c.cred.toNat

/-- The operation fits the format of a receive end (R131, R211). -/
def ropFits (fmt rop : Nat) : Bool :=
  match fmt with
  | 1 => [1, 2, 3, 8, 9, 10].contains rop
  | 2 => [8, 9, 10, 11].contains rop
  | 5 => [0, 4, 5, 8, 9, 10].contains rop
  | _ => rop = 0

/-- A channel number of the executing job's grant (R210). -/
def State.clGrant (s : State) (n : Nat) : Bool :=
  let g := s.engRead 3 65
  decide (fieldOf g 0 12 ≤ n) && n < fieldOf g 0 12 + fieldOf g 12 12

/-- A lift entry or counter number of the executing job's grant (R210). -/
def State.liftGrant (s : State) (n : Nat) : Bool :=
  let g := s.engRead 3 65
  decide (fieldOf g 24 13 ≤ n) && n < fieldOf g 24 13 + fieldOf g 37 13

/-- Credits reach a send end from a receiver's package (R211, R212). -/
def State.addCredit (s : State) (ch : Nat) (pkg : BitVec 15) (n : Nat) : State :=
  s.modColl ch (fun c => { c with credits := tset pkg.toNat (tget 0 c.credits pkg.toNat + n) c.credits })

/-- A receive end grants or returns credits to the send end that is its peer (R211, R212). -/
def State.giveCredit (s : State) (ch n : Nat) : State :=
  let c := s.coll ch
  if c.peerPkg = s.pkg then s.addCredit c.peerCh s.pkg n
  else s.emit (.credit c.peerPkg (BitVec.ofNat 12 c.peerCh) (BitVec.ofNat 12 n))

/-- A collective command that names a channel: one outside the grant raises ENGINE (R210). -/
def State.withColl (s : State) (a : BitVec 5) (go : Nat → Coll → State → State) : State :=
  s.eslot (s.rg a).taint (fun s =>
    let n := (s.rg a).val.toNat
    if !s.clGrant n then s.raise cEngine 0 else go n (s.coll n) s)

/-- The checks of `cset` on the staging registers and the channel as it stands (R211). -/
def collOk (peer shape buf : W64) (c : Coll) (waiting : Bool) : Bool :=
  let n : Coll := { Coll.reset with peer := peer, shape := shape }
  let recv := shape.getLsbD 49
  peer.toNat / 2 ^ 28 = 0 && shape.toNat / 2 ^ 50 = 0 && decide (1 ≤ n.fmt) && decide (n.fmt ≤ 5) && n.depth ≠ 0
    && n.elems ≠ 0 && buf.toNat % 128 = 0 && !(n.mc && recv) && (!recv || ropFits n.fmt n.rop)
    && (n.topk = 0 || ((n.fmt = 1 || n.fmt = 2) && !recv))
    && c.queued.isEmpty && c.unacked.isEmpty && c.heldMsgs.isEmpty && !waiting && (c.state ≠ 2 || c.landed = 0)

/-- The commands of an entry that have fired and wait, with their places in firing order (R299). -/
def Lift.waiting (l : Lift) : List (W64 × Nat) := l.owed ++ (if l.pend then [(l.cmd, l.order)] else [])

/-- Takes waiting commands from an entry. -/
def Lift.unwait (l : Lift) (p : W64 × Nat → Bool) : Lift :=
  { l with owed := l.owed.filter (fun x => !p x), pend := l.pend && !p (l.cmd, l.order) }

/-- A fired command waits on a channel. -/
def State.liftWaits (s : State) (ch : Nat) : Bool :=
  s.lifts.any (fun l => l.2.waiting.any (fun x => fieldOf x.1 3 12 = ch))

/-- `cset` (R211): a receive end grants DEPTH credits, a send end keeps those it holds. A send end counts its messages from 0; a
receive end set anew goes on counting those of its sender, so that either end may be set alone (DEDUCED, log entry 41). -/
def execCset (a : BitVec 5) (s : State) : Out :=
  .next (s.withColl a (fun n c s =>
    let peer := s.src.stagingOf 3 0
    let shape := s.src.stagingOf 3 1
    let buf := s.src.stagingOf 3 2
    if !collOk peer shape buf c (s.liftWaits n) then s.raise cEngine 0
    else
      let recv := shape.getLsbD 49
      let s := s.modColl n (fun c =>
        { c with peer := peer, shape := shape, buf := buf, sync := s.src.stagingOf 3 3, state := if recv then 2 else 1
                 errk := 0, head := 0, tail := 0, mseq := if recv && c.state = 2 then c.mseq else 0, disc := 0, job := s.ctx.job
                 setting := if recv then c.setting else c.setting + 1, heard := if recv && c.state = 2 then c.heard else none
                 cred := if recv then BitVec.ofNat 12 (fieldOf shape 8 12) else c.cred })
      if recv then s.giveCredit n (fieldOf shape 8 12) else s))

/-- Queues a message on a send end (R212): a channel that cannot carry it raises ENGINE, a full one makes the command
wait. -/
def State.collSend (s : State) (a : BitVec 5) (bcast reduce : Bool) : State :=
  s.withColl a (fun n c s =>
    let hdr := s.src.stagingOf 3 5
    if c.state ≠ 1 || c.mc ≠ bcast || (reduce && (c.fmt = 3 || c.fmt = 4)) then s.raise cEngine 0
    else if decide (c.depth ≤ c.queued.length) || s.liftWaits n then s.stall .engineRoom
    else
      s.modColl n (fun c => { c with queued := c.queued ++
        [{ bcast := bcast, reduce := reduce, nv := hdr.getLsbD 13, nctr := hdr.truncate 13 }] }))

/-- `csend` (R212). -/
def execCsend (a : BitVec 5) (s : State) : Out := .next (s.collSend a false false)
/-- `creduce` (R212). -/
def execCreduce (a : BitVec 5) (s : State) : Out := .next (s.collSend a false true)
/-- `cbcast` (R212). -/
def execCbcast (a : BitVec 5) (s : State) : Out := .next (s.collSend a true false)

/-- `crecv`: the oldest landed slot is released and its credit returned (R212). -/
def execCrecv (a : BitVec 5) (s : State) : Out :=
  .next (s.withColl a (fun n c s =>
    if c.state ≠ 2 || c.landed = 0 then s.raise cEngine 0
    else
      (s.modColl n (fun c =>
        { c with tail := BitVec.ofNat 12 ((c.tail.toNat + 1) % c.depth), cred := c.cred + 1 })).giveCredit n 1))

/-! ### The lift table (R213 to R215, R299) -/

/-- The threshold is reached: the distance is 0 or above 2^31 (R213). -/
def reached (t c : W32) : Bool := t = c || decide (2 ^ 31 < (t - c).toNat)

/-- The fields of a lift command (Table 8.6, cl.4). -/
def lcmdOp (w : W64) : Nat := fieldOf w 0 3
def lcmdCh (w : W64) : Nat := fieldOf w 3 12
def lcmdWatch (w : W64) : Nat := fieldOf w 15 13
def lcmdTarget (w : W64) : Nat := fieldOf w 42 13

/-- The message of a fired command. -/
def lcmdMsg (w : W64) : QueuedMsg :=
  { bcast := decide (lcmdOp w = 4), reduce := decide (lcmdOp w = 3), nv := w.getLsbD 28, nctr := BitVec.ofNat 13 (fieldOf w 29 13) }

/-- A fired command can go to its channel (R299). -/
def Coll.takes (c : Coll) (w : W64) : Bool :=
  c.state = 1 && c.mc = (lcmdOp w = 4) && !(lcmdOp w = 3 && (c.fmt = 3 || c.fmt = 4))

/-- An entry fires: it issues its command, waits with PEND set, or, where the channel cannot carry it, sets ERR (R299). -/
def State.fire (s : State) (e : Nat) : State :=
  let w := (s.lift e).cmd
  let s := s.modLift e (fun l => { l with state := 2 })
  if lcmdOp w = 7 then s.modLift (lcmdTarget w) (fun l => { l with count := l.count + 1 })
  else
    let c := s.coll (lcmdCh w)
    if !c.takes w then s.modLift e (fun l => { l with err := true })
    else if decide (c.depth ≤ c.queued.length) || s.liftWaits (lcmdCh w) then
      { s.modLift e (fun l => { l with pend := true, order := s.orderNext }) with orderNext := s.orderNext + 1 }
    else s.modColl (lcmdCh w) (fun c => { c with queued := c.queued ++ [lcmdMsg w] })

/-- An armed entry whose threshold its counter has reached. -/
def State.ripe (s : State) : Option Nat :=
  (s.lifts.find? (fun l => l.2.state = 1 && reached l.2.thresh (s.lift (lcmdWatch l.2.cmd)).count)).map Prod.fst

/-- Fires every entry whose threshold is reached, each once (R213). -/
def State.fireAll (s : State) : Nat → State
  | 0 => s
  | n + 1 =>
    match s.ripe with
    | none => s
    | some e => (s.fire e).fireAll n

/-- Adds to a trigger counter (R213, R215). -/
def State.bump (s : State) (c : Nat) (v : W32) : State :=
  let s := s.modLift c (fun l => { l with count := l.count + v })
  s.fireAll s.lifts.length

/-- Sets a trigger counter, which cancels every entry armed on it (R215). -/
def State.setCounter (s : State) (c : Nat) (v : W32) : State :=
  let s := s.modLift c (fun l => { l with count := v })
  { s with lifts := s.lifts.map (fun l =>
      if l.2.state = 1 && lcmdWatch l.2.cmd = c then (l.1, { l.2 with state := 3 }) else l) }

/-- `liftarm` (R213, R214). -/
def execLiftarm (a b : BitVec 5) (s : State) : Out :=
  .next (s.eslot ((s.rg a).taint ||| (s.rg b).taint) (fun s =>
    let e := (s.rg a).val.toNat
    let t := (s.rg b).val
    let w := s.src.stagingOf 3 4
    if !s.liftGrant e then s.raise cEngine 0
    else
      let op := lcmdOp w
      let sends := op = 1 || op = 3 || op = 4
      if (s.lift e).state = 1 || w.toNat / 2 ^ 55 ≠ 0 || !(sends || op = 7) || (op = 7 && lcmdCh w ≠ 0)
          || (sends && lcmdTarget w ≠ 0) || !s.liftGrant (lcmdWatch w) || (sends && !s.clGrant (lcmdCh w))
          || (op = 7 && !s.liftGrant (lcmdTarget w)) || (t - (s.lift (lcmdWatch w)).count).toNat = 2 ^ 31 then
        s.raise cEngine 0
      else
        let s := s.modLift e (fun l =>
          { l with state := 1, pend := false, owed := l.waiting, err := false, job := s.ctx.job, thresh := t, cmd := w })
        s.fireAll s.lifts.length))

/-- `liftdisarm` (R214). -/
def execLiftdisarm (a b : BitVec 5) (s : State) : Out :=
  .next (s.eslot (s.rg a).taint (fun s =>
    let e := (s.rg a).val.toNat
    if !s.liftGrant e then s.raise cEngine 0
    else
      let st := (s.lift e).state
      (if st = 1 then s.modLift e (fun l => { l with state := 0 }) else s).wg b (st.zeroExtend 32) 0))

/-- `ctrig` (R215). -/
def execCtrig (a b : BitVec 5) (s : State) : Out :=
  .next (s.eslot ((s.rg a).taint ||| (s.rg b).taint) (fun s =>
    let w := (s.rg a).val
    let c := w.toNat % 2 ^ 13
    if w.toNat % 2 ^ 31 / 2 ^ 13 ≠ 0 || !s.liftGrant c then s.raise cEngine 0
    else if w.msb then s.setCounter c (s.rg b).val
    else s.bump c (s.rg b).val))

/-- A catalogue write of a lift entry's COUNT acts as a `ctrig` set (R299). -/
def execCountWrite (entry : Nat) (v : W32) (s : State) : Out :=
  .next (if 8192 ≤ entry then s.refuse else s.setCounter entry v)

/-- Waiting fired commands take the slots that are free, in firing order (R299). -/
def State.refillColl (s : State) (ch : Nat) : State :=
  let waiting := s.lifts.flatMap (fun l => (l.2.waiting.filter (fun x => lcmdCh x.1 = ch)).map (fun x => (l.1, x)))
  match waiting.foldl (fun (b : Option (Nat × W64 × Nat)) l =>
    match b with
    | none => some l
    | some x => if l.2.2 < x.2.2 then some l else some x) none with
  | none => s
  | some (e, w, n) =>
    if (s.coll ch).depth ≤ (s.coll ch).queued.length then s
    else
      (s.modLift e (fun x => x.unwait (fun y => y.2 = n))).modColl ch (fun c => { c with queued := c.queued ++ [lcmdMsg w] })

/-! ### Messages (R212, R296 to R298, R396) -/

/-- A channel freezes, with a kind-3 record in die 0's queue (R343, R396). -/
def State.collFault (s : State) (ch : Nat) (code : BitVec 8) (va : W64) : State :=
  let job := (s.coll ch).job
  (s.modColl ch (fun c => { c with frozen := true })).post 0 (mkRec 3 code (BitVec.ofNat 32 (2 ^ 29 + ch)) job va 0)

/-- The master that a channel is: the Piazza's unit in the job's address space (R329). -/
def State.collWho (s : State) (c : Coll) : Who := { die := 4, asid := s.asidOf c.job, job := c.job, sup := false }

/-- Bytes read at their homes by the collective engine; poison and a missing translation fail (R343). -/
def State.collRead (s : State) (w : Who) : List (W64 × Nat) → Except (BitVec 8 × W64) (List Byte)
  | [] => .ok []
  | (va, n) :: ps =>
    match s.translate w .load va with
    | .error e => .error e
    | .ok x =>
      let here : Except (BitVec 8 × W64) (List Byte) := if x.pkg ≠ s.pkg then
          match s.farFault x with
          | some c => .error (c, va)
          | none => .ok ((List.range n).map (fun i => Config.farByte s.freeCtr (va.toNat + i)))
        else
          match s.homeOf w.die w.sup .load x.via x.addr with
          | .error c => .error (c, va)
          | .ok h =>
            match (List.range n).find? (fun i => !isSession h.place && s.poisoned (h.place + i) 1) with
            | some i => .error (cPoison, va + BitVec.ofNat 64 i)
            | none => .ok (s.bytesAt h.place n)
      match here, s.collRead w ps with
      | .error e, _ => .error e
      | .ok _, .error e => .error e
      | .ok a, .ok b => .ok (a ++ b)

/-- The magnitude of an element for TOPK (R298): NaN above infinity above every finite value. -/
def topMag (fmt bits : Nat) : Nat :=
  let m := if fmt = 2 then bits % 2 ^ 15 else bits % 2 ^ 31
  let inf := if fmt = 2 then 0x7F80 else 0x7F800000
  Nat.min m (inf + 1)

/-- The indices of a block that are kept: the k of largest magnitude, the lower index on a tie (R298). -/
def keptOf (fmt k : Nat) (xs : List Nat) : List Nat :=
  (List.range xs.length).filter (fun i =>
    decide (((List.range xs.length).filter (fun j =>
      decide (topMag fmt (xs[i]?.getD 0) < topMag fmt (xs[j]?.getD 0))
        || (topMag fmt (xs[i]?.getD 0) = topMag fmt (xs[j]?.getD 0) && decide (j < i)))).length < k))

/-- The elements that bytes spell. -/
def bytesElems (es n : Nat) (bs : List Byte) : List Nat := (List.range n).map (fun i => ofBytes ((bs.drop (es * i)).take es))

/-- A block as TOPK sends it: its mask and the kept elements, padded to 4 bytes (R298). -/
def packBlock (fmt k : Nat) (xs : List Nat) : List Byte :=
  let kept := keptOf fmt k xs
  let body := kept.flatMap (fun i => leBytes (xs[i]?.getD 0) (elemBytes fmt))
  leBytes (packNat 1 (fun i => if kept.contains i then 1 else 0) 32) 4 ++ body ++ List.replicate ((4 - body.length % 4) % 4) 0

/-- The payload of a message (R296, R298). -/
def Coll.payload (c : Coll) (bs : List Byte) : List Byte :=
  if c.topk = 0 then bs
  else
    let xs := bytesElems (elemBytes c.fmt) c.elems bs
    (List.range ((c.elems + 31) / 32)).flatMap (fun b => packBlock c.fmt c.topk ((xs.drop (32 * b)).take 32))

/-- The elements that a payload carries, in index order; none for those not kept (R298). -/
def unpackBlocks (fmt : Nat) : Nat → Nat → List Byte → List (Option Nat)
  | 0, _, _ => []
  | blocks + 1, n, bs =>
    let k := Nat.min n 32
    let mask := ofBytes (bs.take 4)
    let kept := (List.range k).filter (fun i => mask / 2 ^ i % 2 = 1)
    let es := elemBytes fmt
    let xs := (List.range k).map (fun i =>
      if mask / 2 ^ i % 2 = 1 then some (ofBytes (((bs.drop 4).drop (es * ((kept.filter (fun j => decide (j < i))).length))).take es))
      else none)
    xs ++ unpackBlocks fmt blocks (n - k) (bs.drop (4 + (kept.length * es + 3) / 4 * 4))

/-- The elements of a message. -/
def msgItems (m : Message) : List (Option Nat) :=
  let n := m.elems.toNat
  if m.topk = 0 then (bytesElems (elemBytes m.fmt.toNat) n m.payload).map some
  else unpackBlocks m.fmt.toNat ((n + 31) / 32) n m.payload

/-- The bytes that a message leaves in its slot (R212, R298): `csend` overwrites, writing +0 where an element is not kept;
`creduce` applies ROP to the kept elements. -/
def msgMerge (m : Message) (rop : Nat) (old : List Byte) : List Byte :=
  let es := elemBytes m.fmt.toNat
  ((msgItems m).zipIdx).flatMap (fun x =>
    let o := ofBytes ((old.drop (es * x.2)).take es)
    let v := match x.1 with
      | none => if m.reduce then o else 0
      | some d => if m.reduce then (accumOp rop (BitVec.ofNat 32 o) (BitVec.ofNat 32 d)).toNat else d
    leBytes v es)

/-- The packages whose credits a send end needs (R212): its peer's; for `cbcast` the member packages of its group. -/
def State.receivers (s : State) (c : Coll) : List Nat :=
  if !c.mc then [c.peerPkg.toNat]
  else
    let g := s.group c.peerGroup.toNat
    (((Config.farMembers s.freeCtr c.peerGroup.toNat).filter (fun z => z ≠ s.pkg)).map (fun z => z.toNat)
      ++ (if g.valid && g.dies ≠ 0 then [s.pkg.toNat] else [])).eraseDups

/-- The least credit count of a send end over its receivers (Table 12.3). -/
def State.leastCredit (s : State) (c : Coll) : Nat :=
  match (s.receivers c).map (fun k => tget 0 c.credits k) with
  | [] => 0
  | x :: xs => xs.foldl Nat.min x

/-- A send end sends its next queued message once it holds a credit from every receiver (R212, R296). -/
def execMessageSend (ch : Nat) (s : State) : Out :=
  .next (
    let c := s.coll ch
    match c.queued with
    | [] => s
    | q :: qs =>
      let rx := s.receivers c
      if c.state ≠ 1 || c.frozen || rx.isEmpty || rx.any (fun k => tget 0 c.credits k = 0) then s
      else
        let va := c.buf + BitVec.ofNat 64 (c.head.toNat * c.stride)
        match s.collRead (s.collWho c) (linePieces (c.size / 128 + 2) va c.size) with
        | .error (code, a) => s.collFault ch code a
        | .ok bs =>
          let m : Message :=
            { srcPkg := s.pkg, srcCh := BitVec.ofNat 12 ch, dstCh := BitVec.ofNat 12 (if c.mc then ch else c.peerCh),
              bcast := c.mc, reduce := q.reduce, fmt := BitVec.ofNat 4 c.fmt, elems := BitVec.ofNat 24 c.elems,
              topk := BitVec.ofNat 5 c.topk, mseq := c.mseq, setting := c.setting, nv := q.nv, nctr := q.nctr, payload := c.payload bs }
          let s := (s.noteAll (s.collWho c) .load (linePieces (c.size / 128 + 2) va c.size)).modColl ch (fun c =>
            { c with queued := qs, mseq := c.mseq + 1, head := BitVec.ofNat 12 ((c.head.toNat + 1) % c.depth)
                     unacked := c.unacked ++ [c.mseq]
                     credits := c.credits.map (fun x => if rx.contains x.1 then (x.1, x.2 - 1) else x) })
          let s := s.refillColl ch
          if c.mc then
            let p : McPacket :=
              { group := c.peerGroup, job := c.job, srcPkg := s.pkg, handle := 0, stream := 0, seqno := 0, id := 65536 + s.mcNext,
                offset := 0, data := [], msg := some m, copy := false, count := 0, down := false, hops := 0 }
            let s := { s with mcNext := s.mcNext + 1 }
            let g := s.group c.peerGroup.toNat
            if g.valid && g.root ≠ s.pkg then s.emit (.multicast 127 p) else s.later (.packet p 127)
          else if c.peerPkg = s.pkg then s.later (.event (.messageLand m))
          else s.emit (.message c.peerPkg m))

/-- What becomes of a message at a receiving Piazza. -/
inductive Delivery where
  | landed (s : State)
  | held (s : State)
  /-- it has landed before -/
  | again (s : State)
  | discarded (errk : BitVec 2) (s : State)

/-- Translates and writes the slot of a receive end, with its lines marked full, or the failing address (R396). -/
def State.collWrite (s : State) (w : Who) (va : W64) (bs : List Byte) : Except (BitVec 8 × W64) State :=
  s.masterWrite w va bs true

/-- A receive end hears a message of its sender: the messages of a new setting, and of another sender, count from 0 (R296, log
entry 41). -/
def Coll.hear (c : Coll) (m : Message) : Coll :=
  match c.heard with
  | none => { c with heard := some (m.srcPkg, m.srcCh, m.setting, false) }
  | some (p, h, e, _) =>
    if p = m.srcPkg && h = m.srcCh && e = m.setting then c
    else { c with heard := some (m.srcPkg, m.srcCh, m.setting, false), mseq := 0 }

/-- A message of the setting that a receive end hears was discarded: those that follow land as they arrive (R297). -/
def Coll.broken (c : Coll) : Bool := c.heard.any (fun x => x.2.2.2)

/-- A message lands at a receive end in the order of MSEQ, once; it is held by a frozen one or before its turn, or is
discarded (R212, R296, R297, R396). -/
def State.deliver (s : State) (m : Message) : Delivery :=
  let ch := m.dstCh.toNat
  let mine := (s.coll ch).state = 2 && !(s.coll ch).mc && (s.coll ch).peerPkg = m.srcPkg && (s.coll ch).peerCh = m.srcCh.toNat
  let s := if mine then s.modColl ch (fun c => c.hear m) else s
  let c := s.coll ch
  let drop (k : BitVec 2) (counted : Bool) : Delivery :=
    .discarded k (if counted then s.modColl ch (fun c =>
      { c with disc := c.disc + 1, heard := if mine then c.heard.map (fun x => (x.1, x.2.1, x.2.2.1, true)) else c.heard }) else s)
  if c.state ≠ 2 then drop 2 false
  else if c.fmt ≠ m.fmt.toNat || c.elems ≠ m.elems.toNat then drop 1 true
  else if !mine then drop 2 true
  else
    let hold (s : State) : Delivery := .held (s.modColl ch (fun c =>
      { c with heldMsgs := if c.heldMsgs.any (fun x => x.mseq = m.mseq) then c.heldMsgs else c.heldMsgs ++ [m] }))
    let w := s.collWho c
    let va := c.buf + BitVec.ofNat 64 (c.head.toNat * c.stride)
    if m.mseq ≠ c.mseq && !c.broken && decide (2 ^ 31 ≤ (m.mseq - c.mseq).toNat) then .again s
    else if (m.mseq ≠ c.mseq && !c.broken) || c.frozen || s.writeBlocked w (linePieces (c.size / 128 + 2) va c.size) then hold s
    else
      let old : Except (BitVec 8 × W64) (List Byte) := if m.reduce then s.collRead w (linePieces (c.size / 128 + 2) va c.size) else .ok []
      match old with
      | .error (code, a) => hold (s.collFault ch code a)
      | .ok old =>
        match (s.engSync w c.sync 0).map (fun _ => ()) with
        | .error (code, a) => hold (s.collFault ch code a)
        | .ok () =>
          match s.collWrite w va (msgMerge m c.rop old) with
          | .error (code, a) => hold (s.collFault ch code a)
          | .ok s =>
            let s := match s.engSync w c.sync c.size with | .ok s => s | .error _ => s
            let s := s.modColl ch (fun c =>
              { c with head := BitVec.ofNat 12 ((c.head.toNat + 1) % c.depth), cred := c.cred - 1, mseq := c.mseq + 1 })
            .landed (if m.nv then s.bump m.nctr.toNat 1 else s)

/-- The acknowledgment of a message goes back to its send end (R296, R297). -/
def State.ackMessage (s : State) (m : Message) (disc : BitVec 2) : State :=
  if m.srcPkg = s.pkg then s.later (.event (.messageAck m.srcCh.toNat m.mseq disc))
  else s.emit (.messageAck m.srcPkg m.srcCh m.mseq disc)

/-- A message of a tree has landed here: the packet's branch to this package's channel has acknowledged (R315). -/
def State.treeLanded (s : State) (m : Message) : State :=
  s.groups.foldl (fun s g =>
    match g.2.flight.find? (fun f => f.packet.msg = some m && f.owing.contains 99) with
    | some f => s.later (.acked g.1 f.id 99 none)
    | none => s) s

/-- The credit of a discarded message returns at once (R297). -/
def State.returnCredit (s : State) (m : Message) : State :=
  if m.srcPkg = s.pkg then s.addCredit m.srcCh.toNat s.pkg 1 else s.emit (.credit m.srcPkg m.srcCh 1)

/-- Delivers one message and acknowledges it: one of a multicast tree is acknowledged by the tree unless it is discarded. -/
def State.landOne (s : State) (m : Message) : State :=
  match s.deliver m with
  | .landed s | .again s => if m.bcast then s.treeLanded m else s.ackMessage m 0
  | .held s => s
  | .discarded k s =>
    let s := if m.bcast then s.treeLanded m else s
    (s.returnCredit m).ackMessage m k

/-- The messages that waited for their turn on a channel land, as far as they follow one another (R296). -/
def State.landNextOf (s : State) (ch : Nat) : Nat → State
  | 0 => s
  | n + 1 =>
    let c := s.coll ch
    if c.frozen then s
    else
      match c.heldMsgs.find? (fun m => c.broken || m.mseq = c.mseq) with
      | none => s
      | some m => ((s.modColl ch (fun c => { c with heldMsgs := c.heldMsgs.erase m })).landOne m).landNextOf ch n

/-- A message arrives at the channel it names, and those that waited for it follow. -/
def State.landMessage (s : State) (m : Message) : State :=
  let s := s.landOne m
  s.landNextOf m.dstCh.toNat (s.coll m.dstCh.toNat).heldMsgs.length

/-- A message lands or is discarded at this package (R296, R297). -/
def execMessageLand (m : Message) (s : State) : Out := .next (s.landMessage m)

/-- Adds acknowledged bytes to a send end's sync word; a failure freezes the channel with the count held (R296, R396). -/
def State.countAcked (s : State) (ch n : Nat) : State :=
  let c := s.coll ch
  let hold (s : State) : State := s.modColl ch (fun c => { c with heldAcks := c.heldAcks + n })
  if n = 0 then s
  else if c.heldAcks ≠ 0 then hold s
  else
    match s.engSync (s.collWho c) c.sync n with
    | .ok s => s
    | .error (code, a) => hold (s.collFault ch code a)

/-- The acknowledgment of a message reaches its send end: its bytes are counted, or, marked discarded, the channel enters
STATE 3 with its queued and waiting messages discarded (R296, R297, R299). -/
def execMessageAck (ch : Nat) (mseq : W32) (disc : BitVec 2) (s : State) : Out :=
  .next (
    let c := s.coll ch
    if !c.unacked.contains mseq then s
    else
      let s := s.modColl ch (fun c =>
        { c with unacked := c.unacked.erase mseq, tail := BitVec.ofNat 12 ((c.tail.toNat + 1) % c.depth) })
      if disc = 0 then s.countAcked ch c.size
      else
        let s := s.modColl ch (fun c => { c with state := 3, errk := disc, queued := [] })
        { s with lifts := s.lifts.map (fun l =>
            if l.2.waiting.any (fun x => lcmdCh x.1 = ch) then
              (l.1, { l.2.unwait (fun x => lcmdCh x.1 = ch) with err := true })
            else l) })

/-- Credits reach a send end (R212). -/
def execCreditReturn (ch : Nat) (srcPkg : BitVec 15) (n : BitVec 12) (s : State) : Out :=
  .next (s.addCredit ch srcPkg n.toNat)

/-- A collective channel is thawed: its held counts and messages go on (R222, R295, R396). -/
def State.thawColl (s : State) (ch : Nat) : State :=
  let c := s.coll ch
  let s := s.modColl ch (fun c => { c with frozen := false, heldAcks := 0, heldMsgs := [] })
  let s := s.countAcked ch c.heldAcks
  c.heldMsgs.foldl (fun s m => s.landMessage m) s

end Sys2Proof.Machine
end

