-- ==== Sys2Proof/Machine/Sessions.lean ====
section
/-!
DEFINITION. Reduction sessions (spec/13_package_and_fabric.md R317 to R327): opening and closing an entry, values on their
way to the root, the combine, the emission with its record, partial rounds, withdrawal and recovery.
-/

namespace Sys2Proof.Machine

/-! ### Combining (R323) -/

/-- The smallest k with n ≤ 2^k. -/
def clog2 (n : Nat) : Nat := if n ≤ 1 then 0 else Nat.log2 (n - 1) + 1

/-- The session works on INT32. -/
def Session.int (x : Session) : Bool := x.ifmt = 5

/-- What an absent leaf contributes (R322). -/
def Session.identity (x : Session) : W32 := sessionIdentity x.op.toNat x.int

/-- Combine of R323. -/
def Session.combine (x : Session) (a b : W32) : W32 × BitVec 7 :=
  match x.op.toNat with
  | 3 => (a &&& b, 0)
  | 4 => (a ||| b, 0)
  | 5 => (a ^^^ b, 0)
  | op => redCombine op (!x.int) true a b

/-- Combines two element vectors. -/
def Session.combineAll (x : Session) : List W32 → List W32 → List W32 × BitVec 7
  | a :: as, b :: bs =>
    let (c, f) := x.combine a b
    let (cs, g) := x.combineAll as bs
    (c :: cs, f ||| g)
  | _, _ => ([], 0)

/-- The value kept for a node. -/
def Session.nodeAt (x : Session) (k i : Nat) : Option NodeVal := x.nodes.find? (fun v => v.lvl = k && v.idx = i)

/-- Element j of node (k, i) of the pairwise tree: a kept value, or the combine of its children, absent leaves being the
identity (R63, R323). -/
def Session.node (x : Session) (j : Nat) : Nat → Nat → W32 × BitVec 7
  | 0, i => ((x.nodeAt 0 i).bind (fun v => v.elems[j]?)).elim (x.identity, 0) (fun e => (e, 0))
  | k + 1, i =>
    match (x.nodeAt (k + 1) i).bind (fun v => v.elems[j]?) with
    | some e => (e, 0)
    | none =>
      let (a, f) := x.node j k (2 * i)
      let (b, g) := x.node j k (2 * i + 1)
      let (c, h) := x.combine a b
      (c, f ||| g ||| h)

/-- The EXACT result of an element from its sum and what was seen, with the overflow flag (R323). -/
def Session.exactOf (x : Session) (s : Int × Nat) : Num × BitVec 7 :=
  let top : Int := 2 ^ 127 - 1
  let big := decide (top < s.1.natAbs)
  let z : Int := if big then (if s.1 < 0 then -top else top) else s.1
  let fo := flagIf big fOF
  if s.2 % 2 = 1 then (.nan false, fo)
  else if s.2 / 2 % 4 = 3 then (.nan false, fNV ||| fo)
  else if s.2 / 2 % 2 = 1 then (.inf false, fo)
  else if s.2 / 4 % 2 = 1 then (.inf true, fo)
  else (Num.ofInt z x.anchor.toInt, fo)

/-- An exact value converted to the output format, RNE; overflow gives an infinity (R323). -/
def Session.deliver (x : Session) (v : Num) : Nat × BitVec 7 :=
  let d := (if x.ofmt = 2 then bf16 else fp32).convert v 0 0 1
  (d.bits, d.flags)

/-- Bytes of an element of the output format. -/
def Session.obytes (x : Session) : Nat := if x.ofmt = 2 then 2 else 4

/-- Result element j, with its flags (R323). -/
def Session.resultElem (x : Session) (j : Nat) : Nat × BitVec 7 :=
  if x.mode = 2 then
    let (v, f) := x.exactOf (x.sums[j]?.getD (0, 0))
    let (b, g) := x.deliver v
    (b, f ||| g)
  else
    let (w, f) := if x.mode = 0 then x.node j (clog2 x.nleaf.toNat) 0
      else ((((x.nodes[0]?).bind (fun v => v.elems[j]?)).getD x.identity), 0)
    if x.int then (w.toNat, f)
    else
      let (b, g) := x.deliver (val32 w)
      (b, f ||| g)

/-- The result bytes and the flags of the round. -/
def Session.result (x : Session) : List Byte × BitVec 7 :=
  (List.range x.nelem.toNat).foldl (fun (r : List Byte × BitVec 7) j =>
    let (b, f) := x.resultElem j
    (r.1 ++ leBytes b x.obytes, r.2 ||| f)) ([], x.flags)

/-- The status record (Table 13.7). -/
def Session.record (x : Session) (now : W64) (flags : BitVec 7) : List Byte :=
  let fl := bitOf (flags.getLsbD 0) + 2 * bitOf (flags.getLsbD 2) + 4 * bitOf (flags.getLsbD 4) + 8 * bitOf (flags.getLsbD 3)
  leBytes ((x.emit - 1) + 4 * bitOf x.timedOut + 8 * bitOf x.wd + 16 * bitOf x.noret + 256 * fl + 2 ^ 32 * x.gen.toNat) 8
    ++ leBytes now.toNat 8 ++ leBytes x.present.length 8 ++ leBytes 0 8
    ++ leBytes (packNat 1 (fun i => bitOf (x.present.contains i)) x.nleaf.toNat) (8 * ((x.nleaf.toNat + 63) / 64))

/-! ### Leaves -/

/-- The leaves below NLEAF of a node. -/
def Session.leavesOf (x : Session) (lvl idx : Nat) : List Nat :=
  ((List.range (2 ^ lvl)).map (fun i => idx * 2 ^ lvl + i)).filter (fun i => decide (i < x.nleaf.toNat))

/-- Every leaf of the round is present. -/
def Session.complete (x : Session) : Bool := decide (x.nleaf.toNat ≤ x.present.length)

/-- Every leaf is present or withdrawn. -/
def Session.settled (x : Session) : Bool :=
  (List.range x.nleaf.toNat).all (fun i => x.present.contains i || x.withdrawn.contains i)

/-- The number of maximal nodes below (k, i) whose leaves are all present (R327). -/
def Session.maximal (x : Session) : Nat → Nat → Nat
  | 0, i => bitOf (x.present.contains i)
  | k + 1, i =>
    let ls := x.leavesOf (k + 1) i
    if !ls.isEmpty && ls.all (fun l => x.present.contains l) then 1 else x.maximal k (2 * i) + x.maximal k (2 * i + 1)

/-- TREE needs more nodes than the root keeps in RECOVER (R327). -/
def Session.tooMany (x : Session) : Bool := x.mode = 0 && decide (64 < x.maximal (clog2 x.nleaf.toNat) 0)

/-- Adds the leaf values of an EXACT contribution to the running sums; the flag says a term was inexact (R323). -/
def Session.addExact (x : Session) : List (Int × Nat) → List W32 → List (Int × Nat) × BitVec 7
  | [], [] => ([], 0)
  | ss, v :: vs =>
    let s := ss.headD (0, 0)
    let (t, f) : (Int × Nat) × BitVec 7 :=
      match val32 v with
      | .nan _ => ((s.1, s.2 ||| 1), 0)
      | .inf n => ((s.1, s.2 ||| (if n then 4 else 2)), 0)
      | .fin n m e =>
        let (q, nx) := roundAt n m (e - x.anchor.toInt) 0 0 0
        ((s.1 + signed n q, s.2), flagIf nx fNX)
    let (ts, g) := x.addExact (ss.drop 1) vs
    (t :: ts, f ||| g)
  | ss, [] => (ss, 0)

/-- A value joins what the root keeps (R327). -/
def Session.join (x : Session) (v : SessionValue) : Session :=
  let x := { x with
    present := x.present ++ x.leavesOf v.lvl v.idx
    withdrawn := x.withdrawn.filter (fun i => !((x.leavesOf v.lvl v.idx).contains i))
    flags := x.flags ||| v.flags }
  match x.mode.toNat with
  | 2 =>
    let (ss, f) := x.addExact x.sums v.elems
    { x with sums := ss, flags := x.flags ||| f }
  | 1 =>
    match x.nodes with
    | [] => { x with nodes := [{ lvl := v.lvl, idx := v.idx, elems := v.elems, flags := 0 }] }
    | r :: _ =>
      let (es, f) := x.combineAll r.elems v.elems
      { x with nodes := [{ r with elems := es }], flags := x.flags ||| f }
  | _ => { x with nodes := x.nodes ++ [{ lvl := v.lvl, idx := v.idx, elems := v.elems, flags := 0 }] }

/-! ### Session packets at a port (R316, R320) -/

/-- The data bytes of a packet. -/
def packetBytes : Packet → Nat
  | .store _ _ _ _ _ _ _ _ _ _ _ es => es.length
  | .readReply _ _ _ _ => 256
  | .copyUnit _ _ _ _ es _ => es.length
  | .message _ m => m.payload.length
  | .multicast _ m => Nat.max m.data.length ((m.msg.map (fun x => x.payload.length)).getD 0)
  | .sessionValue _ _ v => 4 * v.elems.length
  | _ => 0

/-- The number of a packet's flits: a header flit followed by data flits of 56 bytes (R305). -/
def packetFlits (p : Packet) : Nat := 1 + (packetBytes p + 55) / 56

/-- The packets that waiting flits belong to, like ones as often as their flits stand there. -/
def waitingPackets (q : List (Packet × BitVec 3 × BitVec 448)) : List Packet :=
  let ps := q.map Prod.fst
  ps.eraseDups.flatMap (fun p => List.replicate ((ps.count p + packetFlits p - 1) / packetFlits p) p)

/-- The session of a session packet. -/
def Packet.session : Packet → Option Nat
  | .sessionValue _ n _ => some n
  | .sessionMark _ n _ _ _ _ => some n
  | .roundend _ n _ _ => some n
  | .closeSlots _ n _ _ => some n
  | .reopenSlots _ n _ _ => some n
  | _ => none

/-- A session packet is discarded and counted (R320). -/
def State.dropSession (s : State) (n : Nat) : State := s.modSession n (fun x => { x with disc := x.disc + 1 })

/-- A session packet leaves by a port that is UP, waits at one that trains, and is discarded at any other (R316, R320). -/
def State.sendSession (s : State) (n port : Nat) (p : Packet) : State :=
  let st := (s.port port).state
  if st = 1 || st = 2 || st = 3 then s.emit p else s.dropSession n

/-- The session packets that wait at a port are discarded and counted: those of session n, or of all (R316, R320). -/
def State.dropSessions (s : State) (port : Nat) (n : Option Nat) : State :=
  let mine (p : Packet) : Bool := match p.session with | some m => n.all (fun k => k = m) | none => false
  let q := (s.port port).outq
  (waitingPackets (q.filter (fun e => mine e.1))).foldl (fun s p => s.dropSession ((p.session).getD 0))
    (if q.any (fun e => mine e.1) then s.modPort port (fun x => { x with outq := x.outq.filter (fun e => !mine e.1) }) else s)

/-! ### Rounds -/

/-- The ports behind which a session's subtrees lie. -/
def Session.children (x : Session) : List Nat := (List.range 64).filter (fun p => x.child.getLsbD p)

/-- The round is over: buffers are cleared, and FULL in every slot that is not CLOSED (R324). -/
def Session.endRound (x : Session) : Session :=
  { x with
    slots := x.slots.map (fun c => (c.1, { c.2 with full := c.2.full && c.2.closed, bytes := [], stale := c.2.closed }))
    gen := x.gen + 1, nodes := [], marks := [], sums := [], present := [], withdrawn := [], flags := 0, started := none
    busy := false, timedOut := false, wd := false, noret := false, recon := false, emit := 0, emitStep := 0 }

/-- A held store is discarded and acknowledged (R319). -/
def State.discardHeld (s : State) : HeldWrite → State
  | .arrive src => s.discardRequest src
  | .host p => s.later (.hostWrite { p with bytes := [] })
  | _ => s

/-- A held store is applied (R324). -/
def State.applyStore (s : State) : HeldWrite → State
  | .arrive src => s.landHeld src
  | .host p => s.later (.hostWrite p)
  | _ => s

/-- The entry enters FREE: slot buffers, kept values and held stores go, GEN, DISC and DUP stay (R319). -/
def State.freeSession (s : State) (n : Nat) : State :=
  let x := s.session n
  let held := x.heldStores
  let s := s.modSession n (fun x =>
    { x.endRound with
      state := 0, gen := x.gen, closing := false, heldStores := [], disc := x.disc + BitVec.ofNat 32 held.length
      slots := x.slots.map (fun c => (c.1, { c.2 with full := false, closed := false, bytes := [], stale := false })) })
  held.foldl (fun s h => s.discardHeld h) s

/-- ROUNDEND at an entry: the round ends, the subtrees are told, and the held stores are applied (R324). -/
def State.roundEnd (s : State) (n : Nat) : State :=
  let x := s.session n
  let s := s.modSession n (fun x => { x.endRound with state := if x.state = 0 then 0 else 1, heldStores := [] })
  let s := x.children.foldl (fun s p => s.sendSession n p (.roundend p n x.wireFields x.wireShape)) s
  let s := x.heldStores.foldl (fun s h => s.applyStore h) s
  if x.closing then s.freeSession n else s

/-- CLOSE at an entry: every slot not yet FULL is closed, and the subtrees are told (R325). -/
def State.closeSlots (s : State) (n : Nat) : State :=
  let x := s.session n
  let s := s.modSession n (fun x =>
    { x with busy := true
             slots := x.slots.map (fun c => (c.1, if c.2.valid && !c.2.full then { c.2 with closed := true } else c.2)) })
  x.children.foldl (fun s p => s.sendSession n p (.closeSlots p n x.wireFields x.wireShape)) s

/-- A packet of a session's result to its group (R324). -/
def State.sendCopy (s : State) (n : Nat) (x : Session) (offset : W64) (data : List Byte) (count : Nat) : State :=
  let p : McPacket :=
    { group := x.outgrp, job := x.job, srcPkg := s.pkg, handle := 0, stream := 0, seqno := 0, id := n, offset := offset,
      data := data, msg := none, copy := true, count := count, down := false, hops := 0 }
  let g := s.group x.outgrp.toNat
  let s := s.modSession n (fun x => { x with emitStep := x.emitStep + 10 })
  if g.valid && g.root ≠ s.pkg then s.emit (.multicast 127 p) else s.later (.packet p 127)

/-- The last step of an emission: ROUNDEND, or CLOSE and RECOVER (R324, R325, Table 13.8). -/
def State.emitEnd (s : State) (n : Nat) : State :=
  let x := s.session n
  if x.emit ≠ 2 then s.roundEnd n
  else if x.closing then s.freeSession n
  else (s.modSession n (fun x => { x with state := 3, emit := 0, emitStep := 0, recon := false, started := none })).closeSlots n

/-- Makes the write of an emission step in place, or parks it (R324, R397). A migrating frame holds the emission back
(R337). -/
def State.emitWrite (s : State) (n : Nat) (x : Session) (va : W64) (bs : List Byte) (go : State → State) : State :=
  let w := s.piazza x.job
  if s.writeBlocked w (linePieces (bs.length / 128 + 2) va bs.length) then s
  else
    match s.masterWrite w va bs true with
    | .ok s => go s
    | .error (c, a) => s.parkPiazza x.job c a (.result n)

/-- Makes the addition to OUTSYNC, or parks it. -/
def State.emitSync (s : State) (n : Nat) (x : Session) (bytes : Nat) (go : State → State) : State :=
  match s.engSync (s.piazza x.job) x.outsync bytes with
  | .ok s => go s
  | .error (c, a) => s.parkPiazza x.job c a (.result n)

/-- Runs the steps of an emission from the one that is next, as far as they go (R324). -/
def State.emitRun (s : State) (n : Nat) : Nat → State
  | 0 => s
  | fuel + 1 =>
    let x := s.session n
    let next (s : State) : State := (s.modSession n (fun x => { x with emitStep := x.emitStep + 1 })).emitRun n fuel
    match x.emitStep with
    | 2 =>
      if x.outmc then s.sendCopy n x x.outa x.result.1 0 else s.emitWrite n x x.outa x.result.1 next
    | 3 =>
      let bs := x.record s.ptime x.result.2
      if x.outmc then s.sendCopy n x x.stata bs 0 else s.emitWrite n x x.stata bs next
    | 4 =>
      if x.outsync = 0 then next s
      else if x.outmc then s.sendCopy n x x.outsync [] x.result.1.length
      else s.emitSync n x x.result.1.length next
    | 5 => s.emitEnd n
    | _ => s

/-- The emission goes on: a write has been made again, or its migration is over. -/
def State.emitGo (s : State) (n : Nat) : State := s.emitRun n 4

/-- A parked step is abandoned (R397). -/
def State.emitSkip (s : State) (n : Nat) : State := (s.modSession n (fun x => { x with emitStep := x.emitStep + 1 })).emitGo n

/-- The packet of an emission step is delivered everywhere (R315, R324). -/
def State.emitAcked (s : State) (n : Nat) : State :=
  if (s.session n).state = 2 && decide (10 < (s.session n).emitStep) then
    (s.modSession n (fun x => { x with emitStep := x.emitStep - 9 })).emitGo n
  else s

/-- The root emits: 1 COMPLETE, 2 PARTIAL, 3 RECOVERED (R324, R325, R327). -/
def State.emitResult (s : State) (n kind : Nat) : State :=
  (s.modSession n (fun x =>
    { x with
      state := 2, emit := kind, emitStep := 2
      noret := x.noret || (kind = 2 && x.tooMany) })).emitGo n

/-- The root emits if the round is due (R324, R326, R327). -/
def State.checkRound (s : State) (n : Nat) : State :=
  let x := s.session n
  if !x.root then s
  else if x.state = 1 then
    if x.complete then s.emitResult n 1 else if x.settled && !x.withdrawn.isEmpty then s.emitResult n 2 else s
  else if x.state = 3 && x.recon then
    if x.complete then s.emitResult n 3 else if x.settled && !x.withdrawn.isEmpty then s.emitResult n 2 else s
  else s

/-! ### Values on their way (R317, R320) -/

/-- The state of the parent port. -/
def State.parentState (s : State) (x : Session) : BitVec 3 := if x.parent.toNat < 64 then (s.port x.parent.toNat).state else 0

/-- Combines a waiting value with its sibling, as often as it finds one (R320). -/
def Session.keep (x : Session) : Nat → NodeVal → Session
  | 0, v => { x with nodes := x.nodes ++ [v] }
  | fuel + 1, v =>
    match if x.mode = 2 then none else x.nodes.find? (fun u => u.lvl = v.lvl && u.idx / 2 = v.idx / 2 && u.idx ≠ v.idx) with
    | none => { x with nodes := x.nodes ++ [v] }
    | some u =>
      let x' := { x with nodes := x.nodes.erase u }
      let (es, f) := if u.idx < v.idx then x.combineAll u.elems v.elems else x.combineAll v.elems u.elems
      x'.keep fuel { lvl := v.lvl + 1, idx := v.idx / 2, elems := es, flags := u.flags ||| v.flags ||| f }

/-- A Piazza that is not the root forwards a value, keeps it while its parent port trains, or discards it (R316, R320). -/
def State.forwardValue (s : State) (n : Nat) (v : SessionValue) : State :=
  let x := s.session n
  let st := s.parentState x
  if st = 2 then s.emit (.sessionValue x.parent.toNat n v)
  else if st = 1 || st = 3 then
    s.modSession n (fun x => x.keep 17 { lvl := v.lvl, idx := v.idx, elems := v.elems, flags := v.flags })
  else s.modSession n (fun x => { x with disc := x.disc + 1 })

/-- What was kept for a parent port that has come up leaves: the values, then the markers behind them (R320, R326). -/
def State.forwardKept (s : State) (n : Nat) : State :=
  let x := s.session n
  if x.root then s
  else
    let s := s.modSession n (fun x => { x with nodes := [], marks := [] })
    let s := x.nodes.foldl (fun s v => s.emit (.sessionValue x.parent.toNat n
      { fields := x.wireFields, shape := x.wireShape, lvl := v.lvl, idx := v.idx, elems := v.elems, flags := v.flags })) s
    x.marks.foldl (fun s m => s.emit (.sessionMark x.parent.toNat n m.1 m.2 x.wireFields x.wireShape)) s

/-- A value reaches the root: a leaf that is present already is a duplicate (R318). In RECOVER, and while the partial result is
emitted, it joins what is kept, of which there may then be too much (R327). -/
def State.rootValue (s : State) (n : Nat) (v : SessionValue) : State :=
  let x := s.session n
  let again := (x.leavesOf v.lvl v.idx).filter (fun i => x.present.contains i)
  if !again.isEmpty then s.modSession n (fun x => { x with dup := x.dup + BitVec.ofNat 32 again.length })
  else
    (s.modSession n (fun x =>
      let y := x.join v
      { y with started := if x.started.isSome || x.state = 3 then x.started else some s.ptime
               noret := x.noret || ((x.state = 3 || (x.state = 2 && x.emit = 2)) && y.tooMany) })).checkRound n

/-- A session packet is received: a FREE entry discards and counts it (R319); one whose fields differ is discarded, counted and
shown in ERR (R317). -/
def State.received (s : State) (p : SessionHead) (go : State → State) : State :=
  let x := s.session p.session
  if x.state = 0 then s.modSession p.session (fun x => { x with disc := x.disc + 1 })
  else if p.fields ≠ x.wireFields || p.shape ≠ x.wireShape then
    s.modSession p.session (fun x => { x with disc := x.disc + 1, err := true })
  else go s

/-- A value reaches a Piazza of the session (R317, R319, R320). -/
def execSessionValue (n : Nat) (v : SessionValue) (s : State) : Out :=
  .next (s.received ⟨n, v.fields, v.shape⟩ (fun s =>
    let s := s.modSession n (fun x => { x with busy := true })
    if (s.session n).root then s.rootValue n v else s.forwardValue n v))

/-- What could not be forwarded within 100 µs is discarded and counted: kept values and markers, and the session's packets that
wait at a port (R316, R320). -/
def execSessionForwardTimeout (n : Nat) (s : State) : Out :=
  .next (
    let x := s.session n
    let s := if x.root || (s.parentState x) = 2 then s
      else s.modSession n (fun x =>
        { x with nodes := [], marks := [], disc := x.disc + BitVec.ofNat 32 (x.nodes.length + x.marks.length) })
    (List.range 64).foldl (fun s port => if (s.port port).state = 2 then s else s.dropSessions port (some n)) s)

/-- ROUNDEND reaches a Piazza (R324). -/
def execRoundend (p : SessionHead) (s : State) : Out := .next (s.received p (fun s => s.roundEnd p.session))

/-- CLOSE reaches a Piazza (R325). -/
def execClosePacket (p : SessionHead) (s : State) : Out :=
  .next (s.received p (fun s => s.closeSlots p.session))

/-- The round timeout expires at the root with leaves missing (R325, R327). -/
def execSessionTimeout (n : Nat) (s : State) : Out :=
  .next (
    let x := s.session n
    let due := match x.started with
      | some t => x.timeout ≠ 0 && decide (t.toNat + x.timeout.toNat ≤ s.ptime.toNat)
      | none => false
    if x.root && (x.state = 1 || (x.state = 3 && x.recon)) && due && !x.complete then
      (s.modSession n (fun x => { x with timedOut := true })).emitResult n 2
    else s)

/-! ### Opening and closing (R318, R319) -/

/-- The entry is one that R318 accepts. -/
def Session.ok (x : Session) : Bool :=
  let vs := (x.slots.map Prod.snd).filter Slot.valid
  x.mode ≠ 3 && decide (x.op.toNat ≤ 5) && decide (1 ≤ x.ifmt.toNat ∧ x.ifmt.toNat ≤ 5) && (x.ofmt = 1 || x.ofmt = 2 || x.ofmt = 5)
    && decide (1 ≤ x.nleaf.toNat ∧ x.nleaf.toNat ≤ 65536) && decide (1 ≤ x.nelem.toNat ∧ x.nelem.toNat ≤ 16384)
    && (decide (x.parent.toNat < 64) || x.parent = 127) && (x.root == decide (x.parent = 127))
    && (decide (x.op.toNat < 3) || x.ifmt = 5) && ((x.ifmt = 5) == (x.ofmt = 5)) && (x.mode ≠ 2 || (x.op = 0 && x.ifmt ≠ 5))
    && vs.all (fun c => c.leaf.toNat % 2 ^ c.lvl.toNat = 0 && decide (c.leaf.toNat + 2 ^ c.lvl.toNat ≤ x.nleaf.toNat)
        && decide (2 ^ c.lvl.toNat * x.nelem.toNat * x.ebytes ≤ 65536))
    && decide (List.Pairwise (fun (a b : Slot) =>
        a.leaf.toNat + 2 ^ a.lvl.toNat ≤ b.leaf.toNat ∨ b.leaf.toNat + 2 ^ b.lvl.toNat ≤ a.leaf.toNat) vs)

/-- STATE is written 1: a FREE entry opens with GEN, DISC and DUP 0, or is refused; otherwise the write is ignored and
counted (R318, R319). -/
def execSessionOpen (n : Nat) (s : State) : Out :=
  .next (
    let x := s.session n
    if x.state ≠ 0 || !x.ok then s.refuse
    else s.modSession n (fun x =>
      { x.endRound with state := 1, gen := 0, disc := 0, dup := 0
                        slots := x.slots.map (fun c => (c.1, { c.2 with closed := false, full := false, bytes := [], stale := false })) }))

/-- STATE is written 0 (Table 13.8): an emission ends first. -/
def execSessionClose (n : Nat) (s : State) : Out :=
  .next (
    let x := s.session n
    if x.state = 0 then s
    else if x.state = 2 then s.modSession n (fun x => { x with closing := true })
    else s.freeSession n)

/-! ### Slots (R321, R322, R326, R327) -/

/-- A store from outside the package that reaches slot k, as its home sees it. -/
def State.slotRequest (s : State) (n k : Nat) (job : BitVec 16) (checkJob : Bool) (effects : List Effect) : ExtRequest :=
  let base : Nat := 4 * 2 ^ 46 + 0x100000000000 + n * 2 ^ 20 + k * 2 ^ 16
  let at' (a : W64) : W64 := paOf s.pkg (base + a.toNat % 2 ^ 16)
  { port := 127, vc := 0, srcPkg := s.pkg, handle := 0, job := if checkJob then job else (s.session n).job, sup := !checkJob
    stream := 0, seqno := 0, pred := none, of := 1, srcDie := 4, tag := 0, unit := none, via := .phys
    expiry := BitVec.allOnes 64
    effects := effects.map (fun e => moveEffect (at' (effAddr e) - effAddr e) e) }

/-- A store reaches slot k with bytes and operations at offsets of the slot (R321, R322): a FULL slot leaves it waiting, and
a refused one is parked with a kind-4 record in die 0's queue. -/
def execSlotStore (n k : Nat) (job : BitVec 16) (checkJob : Bool) (effects : List Effect) (s : State) : Out :=
  .next (
    let r := s.slotRequest n k job checkJob effects
    match s.slotApply n k (if checkJob then some job else none) (effects.map (fun e => ((effAddr e).toNat % 2 ^ 16, e))) with
    | .done s => s
    | .held => s.modSession n (fun x => { x with heldStores := x.heldStores ++ [.arrive (.outside r)] })
    | .fault c => s.parkOutside r c (paOf s.pkg (4 * 2 ^ 46 + 0x100000000000 + n * 2 ^ 20 + k * 2 ^ 16)) 4)

/-- A WITHDRAW marker at an entry: the root marks the leaves as withdrawn; another Piazza passes it on, or keeps it behind the
values it keeps (R320, R326). -/
def State.marker (s : State) (n leaf lvl : Nat) : State :=
  let x := s.session n
  let s := s.modSession n (fun x => { x with busy := true })
  if x.root then
    let gone := (x.leavesOf lvl (leaf / 2 ^ lvl)).filter (fun i => !x.present.contains i && !x.withdrawn.contains i)
    (s.modSession n (fun x => { x with withdrawn := x.withdrawn ++ gone, wd := x.wd || !gone.isEmpty })).checkRound n
  else
    let st := s.parentState x
    if st = 2 then s.emit (.sessionMark x.parent.toNat n leaf lvl x.wireFields x.wireShape)
    else if st = 1 || st = 3 then s.modSession n (fun x => { x with marks := x.marks ++ [(leaf, lvl)] })
    else s.modSession n (fun x => { x with disc := x.disc + 1 })

/-- A WITHDRAW marker reaches this package's Piazza (R326). -/
def execWithdrawMarker (p : SessionHead) (leaf lvl : Nat) (s : State) : Out :=
  .next (s.received p (fun s => s.marker p.session leaf lvl))

/-- A slot is withdrawn: it closes, and its marker leaves for the root behind the values it has released (R326). -/
def State.withdrawSlot (s : State) (n k : Nat) : State :=
  let x := s.session n
  let c := x.slot k
  if x.state = 0 || !c.valid || c.closed then s
  else (s.modSession n (fun x => x.modSlot k (fun c => { c with closed := true }))).later
    (.mark n c.leaf.toNat c.lvl.toNat)

/-- SACT 1 is written on a slot (R326). -/
def execWithdraw (n k : Nat) (s : State) : Out := .next (s.withdrawSlot n k)

/-- The sessions of a job that ends withdraw every VALID slot that is neither FULL nor CLOSED (R326). -/
def State.withdrawJob (s : State) (job : BitVec 16) : State :=
  s.sessions.foldl (fun s e =>
    if e.2.job = job && e.2.state ≠ 0 then
      e.2.slots.foldl (fun s c => if c.2.valid && !c.2.full && !c.2.closed then s.withdrawSlot e.1 c.1 else s) s
    else s) s

/-- SACT 2 is written on a slot: a closed one accepts contributions again (R327). -/
def execReopen (n k : Nat) (s : State) : Out :=
  .next (
    let x := s.session n
    if x.state = 0 || !(x.slot k).closed then s
    else s.modSession n (fun x => x.modSlot k (fun c => { c with closed := false, stale := false, full := c.full && !c.bytes.isEmpty })))

/-- The tree's closed slots open again, below this Piazza too (R327). -/
def State.openSlots (s : State) (n : Nat) : State :=
  let x := s.session n
  let s := s.modSession n (fun x =>
    { x with slots := x.slots.map (fun c => (c.1, if c.2.closed && !c.2.stale then { c.2 with closed := false } else c.2)) })
  x.children.foldl (fun s p => s.sendSession n p (.reopenSlots p n x.wireFields x.wireShape)) s

/-- ACT 1: at the root in RECOVER, with the tree's closed slots open again and the timeout restarted (R327); a Piazza below
opens its closed slots and passes the word on. A write that does not fit is ignored and counted. -/
def execRecontrib (p : SessionHead) (s : State) : Out :=
  .next (
    let n := p.session
    let x := s.session n
    if !x.root then s.received p (fun s => s.openSlots n)
    else if x.state ≠ 3 || x.noret then s.refuse
    else
      ((s.openSlots n).modSession n (fun x => { x with recon := true, withdrawn := [], started := some s.ptime })).checkRound n)

/-- ACT 2 at the root in RECOVER: the round ends as emitted (R327). -/
def execExclude (n : Nat) (s : State) : Out :=
  .next (
    let x := s.session n
    if !x.root || x.state ≠ 3 then s.refuse else s.roundEnd n)

end Sys2Proof.Machine
end

