-- ==== Sys2Proof/Machine/Multicast.lean ====
section
/-!
DEFINITION. Multicast trees (spec/13_package_and_fabric.md R315, R316): a packet at a Piazza of its tree, its writes at the
member dies, the acknowledgments, and the branches that cannot be delivered.
-/

namespace Sys2Proof.Machine

/-- The place of byte 0 of a packet at member die d: BASEd plus the offset (R315). -/
def McGroup.memberPlace (g : McGroup) (d : Nat) (p : McPacket) : Nat := paLocal ((g.base[d]?.getD 0) + p.offset)

/-- Changes flight `id` of a group that came from `src`. -/
def State.modFlight (s : State) (g id : Nat) (f : McFlight → McFlight) : State :=
  s.modGroup g (fun x => { x with flight := lmod (fun y => y.id = id) f x.flight })

/-- The die of a tree packet's issuer: that of its Curb for a store, the Piazza otherwise. -/
def treeDie (p : McPacket) : Nat := if p.copy || p.msg.isSome then 4 else p.id / 4096

/-- The virtual address that the record of a faulting branch names: that of the store's first byte, else the place. -/
def State.branchVa (s : State) (f : McFlight) (pa : W64) : W64 :=
  if f.src = 127 && f.packet.msg.isNone && !f.packet.copy then
    ((s.curbEntry (f.packet.id / 4096) (f.packet.id % 4096)).bind (fun e => (e.parts.head?).map Part.va)).getD pa
  else pa

/-- A branch that cannot be delivered is parked with a kind-4 record (R314, R316, R341): at a member's home in its die's
queue, with a HELD notice to the source of a streamed store (R342); behind a port in the queue of the source's die, toward which
it is returned. -/
def State.parkBranch (s : State) (g : Nat) (f : McFlight) (br : Nat) (code : BitVec 8) (pa : W64) : State :=
  let p := f.packet
  let va := s.branchVa f pa
  let r : TrapRec :=
    match p.msg with
    | some m => mkRec 4 code (BitVec.ofNat 32 (2 ^ 29 + m.srcCh.toNat)) p.job va (BitVec.ofNat 64 (2 ^ 40 * p.srcPkg.toNat))
    | none =>
      if p.copy then mkRec 4 code 0 p.job va (BitVec.ofNat 64 (2 ^ 40 * p.srcPkg.toNat))
      else parkRec code p.handle p.job p.stream p.seqno p.srcPkg va 0
  if 64 ≤ br then
    let s := s.parkWork (br - 64) r (.branch g f.id br)
    if f.src = 127 || p.copy || p.msg.isSome || p.stream = 0 then s else s.emit (.heldNotice p.srcPkg p.handle p.stream p.seqno)
  else if f.src ≠ 127 then
    let s := s.modFlight g f.id (fun y => { y with back := br :: y.back })
    if p.down then s.emit (.branchReturned f.src g f.id br)
    else if p.copy || p.msg.isSome then s.emit (.treeReturned p.srcPkg p)
    else s.emit (.returned p.srcPkg p.handle p.stream p.seqno none)
  else s.parkWork (if p.copy || p.msg.isSome then 0 else p.id / 4096) r (.branch g f.id br)

/-- A member die writes the packet's bytes, counts them in a sync word, or parks the branch; a migrating frame holds them
(R315, R324, R337, R341). Copy traffic marks the lines it lands in full. The packet waits while the die's port passes nothing
(R312). -/
def State.landMember (s : State) (g : Nat) (f : McFlight) (d : Nat) : State :=
  let x := s.group g
  let p := f.packet
  let base := (x.base[d]?.getD 0) + p.offset
  let a := x.memberPlace d p
  let n := Nat.max 1 p.data.length
  if !s.diePortOpen d then s
  else if paPkg base ≠ s.pkg || dieOf a ≠ d || !(hasMemory a && hasMemory (a + n - 1)) then
    s.parkBranch g f (64 + d) cXlate base
  else if (s.migrationAt a).isSome then
    let s := s.migrationHold a (if p.count ≠ 0 then .count a p.count else .bytes (atAddrs a p.data) none)
    s.migrationHold a (.member g f.id d)
  else
    let s := if p.count ≠ 0 then s.syncAdd a p.count else (s.writeBytes (atAddrs a p.data)).countRemote a p.srcPkg (treeDie p)
    let s := if p.copy && p.count = 0 && isScratch a then
        (List.range (lineOf (a + n - 1) + 1 - lineOf a)).foldl (fun s i => s.feSet true (some (.line (lineOf a + i)))) s
      else s
    (s.toDie d (if p.copy || p.msg.isSome then 7 else BitVec.ofNat 3 (Nat.min 5 p.hops)) (1 + (p.data.length + 55) / 56)).later
      (.acked g f.id (64 + d) none)

/-- A migrating frame holds the write of member die d. -/
def State.memberHeld (s : State) (g id d : Nat) : Bool :=
  s.trans.any (fun t => t.2.migration.any (fun m => (m.heldOld ++ m.heldNew).any (fun w => w = .member g id d)))

/-- A die port passes traffic again: the packets that waited for it go on (R312, R316). -/
def State.relandMembers (s : State) (port : Nat) : State :=
  if port < 64 then s
  else
  let d := port - 64
  s.groups.foldl (fun s g =>
    g.2.flight.foldl (fun s f =>
      if f.owing.contains (64 + d) && !(s.memberHeld g.1 f.id d)
          && !(s.parked.any (fun w => w.work = .branch g.1 f.id (64 + d))) then s.landMember g.1 f d
      else s) s) s

/-- A packet leaves on a child port, or its branch is returned (R316). -/
def State.sendChild (s : State) (g : Nat) (f : McFlight) (port : Nat) : State :=
  let st := (s.port port).state
  if st = 1 || st = 2 || st = 3 then s.emit (.multicast port { f.packet with down := true, hops := f.packet.hops + 1 }) else s.parkBranch g f port cRmtFault 0

/-- The packet's own acknowledgment at its source: a Curb entry's parts are committed or dropped and the entry is
acknowledged, a channel's message is acknowledged, an emission goes on (R126, R296, R324). -/
def State.treeDone (s : State) (p : McPacket) (lost : Option W64) : State :=
  match p.msg with
  | some m => (match execMessageAck m.srcCh.toNat m.mseq 0 s with | .next t => t | _ => s)
  | none =>
    if p.copy then s.emitAcked p.id
    else
      let d := p.id / 4096
      let n := p.id % 4096
      let st : PartState := match lost with | some a => .dropped a | none => .committed
      (s.modCurb d (lmod (fun e => e.num = n) (fun e =>
        { e with parts := (e.parts.zipIdx).map (fun q =>
            if q.1.pending then { q.1 with st := if q.2 = 0 then st else .committed } else q.1) }))).finishEntry d n

/-- The acknowledgment of a packet leaves (R315): at its source package it takes effect; down the tree it goes to the parent;
from the root it goes to the source package. -/
def State.ackTree (s : State) (g : Nat) (p : McPacket) (port : Nat) (lost : Option W64) : State :=
  if port = 127 then s.treeDone p lost
  else if p.down then s.emit (.multicastAck port g p.key lost)
  else
    match p.msg with
    | some m => s.emit (.messageAck p.srcPkg m.srcCh m.mseq 0)
    | none =>
      if p.copy then s.emit (.rootAck p.srcPkg g p.key lost)
      else s.emit (.storeAck p.srcPkg p.handle p.stream p.seqno (match lost with | some a => .dropped a | none => .committed))

/-- A node of the tree has every acknowledgment of a packet: it acknowledges toward the source (R315). -/
def State.flightDone (s : State) (g : Nat) (f : McFlight) : State :=
  (s.modGroup g (fun x => { x with flight := x.flight.filter (fun y => y.id ≠ f.id) })).ackTree g f.packet f.src f.lost

/-- A multicast packet arrives at the Piazza (R315, R316): it is discarded, counted and acknowledged as if delivered, or
copied to the member dies, to the channel of its number, and to the child ports; one that is sent again goes on to the branches
that were returned. A frozen port issues nothing (R343). -/
def execMulticastArrive (p : McPacket) (port : Nat) (s : State) : Out :=
  .next (
    let g := p.group.toNat
    let x := s.group g
    if port < 64 && (s.port port).frozen then s
    else if !x.valid || x.job ≠ p.job || (x.root ≠ s.pkg && x.parent = 127) then
      (s.modGroup g (fun x => { x with discarded := x.discarded + 1 })).ackTree g p port none
    else
    match x.flight.find? (fun f => f.id = p.key && f.src = port) with
    | some f => f.back.foldl (fun s k => s.sendChild g f k) (s.modFlight g f.id (fun y => { y with back := [] }))
    | none =>
      let dies := (List.range 4).filter (fun d => x.dies.getLsbD d)
      let here := if p.msg.isSome then (if dies.isEmpty then [] else [99]) else dies.map (fun d => 64 + d)
      let ports := (List.range 64).filter (fun k => x.child.getLsbD k)
      let f : McFlight := { id := p.key, src := port, packet := p, owing := here ++ ports, back := [], lost := none }
      if f.owing.isEmpty then s.flightDone g f
      else
        let s := s.modGroup g (fun x => { x with flight := x.flight ++ [f] })
        let s := match p.msg with
          | some m => if dies.isEmpty then s else s.landMessage m
          | none => dies.foldl (fun s d => s.landMember g f d) s
        ports.foldl (fun s k => s.sendChild g f k) s)

/-- A branch of a store of this package is settled: its count toward cr.holdmax is cancelled (R342). -/
def State.branchSettled (s : State) (p : McPacket) (br : Nat) : State :=
  if p.srcPkg ≠ s.pkg || p.copy || p.msg.isSome then s
  else (s.curbEntry (p.id / 4096) (p.id % 4096)).elim s (fun e => s.unhold (p.id / 4096) e (fun b => b = br))

/-- A branch of a packet acknowledges; the node that has all of them acknowledges toward the source. The root's own
acknowledgment (127) reaches an emission that waits for it (R315, R324); one of another package's branch ends the count toward
cr.holdmax of a store that waits for it (R342). -/
def execMulticastAck (group id src : Nat) (lost : Option W64) (s : State) : Out :=
  .next (match (s.group group).flight.find? (fun f => f.id = id && f.owing.contains src) with
  | some f =>
    let s := s.branchSettled f.packet src
    let f' := { f with owing := f.owing.erase src, lost := if f.lost.isSome then f.lost else lost }
    if f'.owing.isEmpty then s.flightDone group f' else s.modFlight group id (fun _ => f')
  | none =>
    if id % 2 ^ 15 ≠ s.pkg.toNat then s
    else if id / 2 ^ 15 % 4 = 0 then
      (s.curbEntry (id / 2 ^ 17 / 4096) (id / 2 ^ 17 % 4096)).elim s (fun e =>
        if e.group = some (BitVec.ofNat 10 group) then s.unhold (id / 2 ^ 17 / 4096) e (fun b => b = src) else s)
    else if src = 127 && id / 2 ^ 15 % 4 = 2 && (s.session (id / 2 ^ 17)).outgrp.toNat = group then s.emitAcked (id / 2 ^ 17)
    else s)

/-- ACT 1 on the record of a branch: it is delivered again (R341). -/
def State.retryBranch (s : State) (g id br : Nat) : State :=
  match (s.group g).flight.find? (fun f => f.id = id && f.owing.contains br) with
  | none => s
  | some f =>
    let s := s.branchSettled f.packet br
    if 64 ≤ br then s.landMember g f (br - 64) else s.sendChild g f br

end Sys2Proof.Machine
end

