-- ==== Sys2Proof/Machine/Events.lean ====
section
/-!
DEFINITION. Events of loads and stores on their way (spec/09_memory_model.md R227, spec/05_memory_instructions.md R125,
R126, spec/14_translation_faults_errors.md R334, R342): the reply to a load, the acknowledgment of stores, HELD notices, and
requests returned because their lease ran out.
-/

namespace Sys2Proof.Machine

/-- The die of a sequencer, where it has one. -/
def State.dieOfSeq (s : State) (h : BitVec 24) : Nat := (s.seqOf h).elim 4 (fun q => q.cdie.toNat)

/-- The reply to a request of a sequencer is kept until its group is tried again (R227). -/
def Seqr.answered (q : Seqr) (tag : Nat) (r : Reply) : Seqr :=
  { q with asks := q.asks.map (fun a => if a.tag = tag && a.reply.isNone then { a with reply := some r } else a) }

/-- The reply of another package reaches the waiting sequencer over its die's port (R227, R312), or the package that passed the
request on. -/
def execLoadReturn (h : BitVec 24) (r : Answer) (s : State) : Out :=
  .next (if 2 ^ 40 ≤ r.tag then s.proxyReply (r.tag - 2 ^ 40) r.reply
    else s.viaDie (s.dieOfSeq h) 6 (packetFlits (.readReply s.pkg h r.tag r.reply)) (fun s =>
      s.modSeq h (fun q => q.answered r.tag r.reply)))

/-- The effects of an arriving request. -/
def State.effectsOf (s : State) : ArriveSrc → List Effect
  | .curb d n i => (((s.curbEntry d n).bind (fun e => e.parts[i]?)).map Part.effects).getD []
  | .outside r => r.effects

/-- The parts of an entry that travel with part i as one request to another package; of a multicast store, all. -/
def State.withPart (s : State) (e : CurbEntry) (i : Nat) (p : Part) : Bool :=
  e.group.isSome || (p.pkg ≠ s.pkg && (e.parts[i]?).any (fun q => sameFar q p))

/-- The numbers of those parts that stand as asked. -/
def State.partsWith (s : State) (e : CurbEntry) (i : Nat) (f : Part → Bool) : List Nat :=
  (e.parts.zipIdx.filter (fun x => s.withPart e i x.1 && f x.1)).map Prod.snd

/-- The acknowledgment of a request reaches the Curb (R126): its parts are committed or dropped, with the old word of a returning
`xrmw`; the entry is acknowledged when every part is. -/
def State.ackParts (s : State) (die entry part : Nat) (k : AckKind) : State :=
  match s.curbEntry die entry with
  | none => s
  | some e =>
    if e.released.isNone then s
    else
      let mine := s.partsWith e part Part.pending
      let st : PartState := match k with | .dropped a => .dropped a | _ => .committed
      let s := match k with
        | .swapped old => if mine.isEmpty then s else s.returnWord (e.issuer die s.pkg) e.retAddr old
        | _ => s
      ((mine.foldl (fun s i => s.modPart die entry i (fun (p : Part) => { p with st := st })) s).unhold die e
        (fun i => mine.contains i)).finishEntry die entry

/-- An acknowledgment reaches a Curb over its die's port (R126, R312), or the Piazza, for a request
that it passed on or a host write. -/
def execStoreAck (die : Nat) (x : CurbPart) (k : AckKind) (s : State) : Out :=
  .next (if die = 4 then (s.proxyAck x.entry k).hostAck x.entry k else s.viaDie die 6 1 (fun s => s.ackParts die x.entry x.part k))

/-- A parked request begins to count toward cr.holdmax (R342). -/
def State.startHeld (s : State) (die : Nat) (e : CurbEntry) (part : Nat) (va : W64) : State :=
  if e.stream = 0 then s
  else
    let now := (s.dieAt die).cycle
    s.modSeq e.handle (fun q =>
      if q.heldStreams.any (fun x => x.1 = die && x.2.1 = e.num && x.2.2.1 = part) then q
      else { q with heldStreams := q.heldStreams ++ [(die, e.num, part, now, va)] })

/-- A HELD notice of part `part` of an entry, or of branch `part` of a multicast store (R342). -/
def State.heldNotice (s : State) (die entry part : Nat) : State :=
  match s.curbEntry die entry with
  | none => s
  | some e =>
    if e.released.isNone then s
    else
      match e.group with
      | some g =>
        let key := s.pkg.toNat + 2 ^ 17 * (4096 * die + entry)
        if (s.group g.toNat).flight.any (fun f => f.id = key) && !(s.parked.any (fun w => w.work = .branch g.toNat key part)) then s
        else (e.parts.head?).elim s (fun p => s.startHeld die e part p.va)
      | none =>
        let s := (s.partsWith e part (fun p => p.st = .waiting)).foldl
          (fun s i => s.modPart die entry i (fun (p : Part) => { p with st := .parked })) s
        match ((s.curbEntry die entry).bind (fun e => e.parts[part]?)) with
        | some p => if p.st = .parked then s.startHeld die e part p.va else s
        | none => s

/-- A HELD notice reaches the Curb, over its die's port from another package (R312, R342), or the package that passed the request
on. -/
def execHeldNotice (die : Nat) (x : CurbPart) (s : State) : Out :=
  .next (
    if die = 4 then s.proxyHeld x.entry
    else
      let far := (s.curbEntry die x.entry).any (fun e => e.group.isSome || (e.parts[x.part]?).any (fun p => p.pkg ≠ s.pkg))
      if far then s.viaDie die 6 1 (fun s => s.heldNotice die x.entry x.part) else s.heldNotice die x.entry x.part)

/-- The count of a request reaches cr.holdmax with it still parked: STREAM_HELD is due at the owner's next group boundary
(R342). -/
def execStreamHeld (die entry : Nat) (s : State) : Out :=
  .next (match s.curbEntry die entry with
  | none => s
  | some e =>
    let now := (s.dieAt die).cycle
    s.modSeq e.handle (fun q =>
      match q.heldStreams.find? (fun x => x.1 = die && x.2.1 = entry && decide (q.holdmax.toNat ≤ now - x.2.2.2.1)) with
      | none => q
      | some x => { q with heldDue := q.heldDue ++ [x.2.2.2.2], heldStreams := q.heldStreams.erase x }))

/-- The request that part i of an entry travels in returns because its lease ran out: its parts are translated and sent again
(R334). -/
def State.returnParts (s : State) (die entry i : Nat) : State :=
  match s.curbEntry die entry with
  | none => s
  | some e =>
    match e.parts[i]? with
    | none => s
    | some p =>
      if e.released.isNone || e.group.isSome then s
      else if p.pkg ≠ s.pkg then
        s.viaDie die 6 1 (fun s => s.resend die e (s.partsWith e i (fun p => p.st = .waiting)))
      else if p.st = .waiting && s.tooLate p.exp then s.resend die e [i]
      else s

/-- A request returns to its source because it arrived more than 2,000 ns after its lease (R334): a store's parts, a load, or a
copy unit, which is sent again as if it had not left. -/
def execStaleReturn (die : Nat) (r : StaleWork) (s : State) : Out :=
  .next (match r with
  | .store entry i => if die = 4 then (s.proxyAgain entry).hostReturned entry else s.returnParts die entry i
  | .load h tag =>
    if 2 ^ 40 ≤ tag then s.proxyReply (tag - 2 ^ 40) .again
    else if die = s.dieOfSeq h then s.viaDie die 6 1 (fun s => s.modSeq h (fun q => q.answered tag .again))
    else s
  | .copyUnit ch u => s.viaDie die 6 1 (fun s => s.unsend die ch u))

/-- The parts that part i of an entry was parked with: those of its request that have no record of their own. -/
def State.parkedWith (s : State) (die : Nat) (e : CurbEntry) (i : Nat) : List Nat :=
  i :: (e.parts.zipIdx.filter (fun x => x.2 ≠ i && x.1.st = .parked && s.withPart e i x.1
      && !(s.parked.any (fun w => w.work = .store die e.num x.2)))).map Prod.snd

/-- A parked part of an entry is applied at its home again, or translated again first (R334, R341). -/
def State.retryPart (s : State) (die entry i : Nat) : State :=
  match s.curbEntry die entry with
  | none => s
  | some e =>
    match e.parts[i]? with
    | none => s
    | some p =>
      if p.st ≠ .parked then s
      else
        let is := s.parkedWith die e i
        let s := (is.foldl (fun s i => s.modPart die entry i (fun (p : Part) => { p with st := .waiting })) s).unhold die e
          (fun i => is.contains i)
        match e.group with
        | some g => s.sendMulticast die e g
        | none =>
          if p.exp = 0 || p.pkg ≠ s.pkg then s.resend die e is
          else s.landPart die e i { p with st := .waiting }

/-- A parked part of an entry is dropped, with those parked with it (R341). -/
def State.dropPart (s : State) (die entry i : Nat) : State :=
  match s.curbEntry die entry with
  | none => s
  | some e =>
    let is := s.parkedWith die e i
    ((is.foldl (fun s i => s.modPart die entry i (fun (p : Part) => { p with st := .dropped p.va })) s).unhold die e
      (fun i => is.contains i)).finishEntry die entry

end Sys2Proof.Machine
end

