-- ==== Sys2Proof/Machine/Sched.lean ====
section
/-!
DEFINITION. The scheduler (spec/10_execution_and_scheduling.md; spec/08_sync_collective_system.md R196 to R198; R239, R240,
R383): taking and admitting cards, placing and restoring sequencers, switching, parking, saving and waking them, deadlines,
and the retirement of cores and jobs.
-/

namespace Sys2Proof.Machine

/-! ### Replies to the host (R380, R383) -/

/-- SACK of a connection: bit i says that sequence ACKSEQ + 1 + i has been received (Table 18.1). -/
def Conn.sack (c : Conn) : W64 :=
  BitVec.ofNat 64 (packNat 1 (fun i => bitOf (c.ahead.any (fun d => d.seq = c.expect + 1 + BitVec.ofNat 32 i))) 64)

/-- A datagram of the device on a connection. -/
def Conn.datagram (c : Conn) (n : Nat) (op : Byte) (seq : W32) (status : Byte) (tag : W64) (payload : List Byte) : Datagram where
  srcAddr := c.ownAddr
  srcPort := 47480
  dstAddr := c.srcAddr
  dstPort := c.srcPort
  udpLen := 32 + payload.length
  ver := 1
  op := op
  conn := BitVec.ofNat 6 n
  rsvd0 := 0
  seq := seq
  ackseq := c.expect
  len := BitVec.ofNat 14 payload.length
  status := status
  rsvd1 := 0
  sack := c.sack
  tag := tag
  payload := payload

/-- A sequenced REPLY on an open connection; with 64 unacknowledged it waits to be sent (R380). -/
def State.reply (s : State) (n : Nat) (status : Byte) (tag : W64) (payload : List Byte) : State :=
  let c := s.conn n
  if !c.isOpen then s
  else
    let d := c.datagram n 10 c.own status tag payload
    let s := s.modConn n (fun c => { c with own := c.own + 1, ackDue := false, unacked := c.unacked ++ [(c.own, 0, d)] })
    if c.unacked.length < 64 then s.emit (.host d) else s

/-! ### Job cards (R196, R197) -/

/-- A card the scheduler may take: the job it describes, with its address space, its order of acceptance, its launcher, and
where its refusal or admission is reported. -/
structure CardReq where
  job : Job
  order : Nat
  parent : Option (BitVec 16)
  restore : Bool
  taken : Option (List (List W64))

/-- A job as its card describes it. -/
def Job.ofCard (card : Vector W64 32) (asid : BitVec 8) : Job where
  num := 0
  asid := asid
  card := card
  deadline := card[2]
  left := 0
  status := 0
  ended := none
  retired := false
  sv := 0
  lastDone := 0
  sigTimes := []
  doneWritten := false
  overrun := false

/-- The card a source names, if it is there. -/
def State.cardReq (s : State) : CardSrc → Option CardReq
  | .launched n =>
    let e := s.launchEntry n
    if !e.occupied then none
    else some { job := .ofCard e.card e.asid, order := e.order, parent := some e.parent, restore := false, taken := e.taken }
  | .submitted n =>
    (s.submissions.find? (fun x => x.num = n)).map (fun x =>
      { job := .ofCard x.card x.asid, order := x.order, parent := none, restore := x.restore, taken := x.taken })

/-- Every card not yet taken. -/
def State.waitingCards (s : State) : List CardReq :=
  ((List.range 256).filterMap (fun n => s.cardReq (.launched n)) ++ s.submissions.filterMap (fun x => s.cardReq (.submitted x.num))).filter
    (fun c => c.taken.isNone)

/-- Every reserved field of the card is zero (Table 8.1). -/
def Job.reservedZero (j : Job) : Bool :=
  fieldOf (j.word 1) 41 23 = 0 && fieldOf (j.word 4) 52 12 = 0 && fieldOf (j.word 7) 32 32 = 0 && fieldOf (j.word 13) 50 14 = 0
    && (List.range 4).all (fun v => fieldOf (j.word (14 + v)) 36 28 = 0) && fieldOf (j.word 18) 50 14 = 0
    && (List.range 8).all (fun n => fieldOf (j.word (21 + n)) 35 29 = 0) && (List.range 3).all (fun n => j.word (29 + n) = 0)

/-- First member and member count of start crew n. -/
def Job.crewFirst (j : Job) (n : Nat) : Nat := fieldOf (j.word (21 + n)) 0 16
def Job.crewCount (j : Job) (n : Nat) : Nat := fieldOf (j.word (21 + n)) 16 17
def Job.crewGang (j : Job) (n : Nat) : Bool := (j.word (21 + n)).getLsbD 33
def Job.crewReg (j : Job) (n : Nat) : Bool := (j.word (21 + n)).getLsbD 34

/-- The index at which sub-partition p begins. -/
def Job.subStart (j : Job) (p : Nat) : Nat := if p = 0 then 0 else fieldOf (j.word 18) (16 * (p - 1)) 16

/-- The shares and boundaries of the card's variants are those R197 accepts. -/
def Job.sharesOk (j : Job) : Bool :=
  let used (v p : Nat) : Bool := decide (v ≤ j.nvar) && decide (p ≤ j.nsub)
  if j.nsub = 0 then (List.range 4).all (fun v => (List.range 4).all (fun p => j.share v p = 0))
  else
    (List.range (j.nvar + 1)).all (fun v => (List.range (j.nsub + 1)).foldl (fun n p => n + j.share v p) 0 = 256)
      && (List.range 4).all (fun v => (List.range 4).all (fun p => used v p || j.share v p = 0))
      && (List.range j.nsub).all (fun p => decide (j.subStart p ≤ j.subStart (p + 1)) && decide (j.subStart (p + 1) ≤ j.nseq))

/-- PART of a card names a core. -/
def Job.partCores (j : Job) : List Nat := (List.range 192).filter j.hasCore

/-- The dies that PART names cores of. -/
def Job.dies (j : Job) : List Nat := (List.range 4).filter (fun d => (List.range 48).any (fun c => j.hasCore (48 * d + c)))

/-- The fields of a card are those that R197 accepts. -/
def Job.fieldsOk (j : Job) : Bool :=
  j.reservedZero && (j.word 0).toNat % 4 = 0 && decide (1 ≤ j.nseq) && decide (j.nseq ≤ 65536) && decide (j.lots ≤ 48)
    && decide (j.tiles ≤ 8) && decide (j.cls ≤ 4) && j.word 2 ≠ 0 && decide (j.ncrew ≤ 8)
    && (j.sched = 15 || decide (j.sched < j.ncrew))
    && (List.range j.ncrew).all (fun n => decide (j.crewFirst n + j.crewCount n ≤ j.nseq))
    && !j.partCores.isEmpty && j.sharesOk
    && decide (fieldOf (j.word 13) 0 12 + fieldOf (j.word 13) 12 12 ≤ 4096)
    && decide (fieldOf (j.word 13) 24 13 + fieldOf (j.word 13) 37 13 ≤ 8192)

/-- A launched card stays within its launcher's partition and class (R197). -/
def State.launchOk (s : State) (j : Job) : Option (BitVec 16) → Bool
  | none => true
  | some n =>
    match s.jobs.find? (fun x => x.num = n) with
    | none => true
    | some p => j.partCores.all p.hasCore && decide (p.cls ≤ j.cls) && (j.cls ≠ 4 || p.cls = 4)

/-- The first addresses of a range in each of its 2 MiB blocks. -/
def blocksOf (va : W64) (n : Nat) : List W64 :=
  if n = 0 then []
  else va :: (List.range ((va.toNat % 2 ^ 21 + n - 1) / 2 ^ 21)).map (fun i =>
    BitVec.ofNat 64 (va.toNat / 2 ^ 21 * 2 ^ 21 + (i + 1) * 2 ^ 21))

/-- Every page of a range is translated, writable memory and no window (R197). -/
def State.mappedRw (s : State) (asid : BitVec 8) (va : W64) (n : Nat) : Bool :=
  (blocksOf va n).all (fun a =>
    match s.walk 4 asid a with
    | none => false
    | some l => !pteBit l 3 && !pteBit l 8 && hasMemory (paLocal (frameAddr l a)))

/-- The size of a save area (R254). -/
def Job.saveSize (j : Job) : Nat := 0x100000 + 0x10000 * j.lots

/-- The crew area and every save area are mapped (R197). -/
def State.areasOk (s : State) (j : Job) : Bool :=
  s.mappedRw j.asid j.crewArea ((j.ncrew + j.maxcrew) * j.crewStride)
    && (List.range j.nseq).all (fun i => s.mappedRw j.asid (j.saveBase i) j.saveSize)

/-! ### Footprint declarations (R239, R240) -/

/-- The words that bytes spell. -/
def wordsOf (bs : List Byte) (n : Nat) : List W64 := (List.range n).map (fun i => BitVec.ofNat 64 (ofBytes ((bs.drop (8 * i)).take 8)))

/-- The regions of a declaration. -/
def declRegions (ws : List W64) : List (W64 × Nat × Bool × Bool) :=
  (List.range (fieldOf (ws[0]?.getD 0) 8 3)).map (fun i =>
    let l := ws[3 + 2 * i]?.getD 0
    (ws[2 + 2 * i]?.getD 0, fieldOf l 0 40, l.getLsbD 40, l.getLsbD 41))

/-- A declaration is valid (R240). -/
def declOk (ws : List W64) : Bool :=
  let w (i : Nat) : W64 := ws[i]?.getD 0
  let n := fieldOf (w 0) 8 3
  decide (1 ≤ n) && decide (n ≤ 4) && fieldOf (w 0) 11 53 = 0 && w 1 = 0
    && (declRegions ws).all (fun r => r.2.1 ≠ 0 && (r.2.2.1 || r.2.2.2) && decide (r.1.toNat + r.2.1 ≤ 2 ^ 64))
    && (List.range n).all (fun i => fieldOf (w (3 + 2 * i)) 42 22 = 0)
    && ((List.range 8).filter (fun i => decide (2 * n ≤ i))).all (fun i => w (2 + i) = 0)
    && (List.range 6).all (fun i => w (10 + i) = 0)

/-- The card's declarations as the scheduler reads them; none while a line of the list is empty; false where the list cannot
be read. -/
def State.readDecls (s : State) (j : Job) : Option (Bool × List (List W64)) :=
  let n := fieldOf (j.word 4) 44 8
  let w : Who := { die := 4, asid := j.asid, job := 0, sup := true }
  match s.engReadAll w false (linePieces (n + 2) (j.word 19) (128 * n)) with
  | .bytes bs => some (true, (List.range n).map (fun i => wordsOf (bs.drop (128 * i)) 16))
  | .wait _ => none
  | .fail _ _ => some (false, [])

/-- The entry a declaration names. -/
def declEntry (ws : List W64) : Nat := fieldOf (ws[0]?.getD 0) 0 8

/-- The declarations are valid and name different entries (R240). -/
def declsOk (ds : List (List W64)) : Bool := ds.all declOk && decide (ds.map declEntry).Nodup

/-! ### Taking a card (R245, R197, R240, R383) -/

/-- Writes the completion record of a refused card (R198, R245); a failed write is parked (R397). -/
def State.refusedRecord (s : State) (j : Job) : State :=
  let done := j.word 20
  if done = 0 then s
  else
    let w : Who := { die := 4, asid := j.asid, job := 0, sup := true }
    match s.masterWrite w done (leBytes (3 * 2 ^ 32) 8 ++ leBytes s.ptime.toNat 8) true with
    | .ok s => s
    | .error (c, a) => s.parkPiazza 0 c a (.refusal j.asid done)

/-- A card is refused with a reason of R383. -/
def State.refuseCard (s : State) (src : CardSrc) (j : Job) (reason : Nat) : State :=
  match src with
  | .launched n =>
    { s with launches := tset n { s.launchEntry n with state := 3, occupied := false } s.launches }.refusedRecord j
  | .submitted n =>
    match s.submissions.find? (fun x => x.num = n) with
    | none => s
    | some x =>
      ({ s with submissions := s.submissions.filter (fun y => y.num ≠ n) }.reply x.conn 1 x.tag (leBytes reason 2)).refusedRecord j

/-- A card is taken with its declarations: it waits for admission. -/
def State.holdCard (s : State) (ds : List (List W64)) : CardSrc → State
  | .launched n => { s with launches := tset n { s.launchEntry n with taken := some ds } s.launches }
  | .submitted n => { s with submissions := lmod (fun x => x.num = n) (fun x => { x with taken := some ds }) s.submissions }

/-- The scheduler takes a card: the first in class order, then in order of acceptance; it is validated, and refused or
held (R245). In recovery no job starts (R384). -/
def execCardTake (src : CardSrc) (s : State) : Out :=
  .next (match s.cardReq src with
  | none => s
  | some c =>
    let first := s.waitingCards.all (fun d => decide (c.job.cls < d.job.cls) || (c.job.cls = d.job.cls && decide (c.order ≤ d.order)))
    if c.taken.isSome || s.recovery || !first then s
    else if !c.job.fieldsOk || !s.launchOk c.job c.parent then s.refuseCard src c.job 1
    else if !s.areasOk c.job then s.refuseCard src c.job 4
    else
      match s.readDecls c.job with
      | none => s
      | some (ok, ds) => if ok && declsOk ds then s.holdCard ds src else s.refuseCard src c.job 2)

/-! ### Admission (R198, R245, R259, R261) -/

/-- The home of a start crew: the Piazza when PART names cores of several dies, else that die's Crossing (R259). -/
def Job.startHome (j : Job) : Nat :=
  match j.dies with
  | [d] => d
  | _ => 4

/-- What the card waits for is there: its footprint entries on every die of the partition, and a free phaser for each start
crew (R245). -/
def State.admissible (s : State) (j : Job) (ds : List (List W64)) : Bool :=
  j.dies.all (fun d => ds.all (fun x => !((s.dieAt d).foot.any (fun f => f.1 = declEntry x))))
    && decide (j.ncrew + (s.crews.filter (fun c => c.home = j.startHome)).length ≤ 1024)

/-- Installs the declarations on the dies of the partition (R240). -/
def State.installFeet (s : State) (j : Job) (ds : List (List W64)) : State :=
  j.dies.foldl (fun s d => ds.foldl (fun s x =>
    s.modDie d (fun y => { y with foot := tset (declEntry x) { job := j.num, regions := declRegions x } y.foot })) s) s

/-- The channels of the grant belong to the job, and count the records they return from now on (R175, R183, R210). -/
def State.grantAll (s : State) (j : Job) : State :=
  let chans := (List.range 128).filter (fun c => (j.word (11 + c / 64)).getLsbD (c % 64))
  let s := j.dies.foldl (fun s d => chans.foldl (fun s c => s.modChan d c (fun x => { x with job := j.num, retcnt := 0 })) s) s
  (List.range (fieldOf (j.word 13) 12 12)).foldl (fun s i =>
    s.modColl (fieldOf (j.word 13) 0 12 + i) (fun x => { x with job := j.num })) s

/-- Creates start crew n with its members, registered where the card says so (R198, R261). -/
def State.startCrew (s : State) (j : Job) (n : Nat) : State :=
  let m : Member :=
    { joined := true, sp := 0, wp := 0, mst := if j.crewReg n then .active else .none, role := 2, waiting := false }
  let members : Table Member := (List.range (j.crewCount n)).map (fun i => (j.crewFirst n + i, m))
  match s.newCrew j.num j.startHome n (j.crewGang n) members with
  | none => s
  | some (c, s) => s.putCrew { c with pst := if j.crewReg n && !members.isEmpty then 2 else 1 }

/-- The crews of a job that index i is a member of, in their order. -/
def State.crewsOf (s : State) (num : BitVec 16) (i : Nat) : List W32 :=
  (s.crews.filter (fun c => c.handle.toNat / 2 ^ 16 = num.toNat && (c.member i).joined)).map Crew.handle

/-- The creation state of a sequencer (R14, R30, Table 1.3). -/
def State.newSeq (s : State) (j : Job) (h : BitVec 24) (i : Nat) : Seqr :=
  let seed := (BitVec.ofNat 32 (fieldOf (j.word 4) 0 32)) ^^^ BitVec.ofNat 32 i
  { Seqr.blank with
    handle := h, index := BitVec.ofNat 16 i, job := j.num, st := .queued, cls := BitVec.ofNat 3 j.cls, pc := j.word 0
    g := (Seqr.blank.g.setIfInBounds 1 { val := BitVec.ofNat 32 i, taint := 0 }).setIfInBounds 2
      { val := BitVec.ofNat 32 j.nseq, taint := 0 }
    seed := seedFix seed
    parkLimit := if (j.word 1).getLsbD 40 then BitVec.ofNat 32 (fieldOf (j.word 3) 32 32) else 20000
    joined := s.crewsOf j.num i
    tileWords := List.replicate 8 0 }

/-- The handle after a handle; zero names no sequencer. -/
def nextHandle (h : BitVec 24) : BitVec 24 := if h + 1 = 0 then 1 else h + 1

/-- Creates the sequencers from index i on, and queues them (R245). -/
def State.createSeqs (s : State) (j : Job) : Nat → Nat → State
  | 0, _ => s
  | n + 1, i =>
    let h := s.handleNext
    let q := s.newSeq j h i
    ({ s with handleNext := nextHandle h, seqs := s.seqs ++ [q], runQueue := s.runQueue ++ [h] }).createSeqs j n (i + 1)

/-- The bitmap of every lot of a save area says that every line is full (R120). -/
def State.fillBitmaps (s : State) (j : Job) (i : Nat) : State :=
  (List.range j.lots).foldl (fun s n =>
    match s.masterWrite { die := 4, asid := j.asid, job := 0, sup := true } (j.saveBase i + BitVec.ofNat 64 (0x7000 + 64 * n))
        (List.replicate 64 0xFF) false with
    | .ok s => s
    | .error _ => s) s

/-! ### Images in the save area (R254, R255, R294) -/

/-- The places of the 32-byte blocks of part of a save area, or its first address without a writable page. -/
def State.savePlace (s : State) (die : Nat) (j : Job) (i o : Nat) : Option Nat :=
  (s.plainAddr die j.asid (j.saveBase i + BitVec.ofNat 64 o)).map paLocal

/-- The number in n bytes of the save area; an untranslated one reads zero, and what another package holds is free. -/
def State.saveLE (s : State) (die : Nat) (j : Job) (i o n : Nat) : Nat :=
  match s.areaAddr die j.asid (j.saveBase i + BitVec.ofNat 64 o) with
  | some pa => if paPkg pa = s.pkg then s.readLE (paLocal pa) n else s.farBytes pa n
  | none => 0

/-- A word of the save area. -/
def State.saveWord (s : State) (die : Nat) (j : Job) (i o : Nat) : W64 := BitVec.ofNat 64 (s.saveLE die j i o 8)

/-- Loads lot n of a save area into a lot of a core, with its bitmap (R255). -/
def State.loadLot (s : State) (die : Nat) (j : Job) (i n core lot : Nat) : State :=
  match s.savePlace die j i (0x100000 + 0x10000 * n), s.savePlace die j i (0x7000 + 64 * n) with
  | some a, some bm => (s.copyBlock a (lotPlace core lot 0) 0x10000).setLotBits core lot bm
  | _, _ =>
    let t := s.writeBytes (atAddrs (lotPlace core lot 0)
      ((List.range 0x10000).map (fun o => BitVec.ofNat 8 (s.saveLE die j i (0x100000 + 0x10000 * n + o) 1))))
    let l := lineOf (lotPlace core lot 0)
    let empty := (List.range 512).filter (fun k =>
      !(BitVec.ofNat 8 (s.saveLE die j i (0x7000 + 64 * n + k / 8) 1)).getLsbD (k % 8))
    { t with empties := t.empties.filter (fun x => decide (x < l) || decide (l + 512 ≤ x)) ++ empty.map (fun k => l + k) }

/-- A walk from its block (R294). -/
def walkOfBlock (rd : Nat → W64) : Walk where
  desc := Vector.ofFn (fun k => rd (8 * k.val))
  i1 := fieldOf (rd 64) 0 16
  i2 := fieldOf (rd 64) 16 16
  i3 := fieldOf (rd 64) 32 16
  off := fieldOf (rd 64) 48 16
  bytes := (rd 72).toNat
  failed := none

/-- The context that the image of sequencer i holds: its words, and the walks of its bound ports (R255, R294). -/
def State.loadImage (s : State) (die : Nat) (j : Job) (q : Seqr) : Seqr :=
  let i := q.index.toNat
  let q := q.load (fun n => s.saveWord die j i (8 * n))
  { q with
    tileWords := (List.range 8).map (fun t => (Tile.reset.setWord (s.saveWord die j i (8 * (0x0C8 + t)))).word)
    ports := Vector.ofFn (fun p =>
      let f := q.port p.val
      let w := walkOfBlock (fun o => s.saveWord die j i (0xF0000 + 128 * p.val + o))
      if f.bind = 1 || f.bind = 2 then
        { f with walk := some { w with failed := f.walk.bind Walk.failed } }
      else { f with walk := none }) }

/-- A word of slot n of the crew area of a job that is restored. -/
def State.crewWord (s : State) (j : Job) (n o : Nat) : W64 :=
  match s.areaAddr 4 j.asid (j.crewArea + BitVec.ofNat 64 (n * j.crewStride + o)) with
  | some pa => BitVec.ofNat 64 (if paPkg pa = s.pkg then s.readLE (paLocal pa) 8 else s.farBytes pa 8)
  | none => 0

/-- The crew that slot n of the crew area holds live, as Tables 10.3 and 10.4 lay it out, with its handle (R199, R261). -/
def State.savedCrew (s : State) (j : Job) (n : Nat) : Option Crew :=
  let w := s.crewWord j n
  let h : W32 := (w 0).truncate 32
  if !(w 0).getLsbD 32 || h.toNat / 2 ^ 16 ≠ j.num.toNat || h.toNat / 2 ^ 10 % 8 ≠ 0 || decide (4 < h.toNat / 2 ^ 13 % 8) then none
  else
    let members := (List.range j.nseq).filterMap (fun i =>
      let at' := 64 + 64 * ((j.nseq + 511) / 512) + 16 * i
      let lo := w at'
      let hi := w (at' + 8)
      let m : Member :=
        { joined := (w (64 + 8 * (i / 64))).getLsbD (i % 64), sp := lo.truncate 32, wp := BitVec.ofNat 32 (lo.toNat / 2 ^ 32)
          mst := match hi.toNat % 4 with | 0 => .none | 1 => .pending | 2 => .active | _ => .dropping
          role := BitVec.ofNat 2 (hi.toNat / 4), waiting := hi.getLsbD 4 }
      if m.joined || m.mst ≠ .none then some (i, m) else none)
    some
      { handle := h, area := n, home := h.toNat / 2 ^ 13 % 8, phaser := h.toNat % 2 ^ 10, gang := (w 0).getLsbD 33
        gangx := (w 0).getLsbD 34, p := (w 16).truncate 32, pst := BitVec.ofNat 2 ((w 16).toNat / 2 ^ 32), gpark := (w 24).getLsbD 16
        woken := false, parker := (w 24).truncate 16, members := members }

/-- With RESTORE, the crews that the crew area still holds are made again, so that the handles in the images stay valid; a start
crew that it does not hold is created (R199, R383; DEDUCED, log entry 46). -/
def State.restoreCrews (s : State) (j : Job) : State :=
  (List.range (j.ncrew + j.maxcrew)).foldl (fun s n =>
    match s.savedCrew j n with
    | some c => { s with crews := s.crews ++ [c] }
    | none => if n < j.ncrew then s.startCrew j n else s) s

/-- With RESTORE, every sequencer is frozen with the image already in its save area (R383). -/
def State.adoptImages (s : State) (j : Job) : State :=
  let mine (q : Seqr) : Bool := q.job = j.num && q.handle ≠ 0 && q.st = .queued
  let hs := (s.allSeqs.filter mine).map Seqr.handle
  let t := s.mapSeqs (fun q => if mine q then { s.loadImage 4 j q with st := .frozen, imaged := true } else q)
  { t with runQueue := t.runQueue.filter (fun h => !hs.contains h) }

/-- The job number a card gets: with RESTORE, that of sequencer 0's image (R383), else the next free one. -/
def State.jobNumber (s : State) (c : CardReq) : Option (BitVec 16) :=
  let free (n : Nat) : Bool := !(s.jobs.any (fun x => x.num.toNat = n && !x.retired)) && (c.restore ||
    !(s.channels.any (fun x => x.2.job.toNat = n && x.2.state ≠ 0)))
  if c.restore then
    let n := fieldOf (s.saveWord 4 c.job 0 (8 * (0x05C + 13))) 16 16
    if free n then some (BitVec.ofNat 16 n) else none
  else (pickFree s.jobNext.toNat 65536 (fun n => n ≠ 0 && free n)).map (BitVec.ofNat 16)

/-- Reports an admission: the launch entry shows the job, the host gets its number (R208, R383). -/
def State.reportAdmission (s : State) (src : CardSrc) (num : BitVec 16) : State :=
  match src with
  | .launched n =>
    { s with launches := tset n { s.launchEntry n with state := 1, job := num, occupied := false } s.launches }
  | .submitted n =>
    match s.submissions.find? (fun x => x.num = n) with
    | none => s
    | some x => { s with submissions := s.submissions.filter (fun y => y.num ≠ n) }.reply x.conn 0 x.tag (leBytes num.toNat 2)

/-- Admits a card under a number (R198, R245). -/
def State.admitJob (s : State) (src : CardSrc) (c : CardReq) (ds : List (List W64)) (num : BitVec 16) : State :=
  let j : Job := { c.job with num := num, left := c.job.nseq, lastDone := s.ptime }
  let s := { s with
    jobs := j :: s.jobs.filter (fun x => x.num ≠ num)
    jobNext := if c.restore then s.jobNext else num + 1 }
  let s := ((s.installFeet j ds).grantAll j)
  let s := if c.restore then s.restoreCrews j else (List.range j.ncrew).foldl (fun s n => s.startCrew j n) s
  let s := if c.restore then s else (List.range j.nseq).foldl (fun s i => s.fillBitmaps j i) s
  let s := s.createSeqs j j.nseq 0
  let s := if c.restore then s.adoptImages j else s
  s.reportAdmission src num

/-! ### Placing and restoring (R34, R247, R248, R255, R260) -/

/-- The parts of a restore in the order of R255, each with its ranges of the save area: lots with their bitmaps, tiles, the image
with the walks of bound ports (R254, R294). A sequencer without an image has lots alone. -/
def restoreParts (j : Job) (q : Seqr) : List (List (Nat × Nat)) :=
  (List.range j.lots).map (fun n => [(0x100000 + 0x10000 * n, 0x10000), (0x7000 + 64 * n, 64)])
    ++ (if q.imaged then
      (List.range j.tiles).map (fun t => [(0x8000 + 0x18000 * t, 0x18000)]) ++ [(0, 8 * imageWords)
        :: (List.range 8).filterMap (fun p => if (q.port p).bind = 0 then none else some (0xF0000 + 128 * p, 128))]
      else [])

/-- The first address of a part at which a restore stops, with the code of its record (R254). -/
def State.saveHole (s : State) (die : Nat) (j : Job) (q : Seqr) (part : List (Nat × Nat)) : Option (BitVec 8 × W64) :=
  (part.flatMap (fun p => blocksOf (j.saveBase q.index.toNat + BitVec.ofNat 64 p.1) p.2)).findSome? (fun a =>
    (s.areaFault die j.asid a).map (fun c => (c, a)))

/-- Part of the save area lies in a migrating frame (R337). -/
def State.saveMoving (s : State) (die : Nat) (j : Job) (i : Nat) : Bool :=
  s.writeBlocked { die := die, asid := j.asid, job := j.num, sup := true } ((blocksOf (j.saveBase i) j.saveSize).map (fun a => (a, 1)))

/-- The image holds poison (R345). -/
def State.imagePoisoned (s : State) (die : Nat) (j : Job) (i : Nat) : Bool :=
  (List.range (8 * imageWords / 32)).any (fun k =>
    match s.savePlace die j i (32 * k) with
    | some a => s.poisoned a 1
    | none => false)

/-- A tile as its save copy holds it, with its descriptor; cells with a poisoned byte are poisoned (R255, R344). -/
def State.savedTile (s : State) (die : Nat) (j : Job) (i t : Nat) (desc : W64) : Tile :=
  let at' (k : Nat) : Option Nat := s.savePlace die j i (0x8000 + 0x18000 * t + 6 * k)
  let cells := (List.range 16384).filterMap (fun k =>
    let v := s.saveLE die j i (0x8000 + 0x18000 * t + 6 * k) 6
    if v = 0 then none else some (k, BitVec.ofNat 48 v))
  { (Tile.reset.setWord desc) with
    cells := cells
    poisoned := (List.range 16384).filter (fun k => match at' k with | some a => s.poisoned a 6 | none => false) }

/-- Tag reconciliation (R34): tags that bound while the context held no slot, and bits of tags that are not valid, are
cleared from every mask. -/
def Seqr.reconcile (q : Seqr) : Seqr :=
  let gone : Mask := BitVec.ofNat 16 (packNat 1 (fun i => match q.tags[i]?.getD none with
    | some t => bitOf t.bound
    | none => 1) 16)
  { q.clearTags gone with recon := false }

/-- Does the parts of a restore in order, up to the first that is missing: its number and its fault (R254, R255). -/
def State.restoreFrom (s : State) (die : Nat) (j : Job) (q : Seqr) : Nat → List (List (Nat × Nat)) →
    State × Option (Nat × BitVec 8 × W64)
  | _, [] => (s, none)
  | k, p :: ps =>
    match s.saveHole die j q p with
    | some e => (s, some (k, e))
    | none =>
      let i := q.index.toNat
      let s :=
        if k < j.lots then s.loadLot die j i k q.coreNo (q.lots[k]?.getD 0)
        else if k < j.lots + j.tiles then
          s.modTile q.coreNo (q.tiles[k - j.lots]?.getD 0) (fun _ => s.savedTile die j i (k - j.lots) 0)
        else s
      (s.modSeq q.handle (fun q => { q with restoring := some (k + 1) })).restoreFrom die j q (k + 1) ps

/-- The last of a restore: the registers, ports and walks of the image, the tiles' descriptors, the tags (R255). A tile of a
sequencer that was never placed is reset, whatever a catalogue write has put into its descriptor word (DESIGN CHOICE, log
entry 77). -/
def State.finishRestore (s : State) (h : BitVec 24) (j : Job) : State :=
  match s.seqOf h with
  | none => s
  | some q =>
    let die := q.cdie.toNat
    let bad := q.imaged && s.imagePoisoned die j q.index.toNat
    let q' := if q.imaged then s.loadImage die j q else q
    let q' := { q'.reconcile with
      sv := if q.svDue then q.sv else q'.sv, svDue := false
      st := .resident, residentSince := s.freeCtr, resumed := true, imaged := false, preempt := none, target := none
      restoring := none, asks := [], stuck := false, wakeLine := none, wakeDue := false
      wait := match q.wait with
        | some (.sleepUntil c, _) => some (.sleepUntil c, (s.dieAt die).cycle)
        | _ => none }
    let s := (q.tiles.zipIdx).foldl (fun s t =>
      s.modTile q.coreNo t.1 (fun x => if q.imaged then x.setWord (q'.tileWords[t.2]?.getD 0) else Tile.reset)) s
    let s := s.modSeq h (fun _ => q')
    let s := { s with runQueue := s.runQueue.filter (fun x => x ≠ h) }
    let s := s.refreshCrews q.job q.index.toNat
    if bad then { ((s.select h).raiseHeld cPoison 0) with issue := .idle } else s

/-- Goes on with a restore at part k; at a missing part it stops there, with the sequencer queued and its room kept (R254). -/
def State.goRestore (s : State) (q : Seqr) (j : Job) (k : Nat) : State :=
  match s.restoreFrom q.cdie.toNat j q k ((restoreParts j q).drop k) with
  | (s, some (k, e)) => (s.modSeq q.handle (fun q => { q with restoring := some k })).parkSave q q.cdie.toNat e
  | (s, none) => s.finishRestore q.handle j

/-- Restores a queued sequencer on core n (R255): it takes a slot, lots and tiles there; then lots with their bitmaps, tiles,
registers and walks, tags. A restore that stopped goes on from its missing part; one that lacks its first part takes nothing
(R254). -/
def State.restore (s : State) (q : Seqr) (j : Job) (n : Nat) : State :=
  match q.restoring with
  | some k => s.goRestore q j k
  | none =>
    let die := n / 48
    match (restoreParts j q).head?.bind (s.saveHole die j q) with
    | some e => s.parkSave q die e
    | none =>
      match (s.freeSlots n).head? with
      | none => s
      | some slot =>
        let lots := s.pickMany 48 (s.usedLots n) j.lots
        let s := s.drawFree
        let tiles := s.pickMany 8 (s.usedTiles n) j.tiles
        let s := s.drawFree
        let q := { q with
          core := BitVec.ofNat 6 (n % 48), cdie := BitVec.ofNat 2 die, lots := lots, tiles := tiles, restoring := some 0 }
        let s := s.modSeq q.handle (fun _ => q)
        let s := s.modCore n (fun c => { c with slots := c.slots.setIfInBounds slot (some q.handle) })
        s.goRestore q j 0

/-- The core that the schedulers choose: on the die with the most free slots, the lowest-numbered eligible one (R247). -/
def State.chooseCore (s : State) (q : Seqr) : Option Nat :=
  let el := s.eligible q
  let free (d : Nat) : Nat := ((List.range 48).map (fun c =>
    if (s.coreOf (48 * d + c)).ret then 0 else (s.freeSlots (48 * d + c)).length)).foldl (· + ·) 0
  let die := ((List.range 4).filter (fun d => el.any (fun n => n / 48 = d))).foldl (fun (b : Option Nat) d =>
    match b with
    | none => some d
    | some e => if free e < free d then some d else some e) none
  die.bind (fun d => el.find? (fun n => n / 48 = d))

/-- The sequencer may be placed now: queued, of a job that has not ended, with no parked or migrating save area. -/
def State.placeable (s : State) (q : Seqr) : Bool :=
  q.st = .queued && q.depart.isNone && !s.saveParked q.handle && (q.cls ≠ 4 || s.power.mode = 1 || s.power.mode = 2) &&
    (match s.jobOf q.job with
    | some j => j.ended.isNone && !(s.saveMoving 4 j q.index.toNat)
    | none => false)

/-- Restores one sequencer on the core chosen for it; none where it finds no core. -/
def State.placeOne (s : State) (h : BitVec 24) : Option State :=
  match s.seqOf h with
  | none => none
  | some q =>
    match s.jobOf q.job, if q.restoring.isSome then some q.coreNo else s.chooseCore q with
    | some j, some n => if s.placeable q then some (s.restore q j n) else none
    | _, _ => none

/-- The woken gangs of a sequencer that are placed together (R260). -/
def State.wokenGangs (s : State) (q : Seqr) : List Crew :=
  s.crews.filter (fun c => c.woken && !c.gangx && c.handle.toNat / 2 ^ 16 = q.job.toNat && (c.member q.index.toNat).joined)

/-- The sequencers that are placed with a sequencer: itself, or the members of its woken gangs that are not frozen or retired
and hold no slot, in index order; a member that is still leaving its slot keeps the gang from being placed. -/
def State.placedWith (s : State) (q : Seqr) : List (BitVec 24) :=
  let gs := s.wokenGangs q
  if gs.isEmpty then [q.handle]
  else
    (s.allSeqs.filter (fun x =>
      x.handle ≠ 0 && x.job = q.job && x.st ≠ .frozen && x.st ≠ .retired && x.depart ≠ some .freeze
        && (!x.isResident || x.depart.isSome)
        && gs.any (fun c => (c.member x.index.toNat).joined))).map Seqr.handle

/-- Places every sequencer of a list, or none of them. -/
def State.placeAll (s : State) : List (BitVec 24) → Option State
  | [] => some s
  | h :: hs => (s.placeOne h).bind (fun s => s.placeAll hs)

/-- A sequencer's turn: it, and what is placed with it. -/
def State.placeTurn (s : State) (h : BitVec 24) : Option State :=
  match s.seqOf h with
  | none => none
  | some q => (s.placeAll (s.placedWith q)).map (fun t =>
      { t with crews := t.crews.map (fun (c : Crew) => if (s.wokenGangs q).any (fun g => g.handle = c.handle) then { c with woken := false } else c) })

/-- The requests of a woken gang, for all its members at once (R260): each member that finds no core once those before it are
placed makes its request. -/
def State.askGang (s : State) (q : Seqr) : State :=
  ((s.placedWith q).foldl (fun (p : State × State × List (BitVec 24)) h =>
    match p.2.1.placeOne h with
    | some t => (p.1, t, p.2.2)
    | none =>
      let t := p.1.askFor h p.2.2
      (t, p.2.1, ((t.seqOf h).bind Seqr.target).toList ++ p.2.2)) (s, s, [])).1

/-- Requests for every queued sequencer that finds no core (R249), and for the woken gangs (R260). -/
def State.askAll (s : State) : State :=
  s.runQueue.foldl (fun s h =>
    match s.seqOf h with
    | none => s
    | some q => if (s.wokenGangs q).isEmpty then s.askRoom h else if (s.placeTurn h).isSome then s else s.askGang q) s

/-- A taken card is admitted once what it waits for is there (R198, R245). With RESTORE, a number in use is BUSY and
creates nothing (R383). The new sequencers make their requests (R249). -/
def execJobAdmit (src : CardSrc) (s : State) : Out :=
  .next (match s.cardReq src with
  | none => s
  | some c =>
    match c.taken with
    | none => s
    | some ds =>
      match s.jobNumber c, src with
      | none, .submitted n =>
        (match if c.restore then s.submissions.find? (fun x => x.num = n) else none with
        | some x => { s with submissions := s.submissions.filter (fun y => y.num ≠ n) }.reply x.conn 4 x.tag []
        | none => s)
      | none, .launched _ => s
      | some num, _ => if s.admissible c.job ds then (s.admitJob src c ds num).askAll else s)

/-- The queue in service order: class order, then order of entry (R247). -/
def State.serviceOrder (s : State) : List (BitVec 24) :=
  (List.range 5).flatMap (fun c => s.runQueue.filter (fun h => ((s.seqOf h).map (fun q => q.cls.toNat)) = some c))

/-- A queued sequencer is placed: the first in service order that finds a core (R247, R248). Those left without one make
their requests (R249). -/
def execPlace (h : BitVec 24) (s : State) : Out :=
  .next (
    match s.serviceOrder.find? (fun x => (s.placeTurn x).isSome) with
    | none => s
    | some x => if x = h then (match s.placeTurn h with | some t => t.askAll | none => s) else s)

/-! ### Issue among resident contexts (R251) -/

/-- The class and the cyclic distance of a slot from the slot the core issues from. -/
def State.switchKey (s : State) (c : Core) (slot : Nat) : Nat :=
  let cls := (((c.slots[slot]?.getD none).bind s.seqOf).map (fun q => q.cls.toNat)).getD 7
  4 * cls + (slot + 3 - (c.run.getD 3)) % 4

/-- The wake condition of a parked sequencer holds (R257). At a home of another package it does once that home has answered. -/
def State.wakes (s : State) (q : Seqr) : Bool :=
  let w := s.masterOf q
  let there (va : W64) (f : Home → Bool) : Bool :=
    match s.translate w .load va with
    | .error _ => true
    | .ok x =>
      if x.pkg ≠ s.pkg then q.asks.all (fun a => a.reply.isSome)
      else
        match s.homeOf w.die w.sup .load x.via x.addr with
        | .ok h => f h
        | .error _ => true
  let member (crew : W32) (f : Crew → Member → Bool) : Bool :=
    match s.crewOf crew with
    | some c => f c (c.member q.index.toNat)
    | none => true
  match q.wait with
  | some (.emptyLine va, _) | some (.consume va, _) => there va (fun h => s.feFull h.fe)
  | some (.syncWord va gen, _) => there va (fun h => genPassed (BitVec.ofNat 32 (s.readLE (h.place + 8) 4)) gen)
  | some (.phaserBound c, _) => member c (fun c m => decide (Machine.serial m.sp c.p < 2))
  | some (.phaserPhase c, _) => member c (fun c m => decide (0 < Machine.serial c.p m.wp))
  | some (.fillPort p, _) =>
    (match q.wakeLine with
    | some va => there va (fun h => s.feFull h.fe)
    | none =>
      match (q.port p).walk with
      | some k => (match s.walkRead w k 256 with | .wait _ => false | _ => true)
      | none => true)
  | some (.sleepUntil _, _) => decide (q.wakeAt.toNat ≤ s.ptime.toNat)
  | _ => true

/-- The wait of a resident sequencer has ended, although its group has not been issued again. -/
def State.waitOver (s : State) (q : Seqr) : Bool :=
  match q.wait with
  | some (.sleepUntil c, _) =>
    if q.wakeAt = 0 then decide (c ≤ (s.dieAt q.cdie.toNat).cycle) else decide (q.wakeAt.toNat ≤ s.ptime.toNat)
  | _ => s.wakes q

/-- A resident context can issue its next group (R251): tried at the end of the last step, it did not wait. -/
def Seqr.canIssue (q : Seqr) : Bool := !q.stuck

/-- A core selects another resident context that can issue (R251): when it runs none, its running context leaves its slot, or
that has issued no group for eight cycles. -/
def execContextSwitch (core slot : Nat) (s : State) : Out :=
  .next (
    let c := s.coreOf core
    let now := (s.dieAt (core / 48)).cycle
    let holder (i : Nat) : Option Seqr := ((c.slots[i]?.getD none).bind s.seqOf)
    let runner : Option Seqr := (c.run.bind holder).bind (fun q => if q.st = .running && q.depart.isNone then some q else none)
    let idle := match runner with
      | none => true
      | some _ => decide (c.lastIssue + 8 < now)
    let ready (i : Nat) : Bool := match holder i with
      | some x => x.st = .resident && x.depart.isNone && x.canIssue
      | none => false
    let better := (List.range 4).any (fun i => i ≠ slot && ready i && decide (s.switchKey c i < s.switchKey c slot))
    match holder slot with
    | none => s
    | some q =>
      if !ready slot || !idle || better then s
      else
        let s := match runner with
          | some x => s.modSeq x.handle (fun (x : Seqr) => { x with st := SeqState.resident })
          | none => s
        (s.modSeq q.handle (fun (q : Seqr) => { q with st := SeqState.running })).modCore core (fun c =>
          { c with run := some slot, lastIssue := now, switches := c.switches + 1 }))

/-- A requested sequencer has reached no point within LONGITER: its job's deadline counter is set to zero (R258). -/
def execLongiterExpiry (h : BitVec 24) (s : State) : Out :=
  .next (match s.seqOf h with
  | none => s
  | some q =>
    match s.jobOf q.job, q.preempt with
    | some j, some r =>
      if j.longiter ≠ 0 && q.isResident && q.depart.isNone && decide (r + j.longiter ≤ (s.dieAt q.cdie.toNat).cycle) then
        s.modJob q.job (fun j => { j with deadline := 0 })
      else s
    | _, _ => s)

/-! ### Parking (R256, R260) -/

/-- A sleep of at least cr.park parks at once (R223, R256), and so does a wait that can park in a parking gang (R260), but not in
a group that has had an effect elsewhere (R252). -/
def Seqr.parksAtOnce (q : Seqr) (w : Wait) : Bool := !q.midGroup &&
  match w with
  | .sleepUntil c =>
    q.gangPark || (match q.wait with
      | some (_, since) => q.parkLimit ≠ 0 && q.wakeAt = 0 && decide (q.parkLimit.toNat ≤ c - since)
      | none => false)
  | w => q.gangPark && w.parkable

/-- A context parks on its wait: a sleeper's remaining cycles are counted as package time (R223), and a pop of an empty port
registers at the line its walk is stalled on (R257). -/
def State.parked1 (s : State) (q : Seqr) : Seqr :=
  let wake := match q.wait with
    | some (.sleepUntil c, _) =>
      if q.wakeAt = 0 then s.ptime + BitVec.ofNat 64 ((5 * (c - (s.dieAt q.cdie.toNat).cycle) + 5) / 6) else q.wakeAt
    | _ => q.wakeAt
  let line := match q.wait with
    | some (.fillPort p, _) =>
      ((q.port p).walk).bind (fun k => match s.walkRead (s.masterOf q) k 256 with | .wait va => some va | _ => none)
    | _ => none
  { q with depart := some .park, preempt := none, gangPark := false, wakeAt := wake, wakeLine := line
           wakeDue := false }

/-- The gang crews of a sequencer that park together. -/
def State.gangsOf (s : State) (q : Seqr) : List Crew :=
  s.crews.filter (fun c => c.gang && !c.gangx && c.handle.toNat / 2 ^ 16 = q.job.toNat && (c.member q.index.toNat).joined)

/-- A gang parks with a member: its other residents park at their next point, or now where they wait (R260). -/
def State.parkGang (s : State) (q : Seqr) (c : Crew) : State :=
  let s := s.mapSeqs (fun x =>
    if x.handle ≠ q.handle && x.job = q.job && (x.st = .resident || x.st = .running) && x.depart.isNone
        && (c.member x.index.toNat).joined then
      (if !x.midGroup && (match x.wait with | some (w, _) => w.parkable | none => false) then s.parked1 x else { x with gangPark := true })
    else x)
  s.putCrew { c with gpark := true, woken := false, parker := if c.gpark then c.parker else q.index }

/-- A sequencer parks, and its gangs with it; one that parks for its gang leaves its other gangs as they are (R260). -/
def State.parkSeq (s : State) (q : Seqr) : State :=
  (if q.gangPark then [] else s.gangsOf q).foldl (fun s c => s.parkGang q c) (s.modSeq q.handle (fun q => s.parked1 q))

/-- The master that a deadline record of a die names (Table 14.6): the job's first sequencer there, else its first one (DESIGN
CHOICE, log entry 68). -/
def State.deadlineMaster (s : State) (num : BitVec 16) (d : Nat) : W32 :=
  let mine := s.allSeqs.filter (fun q => q.job = num && q.handle ≠ 0 && q.st ≠ .retired)
  let low (l : List Seqr) : Option Seqr := l.foldl (fun (b : Option Seqr) q =>
    match b with
    | none => some q
    | some x => if q.index.toNat < x.index.toNat then some q else b) none
  match low (mine.filter (fun q => (q.isResident || q.imaged) && q.cdie.toNat = d)), low mine with
  | some q, _ => q.handle.zeroExtend 32
  | none, some q => q.handle.zeroExtend 32
  | none, none => 0

/-- An overrun job ends once its residents are saved: its records are posted, and its completion record says END 1 (R265). -/
def State.endOverrun (s : State) (num : BitVec 16) : State :=
  match s.jobOf num with
  | none => s
  | some j =>
    if !j.overrun || j.ended.isSome || (s.allSeqs.filter (fun q => q.job = num && q.handle ≠ 0)).any Seqr.isResident then s
    else
      (j.dies.foldl (fun s d => s.post d (mkRec 8 cDeadline (s.deadlineMaster num d) num 0 0)) s).endJob num 1

/-- A departing context is saved, once the matrix commands and the copy traffic it owes are done (R252, R253). A migrating
frame holds the save back (R337). -/
def execContextSave (h : BitVec 24) (s : State) : Out :=
  .next (match s.seqOf h with
  | none => s
  | some q =>
    match s.jobOf q.job with
    | none => s
    | some j =>
      if q.depart.isNone || q.midGroup || s.late.any (fun l => l.handle = h) || s.matrixOwes q || s.landings.any (fun l => l.handle = h) || s.saveParked h
          || s.saveMoving q.cdie.toNat j q.index.toNat then s
      else ((s.saveContext q).endOverrun q.job).askAll)

/-! ### Waking (R223, R257, R260) -/

/-- A wait that can park has lasted longer than cr.park (R256): the count runs while the wait does. -/
def execPark (h : BitVec 24) (s : State) : Out :=
  .next (match s.seqOf h with
  | none => s
  | some q =>
    match q.wait with
    | none => s
    | some (w, since) =>
      if !q.sup && (q.st = .resident || q.st = .running) && q.depart.isNone && w.parkable && !q.midGroup && q.parkLimit ≠ 0
          && decide (since + q.parkLimit.toNat < (s.dieAt q.cdie.toNat).cycle) && !s.waitOver q then
        s.parkSeq q
      else s)

/-- A parked sequencer whose gang is parked is woken with the gang (R260). -/
def State.wokenAlone (s : State) (q : Seqr) : Bool :=
  q.st = .parked && q.depart.isNone && !(s.gangsOf q).any (fun c => c.gpark)

/-- A wake condition holds: the sequencer is re-queued at the tail of its class (R257). -/
def execWake (h : BitVec 24) (s : State) : Out :=
  .next (match s.seqOf h with
  | none => s
  | some q => if s.wokenAlone q && (q.wakeDue || s.wakes q) then s.requeue h else s)

/-- The wake registrations whose condition holds fire, whatever happens to the line or word afterwards (R257). -/
def State.latchWakes (s : State) : State :=
  s.mapSeqs (fun q => if q.handle ≠ 0 && (q.st = .parked || q.depart = some .park) && !q.wakeDue && s.wakes q then { q with wakeDue := true } else q)

/-- A sleep time passes: the parked sleeper is re-queued (R223). -/
def execSleepExpiry (h : BitVec 24) (s : State) : Out :=
  .next (match s.seqOf h with
  | none => s
  | some q =>
    match q.wait with
    | some (.sleepUntil _, _) => if s.wokenAlone q && decide (q.wakeAt.toNat ≤ s.ptime.toNat) then s.requeue h else s
    | _ => s)

/-- A parked gang is woken once PARKER's wake condition holds, or PARKER is parked no more: its members re-enter the queue
together, in index order (R260). -/
def execGangWake (crew : W32) (s : State) : Out :=
  .next (match s.crewOf crew with
  | none => s
  | some c =>
    let members := s.allSeqs.filter (fun q =>
      q.handle ≠ 0 && q.job.toNat = crew.toNat / 2 ^ 16 && (c.member q.index.toNat).joined)
    let due := match members.find? (fun q => q.index = c.parker) with
      | some q => if q.depart = some .park then false else q.st ≠ .parked || q.wakeDue || s.wakes q
      | none => true
    if !c.gpark || !due then s
    else
      let s := s.putCrew { c with gpark := false, woken := true }
      let idx := (List.range 65536).filter (fun i => decide (i < ((s.jobOf (BitVec.ofNat 16 (crew.toNat / 2 ^ 16))).map Job.nseq).getD 0))
      let order := idx.filterMap (fun i => members.find? (fun q => q.index.toNat = i))
      let s := order.foldl (fun s q =>
        if q.depart = some .park then s.modSeq q.handle (fun q => { q with depart := some .requeue })
        else if q.st = .parked then s.enqueue q.handle
        else s.modSeq q.handle (fun q => { q with gangPark := false })) s
      s.askAll)

/-! ### Deadlines, retirement of cores, the end of a job (R250, R265, R266, R326) -/

/-- The cause that a deadline writes (R265). -/
def deadlineTrap : Trap := { code := cDeadline, slot := 7, whole := false, word := 0, bad := 0 }

/-- The trap state that a deadline leaves in a resident context (R265), whose image, if it was being saved, is written again. -/
def Seqr.deadlined (q : Seqr) : Seqr :=
  { (if q.midGroup then q else q.noWait) with
    depart := some .freeze, preempt := none, gangPark := false, savedParts := 0
    cause := deadlineTrap.causeWord, epc := q.pc, badaddr := 0 }

/-- Freezes a sequencer of an overrunning job (R250, R265). -/
def State.deadlineSeq (s : State) (q : Seqr) : State :=
  match q.st with
  | .resident | .running => (if q.midGroup then s else s.leaveWaits q).modSeq q.handle Seqr.deadlined
  | .parked | .queued => s.freezeSeq q.handle
  | .frozen | .retired => s

/-- The copy channels that walk a job's records freeze, and the collective channels of its grant, set or not (R265). -/
def State.freezeChannels (s : State) (j : Job) : State :=
  let s := { s with
    channels := s.channels.map (fun c =>
      (c.1, if c.2.job = j.num && (c.2.state = 1 || c.2.state = 2) then { c.2 with state := 4, stopping := none } else c.2)) }
  (List.range (fieldOf (j.word 13) 12 12)).foldl (fun s i =>
    let ch := fieldOf (j.word 13) 0 12 + i
    if (s.coll ch).job = j.num then s.modColl ch (fun x => { x with frozen := true }) else s) s

/-- A job's deadline counter has reached zero: the job is frozen, and ends once its residents are saved (R265). -/
def execDeadlineOverrun (num : BitVec 16) (s : State) : Out :=
  .next (match s.jobOf num with
  | none => s
  | some j =>
    if j.deadline ≠ 0 || j.ended.isSome || j.overrun then s
    else
      let s := (s.allSeqs.filter (fun q => q.job = num && q.handle ≠ 0)).foldl (fun s q => s.deadlineSeq q) s
      let s := (((s.stopJobMatrix num).freezeChannels j).leaveFeet num).withdrawJob num
      (s.modJob num (fun x => { x with overrun := true })).endOverrun num)

/-- RET of a core is written (R266): its residents are asked to leave, or the core returns to the pool. -/
def execCoreRetire (core : Nat) (ret : Bool) (s : State) : Out :=
  .next (
    let s := s.modCore core (fun c => { c with ret := ret })
    let s := s.jobs.foldl (fun s j => s.regang j.num) s
    (if ret then (s.onCore core).foldl (fun s q => s.request q.handle) s else s).askAll)

/-- System software ends a job (R198, R250): its queued, parked and frozen sequencers are retired and what it holds is freed.
A job with a resident sequencer is not ended so: system software freezes it first. -/
def execJobEndBySystemSoftware (num : BitVec 16) (s : State) : Out :=
  .next (match s.jobOf num with
  | none => s
  | some j =>
    let mine (q : Seqr) : Bool := q.job = num && q.handle ≠ 0
    if (s.allSeqs.filter mine).any Seqr.isResident then s
    else
      let hs := (s.allSeqs.filter mine).map Seqr.handle
      let s := hs.foldl (fun s h => s.undoRestore h) (s.withdrawJob num)
      let s := s.mapSeqs (fun q => if mine q then { q.noWait with st := .retired, tags := Vector.replicate 16 none } else q)
      let s := { s with runQueue := s.runQueue.filter (fun h => !hs.contains h) }
      if j.ended.isSome then s.releaseJob num
      else (s.modJob num (fun j => { j with left := 0 })).endJob num 2)

end Sys2Proof.Machine
end

