-- ==== Sys2Proof/Machine/Freeze.lean ====
section
/-!
DEFINITION. `freeze` and `thaw` of a master (spec/08_sync_collective_system.md R222, spec/14_translation_faults_errors.md
R343).
-/

namespace Sys2Proof.Machine

/-- A master that `freeze` and `thaw` name (R222). -/
inductive Master where
  | seq (h : BitVec 24)
  | channel (die ch : Nat)
  | coll (ch : Nat)
  | port (p : Nat)
  | conn (c : Nat)
  deriving DecidableEq, Repr

/-- The master a word names: its kind in [31:28], its identity below with unused bits zero; an absent one is none. -/
def State.masterNamed (s : State) (m : W32) : Option Master :=
  let x := m.toNat % 2 ^ 28
  match m.toNat / 2 ^ 28 with
  | 0 =>
    if x < 2 ^ 24 then
      match s.seqOf (BitVec.ofNat 24 x) with
      | some q => if q.st = .retired then none else some (.seq q.handle)
      | none => none
    else none
  | 1 => if x < 2 ^ 26 && x % 2 ^ 24 < 128 then some (.channel (x / 2 ^ 24) (x % 128)) else none
  | 2 => if x < 4096 then some (.coll x) else none
  | 3 => if x < 68 then some (.port x) else none
  | 4 => if x < 64 && (s.conn x).isOpen then some (.conn x) else none
  | _ => none

/-- A channel stops after the element in progress; what it has sent goes on (R222, R231), and a fault that was about to stop it
recurs when it is thawed (R289). -/
def State.freezeChannel (s : State) (die ch : Nat) : State :=
  s.modChan die ch (fun c => { c with state := 4, fkind := 0, stopping := none })

/-- Freezes a master: a frozen one stays as it is. -/
def State.freezeMaster (s : State) : Master → State
  | .seq h => s.freezeSeq h
  | .channel d c => if (s.chan d c).state = 4 then s else s.freezeChannel d c
  | .coll c => s.modColl c (fun x => { x with frozen := true })
  | .port p => s.modPort p (fun x => { x with frozen := true })
  | .conn c => s.modConn c (fun x => { x with frozen := true })

/-- The job of a master has ended (R222, R265). -/
def State.masterEnded (s : State) (m : Master) : Bool :=
  let ended (j : BitVec 16) : Bool := j ≠ 0 && ((s.jobs.any (fun x => x.num = j && x.ended.isSome) && !s.jobLive j)
    || (s.jobOf j).any Job.overrun)
  match m with
  | .seq h => (s.seqOf h).any (fun q => ended q.job)
  | .channel d c => ended (s.chan d c).job
  | .coll c => ended (s.coll c).job
  | _ => false

/-- Thaws a frozen master; one that is not frozen stays as it is. -/
def State.thawMaster (s : State) : Master → State
  | .seq h => s.thawSeq h
  | .channel d c => if (s.chan d c).state = 4 then s.resumeChannel d c else s
  | .coll c => if (s.coll c).frozen then s.thawColl c else s
  | .port p => (s.modPort p (fun x => { x with frozen := false })).relandMembers p
  | .conn c => s.modConn c (fun x => { x with frozen := false })

/-- `freeze` (R222). -/
def execFreeze (a : BitVec 5) (s : State) : Out :=
  .next (s.supOnly (fun s => s.hold (s.rg a).taint (fun s =>
    match s.masterNamed (s.rg a).val with
    | some m => s.freezeMaster m
    | none => s.roerrUp)))

/-- `thaw`: a master of an ended job stays frozen and cr.roerr counts (R222). -/
def execThaw (a : BitVec 5) (s : State) : Out :=
  .next (s.supOnly (fun s => s.hold (s.rg a).taint (fun s =>
    match s.masterNamed (s.rg a).val with
    | some m => if s.masterEnded m then s.roerrUp else s.thawMaster m
    | none => s.roerrUp)))

end Sys2Proof.Machine
end

