-- ==== Sys2Proof/Machine/Links.lean ====
section
/-!
DEFINITION. Circuits, package time, links and routes (spec/13_package_and_fabric.md R302 to R314, and the sharing of ports,
spec/12_copy_and_collective_engines.md R301), and the arrival of stores at their homes (spec/05_memory_instructions.md R125,
R126, spec/07_engine_instructions.md R185).
-/

namespace Sys2Proof.Machine

/-! ### Flits (Table 13.3, R305) -/

/-- One step of CRC-32 in its reflected form: polynomial 0x04C1_1DB7 reflected is 0xEDB8_8320 (R305). -/
def crcShift : Nat → W32 → W32
  | 0, c => c
  | n + 1, c => crcShift n (if c.getLsbD 0 then (c >>> 1) ^^^ 0xEDB88320 else c >>> 1)

/-- CRC-32 of a list of bytes (R305). -/
def crc32 (bs : List Byte) : W32 :=
  ~~~(bs.foldl (fun c b => crcShift 8 (c ^^^ b.zeroExtend 32)) (0xFFFFFFFF : W32))

/-- Bytes 0 to 59 of a flit. -/
def flitBytes (f : Flit) : List Byte :=
  leBytes (f.seq.toNat + 2 ^ 12 * f.ack.toNat + 2 ^ 24 * f.vc.toNat + 2 ^ 27 * f.kind.toNat + 2 ^ 30 * f.rsvd.toNat) 4
    ++ leBytes f.payload.toNat 56

/-- A flit passes its check: the CRC holds and the reserved bits are zero. -/
def flitOk (f : Flit) : Bool := f.rsvd = 0 && f.crc = crc32 (flitBytes f)

/-- A flit of a port with its ACK and its CRC. -/
def Port.flit (p : Port) (seq : BitVec 12) (vc kind : BitVec 3) (payload : BitVec 448) : Flit :=
  let f : Flit := { seq := seq, ack := p.expect - 1, vc := vc, kind := kind, rsvd := 0, payload := payload, crc := 0 }
  { f with crc := crc32 (flitBytes f) }

/-! ### Sending (R301, R306, R309) -/

/-- The depth of a virtual channel's receive buffer (R309). -/
def portDepth (port : Nat) : Nat := if port < 64 then 256 else 128

/-- The port may send a new data flit on a virtual channel (R306, R309). -/
def Port.maySend (p : Port) (depth : Nat) (vc : BitVec 3) : Bool :=
  decide (p.retry.length < 512)
    && decide (((p.sent[vc.toNat]?.getD 0) - (p.freedp[vc.toNat]?.getD 0)).toNat < depth)

/-- The class of a virtual channel for the sharing of a port: 0 bypasses it, 1 collective, 2 program-issued (R301, R308). -/
def vcClass (vc : BitVec 3) : Nat := if vc = 6 then 0 else if vc = 7 then 1 else 2

/-- The oldest waiting flit of a class that may be sent: its place in the queue. -/
def Port.ready (p : Port) (depth cls : Nat) : Option Nat :=
  p.outq.findIdx? (fun x => vcClass x.2.1 = cls && p.maySend depth x.2.1)

/-- Sends the waiting flit at a place of the queue for the first time. -/
def Port.sendAt (p : Port) (i : Nat) : Port × List Flit :=
  match p.outq[i]? with
  | none => (p, [])
  | some (_, vc, x) =>
    let f := p.flit p.nextSeq vc 1 x
    ({ p with
        outq := p.outq.eraseIdx i
        retry := p.retry ++ [f]
        nextSeq := p.nextSeq + 1
        txflits := p.txflits + 1
        sent := p.sent.setIfInBounds vc.toNat ((p.sent[vc.toNat]?.getD 0) + 1) }, [f])

/-- Sends what may be sent: acknowledgments first, then the two classes by deficit round robin with the weights of cl.arb,
flit by flit when both are 0 (R301). -/
def Port.sendAll (depth wc wp : Nat) : Nat → Port → Port × List Flit
  | 0, p => (p, [])
  | n + 1, p =>
    let go (x : Port × List Flit) : Port × List Flit :=
      let y := Port.sendAll depth wc wp n x.1
      (y.1, x.2 ++ y.2)
    match p.ready depth 0, p.ready depth 1, p.ready depth 2 with
    | some i, _, _ => go (p.sendAt i)
    | none, none, none => (p, [])
    | none, some i, none => go (p.sendAt i)
    | none, none, some i => go (p.sendAt i)
    | none, some i, some j =>
      let (dc, dp) := p.deficit
      if 0 < dc then go ({ p with deficit := (dc - 1, dp) }.sendAt i)
      else if 0 < dp then go ({ p with deficit := (dc, dp - 1) }.sendAt j)
      else
        let earn : Nat × Nat := if wc = 0 && wp = 0 then (1, 1) else (wc, wp)
        if 0 < earn.1 then go ({ p with deficit := (earn.1 - 1, earn.2) }.sendAt i)
        else go ({ p with deficit := (0, earn.2 - 1) }.sendAt j)

/-- A port that is up sends its waiting flits. -/
def State.sendReady (s : State) (port : Nat) : State :=
  let p := s.port port
  if p.state ≠ 2 || p.frozen || p.outq.isEmpty then s
  else
    let (q, fs) := p.sendAll (portDepth port) s.wcoll.toNat s.wprog.toNat p.outq.length
    let s := s.modPort port (fun _ => q)
    { s with egress := s.egress ++ fs.map (fun f => Packet.flit port f) }

/-! ### Routes (R311 to R313) -/

/-- The block of a package (R311). -/
def blockOf (pkg : BitVec 15) : Nat := if Config.flatDomain then 0 else pkg.toNat / 33

/-- The ports over which a minimal route to another package begins (R312). -/
def State.routePorts (s : State) (z : BitVec 15) : List Nat :=
  let up := (List.range 64).filter (fun p => (s.port p).state = 2)
  if blockOf z = blockOf s.pkg then up.filter (fun p => (s.port p).islocal && (s.port p).peerpkg = z)
  else
    match up.filter (fun p => !(s.port p).islocal && blockOf (s.port p).peerpkg = blockOf z) with
    | [] => up.filter (fun p => (s.port p).islocal &&
        (tget 0 (s.port p).reach (blockOf z / 64)).getLsbD (blockOf z % 64))
    | ps => ps

/-- Where a packet goes: another package, a given port, or neither. -/
inductive Toward where
  | pkg (z : BitVec 15)
  | port (p : Nat)
  | none
  deriving DecidableEq, Repr

/-- Where a packet goes. -/
def State.toward (s : State) : Packet → Toward
  | .read z _ _ _ _ _ _ _ _ _ => .pkg z
  | .store z _ _ _ _ _ _ _ _ _ _ _ => .pkg z
  | .readReply z _ _ _ => .pkg z
  | .storeAck z _ _ _ _ => .pkg z
  | .heldNotice z _ _ _ => .pkg z
  | .returned z _ _ _ _ => .pkg z
  | .catRead z _ _ _ => .pkg z
  | .recordOwn z _ _ _ _ _ => .pkg z
  | .copyUnit z _ _ _ _ _ => .pkg z
  | .syncAdd z _ _ _ _ => .pkg z
  | .transit z _ _ => .pkg z
  | .rootAck z _ _ _ => .pkg z
  | .treeReturned z _ => .pkg z
  | .message z _ => .pkg z
  | .messageAck z _ _ _ => .pkg z
  | .credit z _ _ => .pkg z
  | .multicast p m => if p = 127 then .pkg (s.group m.group.toNat).root else .port p
  | .multicastAck p _ _ _ => .port p
  | .branchReturned p _ _ _ => .port p
  | .sessionValue p _ _ => .port p
  | .sessionMark p _ _ _ _ _ => .port p
  | .roundend p _ _ _ => .port p
  | .closeSlots p _ _ _ => .port p
  | .reopenSlots p _ _ _ => .port p
  | .toDie d _ _ => .port (64 + d)
  | .flit _ _ => .none
  | .totals _ _ _ _ => .none
  | .timing _ _ _ => .none
  | .host _ => .none

/-- The virtual channel of a packet's flits on the next link (R308): a request's is the number of links it has crossed. -/
def Packet.vc : Packet → BitVec 3
  | .readReply _ _ _ _ => 6
  | .storeAck _ _ _ _ _ => 6
  | .heldNotice _ _ _ _ => 6
  | .returned _ _ _ _ _ => 6
  | .messageAck _ _ _ _ => 6
  | .credit _ _ _ => 6
  | .multicastAck _ _ _ _ => 6
  | .rootAck _ _ _ _ => 6
  | .treeReturned _ _ => 6
  | .transit _ vc _ => vc
  | .toDie _ vc _ => vc
  | .branchReturned _ _ _ _ => 6
  | .message _ _ => 7
  | .sessionValue _ _ _ => 7
  | .sessionMark _ _ _ _ _ _ => 7
  | .roundend _ _ _ _ => 7
  | .closeSlots _ _ _ _ => 7
  | .reopenSlots _ _ _ _ => 7
  | .multicast _ m => if m.msg.isSome || m.copy then 7 else BitVec.ofNat 3 (Nat.min 5 (m.hops - 1))
  | _ => 0

/-- The flits of a packet: a header flit followed by data flits of 56 bytes (R305). -/
def State.flitsOf (s : State) (p : Packet) : List (Packet × BitVec 3 × BitVec 448) :=
  match p with
  | .transit _ vc x => [(p, vc, x)]
  | .toDie _ vc x => [(p, vc, x)]
  | _ => (List.range (packetFlits p)).map (fun i => (p, p.vc, Config.flitPayload s.freeCtr i))

/-- A packet that may travel by a relay (R313): stream-0 stores, accumulating stores and `xrmw`, copy landing units, drain and
`zst` landings, and completion records. -/
def Packet.mayRelay : Packet → Bool
  | .store _ _ _ _ stream _ _ _ _ _ _ _ => stream = 0
  | .copyUnit _ _ _ _ _ _ => true
  | _ => false

/-- Queues a packet's flits on its port; one without a route waits (R314). Where several ports qualify, and whether a packet
that may relay goes to an intermediate package first, is the device's choice (R312, R313, log entry 6). -/
def State.routePacket (s : State) (p : Packet) : State :=
  let queue (s : State) (port : Nat) : State :=
    let fl := s.flitsOf p
    (s.modPort port (fun x => { x with outq := x.outq ++ fl })).drawFree
  match s.toward p with
  | .none => s
  | .port k => if k < 68 then queue s k else s
  | .pkg z =>
    let minimal := s.routePorts z
    let relay := if p.mayRelay && (minimal.isEmpty || Config.freeNat (s.freeCtr + 1) % 2 = 1) then
      (List.range 64).filter (fun k => (s.port k).state = 2) else []
    let ps := if relay.isEmpty then minimal else relay
    if z = s.pkg then s
    else if ps.isEmpty then { s with unrouted := s.unrouted ++ [p] }
    else queue s (ps[Config.freeNat s.freeCtr % ps.length]?.getD 0)

/-- The home die of a request of another package, as this package translates it. -/
def State.homeDie (s : State) (r : ExtRequest) : Nat :=
  match r.effects with
  | [] => 4
  | e :: _ => match s.homeOf 4 r.sup .store r.via (effAddr e) with | .ok h => dieOf h.place | .error _ => 4

/-- A request arrives; one of another package goes on to its home die over that die's port, one virtual channel higher, and waits
while the port passes nothing (R302, R305, R308, R312). -/
def State.arriveVia (s : State) : ArriveSrc → State
  | .curb d n i => s.arrive (.curb d n i)
  | .outside r =>
    if (s.port r.port).frozen then s
    else
      s.viaDie (s.homeDie r) (if r.vc.toNat < 5 then r.vc + 1 else r.vc) (1 + (r.effects.length + 55) / 56)
        (fun s => s.arrive (.outside r))

/-- A store, an accumulating store or a mark reaches its destination (R125, R126, R341). -/
def execStoreArrive (src : ArriveSrc) (s : State) : Out :=
  .next (if (s.effectsOf src).any isRmw then s else s.arriveVia src)

/-- An `xrmw` is applied at its home, and its return word lands (R185). -/
def execXrmwApply (src : ArriveSrc) (s : State) : Out :=
  .next (if (s.effectsOf src).any isRmw then s.arriveVia src else s)


/-- Packets that wait at a port that is not UP find another route (R314). Tree traffic waits at a port that trains; of a port that
has left service, the branches of tree packets are returned and session packets discarded and counted (R316, R320). -/
def State.reroute (s : State) (port : Nat) : State :=
  let p := s.port port
  let trains := p.state = 1 || p.state = 3
  let moves (x : Packet) : Bool :=
    match s.toward x with
    | .pkg _ => true
    | _ => (match x with | .multicast _ _ => !trains | _ => false)
  let s := s.modPort port (fun x => { x with outq := x.outq.filter (fun e => !moves e.1) })
  let s := if trains then s else s.dropSessions port none
  ((waitingPackets p.outq).filter moves).foldl (fun s x =>
    match x with
    | .multicast k m =>
      if k = 127 then s.routePacket x
      else
        (match (s.group m.group.toNat).flight.find? (fun f => f.id = m.key) with
        | some f => s.parkBranch m.group.toNat f port cRmtFault 0
        | none => s)
    | _ => s.routePacket x) s

/-- What the package has sent since its egress held n packets is given to the links, and ports send. -/
def State.transmit (s : State) (n : Nat) : State :=
  let fresh := s.egress.drop n
  let again := s.unrouted
  if fresh.isEmpty && again.isEmpty then s
  else
    let s := (again ++ fresh).foldl State.routePacket { s with unrouted := [] }
    (List.range 68).foldl State.sendReady s

/-! ### Receiving and replay (R306, R307) -/

/-- An ACK covers the retry buffer's flits up to a number. -/
def Port.ack (p : Port) (a : BitVec 12) : Port :=
  { p with retry := p.retry.filter (fun f => decide (2048 ≤ (a - f.seq).toNat)) }

/-- Every flit of the retry buffer from a number on is sent again. -/
def State.resendFrom (s : State) (port : Nat) (e : BitVec 12) : State :=
  let fs := (s.port port).retry.filter (fun f => decide ((f.seq - e).toNat < 2048))
  let s := s.modPort port (fun p => { p with txflits := p.txflits + BitVec.ofNat 64 fs.length })
  { s with egress := s.egress ++ fs.map (fun f => Packet.flit port f) }

/-- A replay event: the restart is counted (R306, R307). -/
def State.replay (s : State) (port : Nat) (e : BitVec 12) : State :=
  (s.modPort port (fun p => { p with repl := p.repl + 1 })).resendFrom port e

/-- A NAK goes out once, until the expected flit arrives. -/
def State.nak (s : State) (port : Nat) : State :=
  let p := s.port port
  if p.nakSent then s
  else
    let f := p.flit 0 0 2 0
    let f := { f with ack := p.expect }
    (s.modPort port (fun p => { p with nakSent := true })).emit (.flit port { f with crc := crc32 (flitBytes f) })

/-- An idle flit that carries the port's ACK leaves (R306). -/
def State.sendAck (s : State) (port : Nat) : State := s.emit (.flit port ((s.port port).flit 0 0 0 0))

/-- A flit accepted over an external port that belongs to a packet for another package goes on, a request one virtual channel
higher (R308, R312, R313). -/
def State.passOn (s : State) (port : Nat) (f : Flit) : State :=
  match if port < 64 then Config.flitTransit s.freeCtr else none with
  | none => s
  | some z => s.routePacket (.transit z (if f.vc.toNat < 5 then f.vc + 1 else f.vc) f.payload)

/-- A port receives a flit (R305, R306): a failed check is counted and answered with a NAK; every good flit's ACK is taken; a
data flit is accepted in order and acknowledged, NAKed when it lies ahead, acknowledged again when it lies behind; a NAK
replays; kinds 5 to 7 are discarded. What totals and timing flits carry arrives with events of their own. -/
def execFlitReceive (port : Nat) (f : Flit) (s : State) : Out :=
  .next (
    if (s.port port).state ≠ 2 then s
    else if !flitOk f then (s.modPort port (fun p => { p with crcerr := p.crcerr + 1 })).nak port
    else if f.kind = 0 || f.kind = 3 || f.kind = 4 then (s.modPort port (fun p => p.ack f.ack)).sendReady port
    else if f.kind = 1 then
      let s := s.modPort port (fun p => p.ack f.ack)
      let p := s.port port
      if f.seq = p.expect then
        let v := f.vc.toNat
        (((s.modPort port (fun p =>
          { p with
            expect := p.expect + 1
            rxflits := p.rxflits + 1
            nakSent := false
            freed := p.freed.setIfInBounds v ((p.freed[v]?.getD 0) + 1) })).passOn port f).sendAck port).sendReady port
      else if (p.expect - f.seq).toNat ≤ 2048 then s.sendAck port
      else s.nak port
    else if f.kind = 2 then (s.modPort port (fun p => p.ack (f.ack - 1))).replay port f.ack
    else s)

/-- A NAK for a sequence number reaches the sender (R306). -/
def execNakReceive (port : Nat) (seq : BitVec 12) (s : State) : Out :=
  .next (if (s.port port).state ≠ 2 then s else (s.modPort port (fun p => p.ack (seq - 1))).replay port seq)

/-- The oldest unacknowledged flit has waited 1 µs (R306). -/
def execReplayTimeout (port : Nat) (s : State) : Out :=
  .next (match (s.port port).retry with
  | [] => s
  | f :: _ => if (s.port port).state ≠ 2 || (s.port port).frozen then s else s.replay port f.seq)

/-- A port sends its totals in two flits (R309). -/
def execTotalsSend (port : Nat) (s : State) : Out :=
  .next (
    let p := s.port port
    if p.state ≠ 2 || p.frozen then s
    else
      let t (i : Nat) : W32 × W32 := (p.sent[i]?.getD 0, p.freed[i]?.getD 0)
      let f (i : Nat) : Flit := p.flit 0 0 3 (Config.flitPayload s.freeCtr i)
      (s.emit (.totals port false ((List.range 4).map t) (f 0))).emit
        (.totals port true ((List.range 4).map (fun i => t (i + 4))) (f 1)))

/-- Totals of the far end arrive: its FREED is taken unless it lies behind the last one in serial order (R309). -/
def execTotalsReceive (port : Nat) (high : Bool) (totals : List (W32 × W32)) (s : State) : Out :=
  .next (
    if (s.port port).state ≠ 2 then s
    else
      let base := if high then 4 else 0
      let take (p : Port) (x : (W32 × W32) × Nat) : Port :=
        let v := base + x.2
        if x.2 < 4 && decide (((x.1.2) - (p.freedp[v]?.getD 0)).toNat < 2 ^ 31) then
          { p with freedp := p.freedp.setIfInBounds v x.1.2 }
        else p
      (s.modPort port (fun p => totals.zipIdx.foldl take p)).sendReady port)

/-- A window of 2^20 ticks ends at a port (R307). -/
def execReplayWindowEnd (port : Nat) (s : State) : Out :=
  .next (s.modPort port (fun p => { p with lastrepl := p.repl, repl := 0, posted := false, retrained := false }))

/-- A catalogue key (Table 1.8). -/
def catKey (pkg : BitVec 15) (die cls inst word : Nat) : W64 :=
  BitVec.ofNat 64 (2 ^ 49 * pkg.toNat + 2 ^ 46 * die + 2 ^ 40 * cls + 2 ^ 16 * inst + word)

/-- REPL reaches lk.cethr: one corrected-error record of the window is posted, naming the port (R307, Table 14.6). -/
def execCorrectedErrorPost (port : Nat) (s : State) : Out :=
  .next (
    let p := s.port port
    if p.cethr = 0 || p.posted || decide (p.repl.toNat < p.cethr.toNat) then s
    else (s.modPort port (fun p => { p with posted := true })).post 0
      (mkRec 5 0 0 0 (catKey s.pkg 4 0x15 port 2) (p.repl.zeroExtend 64)))

/-- REPL reaches lk.rtthr: the port retrains, once in a window (R307). -/
def execRetrain (port : Nat) (s : State) : Out :=
  .next (
    let p := s.port port
    if p.state ≠ 2 || p.rtthr = 0 || p.retrained || decide (p.repl.toNat < p.rtthr.toNat) then s
    else (s.modPort port (fun p => { p with state := 3, retrains := p.retrains + 1, failed := 0, retrained := true })).reroute port)

/-- The lowest-numbered package that this one can reach, as its links tell, itself included (R304). -/
def State.lowestRef (s : State) : BitVec 15 :=
  s.timeRefs.foldl (fun b e => if (s.port e.1).state = 2 && e.2.ult b then e.2 else b) s.pkg

/-- The reference after a link has come or gone: a package that follows itself corrects nothing. -/
def State.follow (s : State) : State :=
  let r := s.lowestRef
  { s with timeRef := r, slew := if r = s.pkg then 0 else s.slew }

/-- A timing flit leaves over a port that is up: it names the package followed (R304). -/
def State.sendTiming (s : State) (port : Nat) : State :=
  if (s.port port).state ≠ 2 then s
  else s.emit (.timing port s.timeRef ((s.port port).flit 0 0 4 (Config.flitPayload s.freeCtr 0)))

/-- What a local port's peer reports of the blocks its global links reach (R310). -/
def State.learnReach (s : State) (port : Nat) : State :=
  s.modPort port (fun p => { p with reach :=
    if p.islocal && !Config.flatDomain then (List.range 16).map (fun i => (i, Config.peerReach s.freeCtr i)) else [] })

/-- A port leaves service: its reference no longer counts, and what waits at it finds another route (R304, R314, R316). -/
def State.portLost (s : State) (port : Nat) : State :=
  ({ s with timeRefs := s.timeRefs.filter (fun e => e.1 ≠ port) }.follow).reroute port

/-- Training ends (R307): the port goes on by replay from the number that the far end expects, and what waited for it is
sent; the third failure in a row fails the port. -/
def execTrainingEnd (port : Nat) (ok : Bool) (peerSeq : BitVec 12) (s : State) : Out :=
  .next (
    let p := s.port port
    if !(p.state = 1 || p.state = 3) then s
    else if ok then
      let s := s.modPort port (fun p => { p.ack (peerSeq - 1) with state := 2, failed := 0, nakSent := false })
      let s := (((s.resendFrom port peerSeq).learnReach port).sendTiming port).sendReady port
      let s := (List.range 512).foldl (fun (s : State) n =>
        if (s.session n).parent.toNat = port then s.forwardKept n else s) s
      s.relandMembers port
    else
      let s := s.modPort port (fun p => { p with failed := p.failed + 1, state := if 2 ≤ p.failed then 4 else p.state })
      if (s.port port).state = 4 then s.portLost port else s)

/-- A port loses its link partner (R310). -/
def execLinkDown (port : Nat) (s : State) : Out :=
  .next (
    let st := (s.port port).state
    if st = 1 || st = 2 || st = 3 then (s.modPort port (fun p => { p with state := 0, failed := 0, reach := [] })).portLost port
    else s)

/-- A port in DOWN detects a partner and trains, learning who it is (R310, R311). -/
def execLinkTraining (port : Nat) (peerPkg : BitVec 15) (peerPort : BitVec 6) (s : State) : Out :=
  .next (
    if (s.port port).state ≠ 0 || (s.port port).dis then s
    else ({ s with timeRefs := s.timeRefs.filter (fun e => e.1 ≠ port) }.follow).modPort port (fun p =>
      { p with state := 1, failed := 0, peerpkg := peerPkg, peerport := peerPort, islocal := blockOf peerPkg = blockOf s.pkg }))

/-- A write of DIS (R307, R310): 1 takes the port down and holds it DISABLED, 0 lets it train again. -/
def State.writeDis (s : State) (port : Nat) (dis : Bool) : State :=
  let s := s.modPort port (fun p =>
    if dis then { p with dis := true, state := 5 }
    else if p.dis then { p with dis := false, state := 0, failed := 0 } else p)
  if dis then s.portLost port else s

/-! ### No route (R314) -/

/-- The request in which part i of an entry leaves, as a packet that waits for a route carries it. -/
def State.isRequest (s : State) (e : CurbEntry) (i : Nat) (k : Packet) : Bool :=
  match farRequests s.pkg ((s.partsWith e i (fun p => p.st = .waiting)).filterMap (fun j => e.parts[j]?)) with
  | q :: _ =>
    (match k with
    | .store z _ h _ st sq _ _ _ via _ es => z = q.pkg && h = e.handle && st = e.stream && sq = e.seqno && via = q.via && es = q.effects
    | _ => false)
  | [] => false

/-- One packet of a kind leaves the list of those that wait for a route. -/
def State.unroute (s : State) (f : Packet → Bool) : State := { s with unrouted := s.unrouted.eraseP f }

/-- A branch's packet no longer waits at its port. -/
def State.recallBranch (s : State) (f : McFlight) (port : Nat) : State :=
  s.modPort port (fun x => { x with outq := x.outq.filter (fun e => match e.1 with
    | .multicast k m => !(k = port && m.group = f.packet.group && m.key = f.id)
    | _ => true) })

/-- A branch that cannot be delivered within 100 µs is parked or returned (R314, R316): behind a port that is not UP or that has
returned it, or at a die whose port passes nothing. -/
def State.branchTimeout (s : State) (g id br : Nat) (returned : Bool) : State :=
  match (s.group g).flight.find? (fun f => f.id = id && f.owing.contains br && !f.back.contains br) with
  | none => s
  | some f =>
    if s.parked.any (fun w => w.work = .branch g id br) || s.memberHeld g id (br - 64) && decide (64 ≤ br)
        || !returned && (s.port br).state = 2 && !(decide (64 ≤ br) && (s.port br).frozen) then s
    else (s.recallBranch f br).parkBranch g f br cRmtFault 0

/-- A store's request that has no route is parked with RMT_FAULT, and so are the branches of a multicast store behind ports that
are not UP (R314, R316). `here`: it waits in this package. -/
def State.storeNoRoute (s : State) (die entry part : Nat) (here : Bool) : State :=
  match s.curbEntry die entry with
  | none => s
  | some e =>
    let parkIt (s : State) (is : List Nat) (va : W64) : State :=
      (is.foldl (fun s i => s.modPart die entry i (fun (p : Part) => { p with st := .parked })) s).parkWork die
        (parkRec cRmtFault e.handle e.job e.stream e.seqno s.pkg va 0) (.store die entry part)
    match e.group with
    | none =>
      let is := s.partsWith e part (fun p => p.st = .waiting)
      if e.released.isNone || !is.contains part || s.unrouted.any (s.isRequest e part) ≠ here then s
      else parkIt (s.unroute (s.isRequest e part)) is ((e.parts[part]?).elim 0 Part.va)
    | some g =>
      let key := s.pkg.toNat + 2 ^ 17 * (4096 * die + entry)
      match (s.group g.toNat).flight.find? (fun f => f.id = key && f.src = 127) with
      | some f => f.owing.foldl (fun s br => if br < 64 then s.branchTimeout g.toNat key br false else s) s
      | none =>
        let mine (k : Packet) : Bool := match k with | .multicast k m => k = 127 && m.group = g && m.key = key | _ => false
        if e.released.isSome && (s.group g.toNat).root ≠ s.pkg && s.unrouted.any mine = here then
          (e.parts.zipIdx.take 1).foldl (fun s x => if x.1.st = .waiting then parkIt (s.unroute mine) [x.2] x.1.va else s) s
        else s

/-- A request that was sent on for another package has no route: it is parked here, as a request of that package; so is a part of
a host write (R314). -/
def State.proxyNoRoute (s : State) (n : Nat) : State :=
  let mine (k : Packet) : Bool := match k with
    | .store _ 4 _ _ _ _ _ _ (some (u, _)) _ _ _ => u.ch = 129 && u.unit = n
    | _ => false
  match s.proxies.find? (fun p => p.num = n) with
  | none =>
    (match s.hostFar.find? (fun x => x.1 = n) with
    | none => s
    | some (_, p) => ({ s.unroute mine with hostFar := s.hostFar.filter (fun x => x.1 ≠ n) }).parkHost p cRmtFault 0)
  | some p =>
    ({ s.unroute mine with proxies := s.proxies.filter (fun x => x.num ≠ n) }).parkOutside p.req cRmtFault
      (effAddr (p.req.effects.headD (.mark 0 true))) 4

/-- A copy unit that has no route stops its channel (R288, R314). -/
def State.unitNoRoute (s : State) (die ch u : Nat) (here : Bool) : State :=
  let c := s.chan die ch
  let r : XRec := c.snap
  let mine (k : Packet) : Bool := match k with | .copyUnit _ (some (x, _)) _ _ _ _ => x = (c.unitId die ch u).1 | _ => false
  if !c.claimed || c.hasAck u || s.unrouted.any mine ≠ here then s
  else
    match findUnit c.rows.1 u with
    | none => s
    | some (x, b) => ((s.unroute mine).unsend die ch u).chanStop die ch (3, 1, (r.unitOf x b).dst, cRmtFault)

/-- A load that has no route answers RMT_FAULT (R314). -/
def State.loadNoRoute (s : State) (h : BitVec 24) (tag : Nat) (here : Bool) : State :=
  let mine (k : Packet) : Bool := match k with
    | .read _ _ _ x t _ _ _ _ _ => x = h && t = tag
    | .catRead _ x t _ => x = h && t = tag
    | _ => false
  if s.unrouted.any mine ≠ here then s
  else if 2 ^ 40 ≤ tag then (s.unroute mine).proxyReply (tag - 2 ^ 40) (.fault cRmtFault 0)
  else (s.unroute mine).modSeq h (fun q => q.answered tag (.fault cRmtFault 0))

/-- A tree packet of this package that is no store has no route to its root, or comes back from it: it is parked in die 0's queue
(R314, R316). -/
def State.packetNoRoute (s : State) (p : McPacket) : State :=
  if p.srcPkg ≠ s.pkg || !(p.copy || p.msg.isSome) || s.parked.any (fun w => w.work = .packet p) then s
  else
    (s.unroute (fun k => k = .multicast 127 p)).parkWork 0
      (mkRec 4 cRmtFault (BitVec.ofNat 32 (p.msg.elim 0 (fun m => 2 ^ 29 + m.srcCh.toNat))) p.job 0 (BitVec.ofNat 64 (2 ^ 40 * s.pkg.toNat)))
      (.packet p)

/-- A packet that passes through and has no route returns to its source, which its header names (R314). -/
def State.transitNoRoute (s : State) (z : BitVec 15) : State :=
  match s.unrouted.find? (fun k => match k with | .transit x _ _ => x = z | _ => false) with
  | some (.transit x vc payload) =>
    ((s.unroute (fun k => k = .transit x vc payload)).emit (.transit (BitVec.ofNat 15 (Config.freeNat s.freeCtr)) 6 payload)).drawFree
  | _ => s

/-- A packet has no route, here or (`here` false) at a package on its way that has returned it. -/
def State.noRoute (s : State) (here : Bool) : Unrouted → State
  | .store die entry part => if die = 4 then s.proxyNoRoute entry else s.storeNoRoute die entry part here
  | .load h tag => s.loadNoRoute h tag here
  | .copyUnit die ch u => s.unitNoRoute die ch u here
  | .branch g id port returned => s.branchTimeout g id port returned
  | .packet p => s.packetNoRoute p
  | .transit z => s.transitNoRoute z
  | .elsewhere _ => s

/-- A packet that finds no route within 100 µs returns to its source die: a store is parked with RMT_FAULT, and so is the
part of a multicast store behind its tree's failed ports (R316); a load raises RMT_FAULT; a copy unit stops its channel (R314). -/
def execRouteTimeout (p : Unrouted) (s : State) : Out :=
  .next (match p with
  | .elsewhere p => s.noRoute false p
  | p => s.noRoute true p)

/-! ### Package time and circuits (R302 to R304) -/

/-- A timing flit (R304): the package follows the lowest-numbered package it can reach, itself included; a flit of a link
that does not lead to that package corrects nothing. Time never moves backward, and steps forward once when it lies more
than 1 µs behind. The exchange is answered, for the round trip. -/
def execTimingFlit (port : Nat) (ref : BitVec 15) (refTime : W64) (slew : BitVec 16) (synced : Bool) (s : State) : Out :=
  .next (
    if (s.port port).state ≠ 2 then s
    else
      let s := ({ s with timeRefs := tset port ref s.timeRefs, synced := synced }.follow.learnReach port).sendTiming port
      if s.timeRef = s.pkg || s.timeRef ≠ ref then s
      else
        let lim : BitVec 16 := if slew.toInt < -20000 then BitVec.ofInt 16 (-20000) else if 20000 < slew.toInt then 20000 else slew
        let s := { s with slew := lim }
        if s.ptime.toNat + 1000 < refTime.toNat then { s with ptime := refTime, steps := s.steps + 1 } else s)

/-- The entry of a pair of the connection table. -/
def State.circuit (s : State) (i j : Nat) : Circuit := tget .reset s.circuits (5 * i + j)

/-- A write of WL (R303). -/
def execWlWrite (i j : Nat) (v : Byte) (s : State) : Out :=
  .next (
    let others (f : Nat → Nat × Nat) (skip : Nat) : Nat :=
      (List.range 5).foldl (fun n k => if (f k).1 = (f k).2 || k = skip then n else n + (s.circuit (f k).1 (f k).2).wl.toNat) 0
    if i = j || 4 < i || 4 < j || decide (128 < v.toNat) || decide (128 < v.toNat + others (fun k => (i, k)) j)
        || decide (128 < v.toNat + others (fun k => (k, j)) i) || (v = 0 && (i = 4 || j = 4)) then s.refuse
    else { s with circuits := tset (5 * i + j) { s.circuit i j with wl := v, pend := true } s.circuits })

/-- A wavelength change completes (R303). -/
def execWlChangeDone (i j : Nat) (s : State) : Out :=
  .next (
    let c := s.circuit i j
    if c.pend then { s with circuits := tset (5 * i + j) { c with active := c.wl, pend := false } s.circuits } else s)

end Sys2Proof.Machine
end

