-- ==== Sys2Proof/Machine/Trans.lean ====
section
/-!
DEFINITION. Translation control, migration, the trap queues and what ACT does with parked work
(spec/14_translation_faults_errors.md R333, R336, R337, R339 to R343, R397), and the writes of host connections (R382).
-/

namespace Sys2Proof.Machine

/-! ### Translation control (R333) -/

/-- FLUSH: every cached entry of the die is discarded (R333). -/
def execFlush (die : Nat) (s : State) : Out := .next (if die ≤ 4 then s.modTu die (fun t => { t with cache := [] }) else s)

/-! ### Remote accesses (R336) -/

/-- A window of 2^20 ticks ends: the counts restart (R336). -/
def execRemoteAccessWindowEnd (die : Nat) (s : State) : Out := .next (s.modTu die (fun t => t.inWindow s.ptime))

/-- A granule's count reaches MIGTHR: one candidate record a window, naming the granule and the most recent requester
(R336, Table 14.6). -/
def execMigrationCandidate (die granule : Nat) (s : State) : Out :=
  .next (
    let t := s.tu die
    let (n, pkg, rdie) := tget (0, 0, 0) t.remote granule
    if 4 ≤ die || t.migthr = 0 || decide (n < t.migthr.toNat) || t.posted.contains granule then s
    else (s.modTu die (fun t => { t with posted := granule :: t.posted })).post die
      (mkRec 6 0 0 0 (paOf s.pkg (2 ^ 46 * die + 2 ^ 21 * granule)) (BitVec.ofNat 64 (pkg.toNat + 2 ^ 15 * rdie))))

/-! ### Migration (R337) -/

/-- The number in n bytes at a physical address; what another package holds there is the environment's (log entry 15). -/
def State.physLE (s : State) (pa : W64) (n : Nat) : Nat :=
  if paPkg pa = s.pkg then s.readLE (paLocal pa) n else s.farBytes pa n

/-- Bytes are written at a physical address: here, or by a request to its package. -/
def State.physWrite (s : State) (pa : W64) (bs : List Byte) : State :=
  if paPkg pa = s.pkg then s.writeBytes (atAddrs (paLocal pa) bs)
  else s.emit (.copyUnit (paPkg pa) none .phys (BitVec.allOnes 64) (byteEffects pa bs) [])

/-- The leaf at MIGPTE may be migrated to a frame: a 2 MiB page of HBM with neither WIN nor NM, to an aligned frame of HBM
(R337). -/
def State.migratable (s : State) (pte frame : W64) : Bool :=
  hasMemory (paLocal pte) && pte.toNat % 8 = 0 &&
    (let e := s.physLE pte 8
     pteBit e 0 && pteSize e = 1 && !pteBit e 8 && !pteBit e 6 && leafOk e && isHbm (paLocal (frameAddr e 0)))
    && isHbm (paLocal frame) && frame.toNat % 2 ^ 21 = 0

/-- A write of MIGNEW: the migration starts, blocking writes to both frames, or is refused with MIGST 4 (R337). -/
def execMigrationStart (die : Nat) (frame : W64) (s : State) : Out :=
  .next (
    let t := s.tu die
    if 4 ≤ die then s.refuse
    else if t.migration.isSome || !s.migratable t.migpte frame then (s.modTu die (fun t => { t with migst := 4 })).refuse
    else
      let old := frameAddr (s.physLE t.migpte 8) 0
      s.modTu die (fun t =>
        { t with mignew := frame, migst := 1
                 migration := some { old := old, fresh := frame, leaf := t.migpte,
                                     switched := none, heldOld := [], heldNew := [] } }))

/-- The 2 MiB of a frame are copied to another, poison marks as marks (R337). The bytes of a frame of another package are the
environment's, and bytes for one leave as copy units of a line each (log entry 15). -/
def State.copyFrame (s : State) (old fresh : W64) : State :=
  let f := paLocal old / 2 ^ 21
  let g := paLocal fresh / 2 ^ 21
  if old = fresh then s
  else if paPkg old = s.pkg && paPkg fresh = s.pkg then
    let kept := s.mem.filter (fun c => c.1 / 2 ^ 21 ≠ g)
    let moved := (s.mem.filter (fun c => c.1 / 2 ^ 21 = f)).map (fun c => (c.1 % 2 ^ 21 + 2 ^ 21 * g, c.2))
    let marks := (s.poison.filter (fun x => x / 2 ^ 16 = f)).map (fun x => x % 2 ^ 16 + 2 ^ 16 * g)
    { s with
      mem := moved.foldl (fun m c => Memory.write c.1 c.2 m) kept
      poison := s.poison.filter (fun x => x / 2 ^ 16 ≠ g) ++ marks }
  else if paPkg old ≠ s.pkg && paPkg fresh ≠ s.pkg then s
  else
    (List.range 16384).foldl (fun s i =>
      let at' (a : W64) : W64 := a + BitVec.ofNat 64 (128 * i)
      s.physWrite (at' fresh) (leBytes (s.physLE (at' old) 128) 128)) s

/-- The copy ends, and FRAME of the leaf is written in one store (R337). -/
def execMigrationSwitch (die : Nat) (s : State) : Out :=
  .next (match (s.tu die).migration with
  | none => s
  | some m =>
    if m.switched.isSome then s
    else
      let s := s.copyFrame m.old m.fresh
      let e := s.physLE m.leaf 8
      let s := s.physWrite m.leaf (leBytes (e % 2 ^ 21 + 2 ^ 21 * (m.fresh.toNat / 2 ^ 21)) 8)
      s.modTu die (fun t => { t with migst := 2, migration := some { m with switched := some s.ptime } }))

/-- The package time from which a die's present lease has been in force (R335). -/
def State.leaseSince (s : State) (d : Nat) : W64 :=
  s.leases.foldl (fun b l => if l.1 = d && b.ult l.2.2.2 then l.2.2.2 else b) 0

/-- Lmax of a change at T: the largest lease in force, on any die or Piazza of the domain, at some time from T − Lmax to T
(R335). On this package a lease was in force until it was replaced; those of other packages are the environment's (log
entry 15), at most 1,000,000 ns. -/
def State.leaseMax (s : State) (t : W64) : Nat :=
  let here := ((List.range 5).filter (fun d => decide ((s.leaseSince d).toNat ≤ t.toNat))).map (fun d => (s.tu d).lease.toNat)
  let ended := (s.leases.filter (fun l => decide (l.2.2.1.toNat ≤ t.toNat) && decide (t.toNat ≤ l.2.2.2.toNat + l.2.1))).map
    (fun l => l.2.1)
  (here ++ ended).foldl Nat.max (Nat.min 1000000 (Config.farLease t.toNat))

/-- The drain interval after a switch at T has passed (R335, R337). -/
def State.drained335 (s : State) (t : W64) : Bool := decide (t.toNat + s.leaseMax t + 2020 ≤ s.ptime.toNat)

/-- An address in the old frame is moved to the new one. -/
def Migration.move (m : Migration) (a : W64) : W64 :=
  if a.toNat / 2 ^ 21 = m.old.toNat / 2 ^ 21 then a + (m.fresh - m.old) else a

/-- A held write of a Curb entry's part goes to the new frame: here, or by a request to its package. -/
def State.movePart (s : State) (m : Migration) (d n i : Nat) : State :=
  let s := s.modPart d n i (fun (p : Part) =>
    if p.via = .phys then
      let a := m.move p.addr
      { p with addr := a, pkg := paPkg a, die := dieOf (paLocal a), effects := p.effects.map (moveEffect (a - p.addr)) }
    else p)
  match (s.curbEntry d n).bind (fun e => (e.parts[i]?).map (fun p => (e, p))) with
  | none => s
  | some (e, p) =>
    if p.pkg = s.pkg then s.landHeld (.curb d n i)
    else s.sendParts d e [p]

/-- A held request of another package goes to the new frame: here, or to a third package, which acknowledges it first. -/
def State.moveOutside (s : State) (m : Migration) (r : ExtRequest) : State :=
  if r.via ≠ .phys then s.landHeld (.outside r)
  else
    let es := r.effects.map (fun e => moveEffect (m.move (effAddr e) - effAddr e) e)
    match es.find? (fun e => paPkg (effAddr e) ≠ s.pkg) with
    | none => s.landHeld (.outside { r with effects := es })
    | some e =>
      let away := es.filter (fun x => paPkg (effAddr x) ≠ s.pkg)
      let s := match s.outsideHomes r (es.filter (fun x => paPkg (effAddr x) = s.pkg)) with
        | .ok hs => s.applyMem { who := { die := 4, asid := 0, job := r.job, sup := r.sup }, pkg := r.srcPkg } hs
        | .error _ => s
      s.sendOn r (paPkg (effAddr e)) .phys (BitVec.allOnes 64) away

/-- A full/empty bit that becomes full with bytes of a moved frame. -/
def State.moveMark (s : State) (m : Migration) : Option FeRef → State
  | some (.bit p i) =>
    let a := m.move (paOf s.pkg p)
    if paPkg a = s.pkg then s.feSet true (some (.bit (paLocal a) i))
    else s.physWrite a [(BitVec.ofNat 8 ((s.physLE a 1) % 256)) ||| (1 <<< i)]
  | f => s.feSet true f

/-- A held write is applied at the new frame and acknowledged (R337). -/
def State.applyHeld (s : State) (m : Migration) : HeldWrite → State
  | .arrive (.curb d n i) => s.movePart m d n i
  | .arrive (.outside r) => s.moveOutside m r
  | .bytes l mark =>
    (l.foldl (fun s (b : Nat × Byte) => s.physWrite (m.move (paOf s.pkg b.1)) [b.2]) s).moveMark m mark
  | .count p n =>
    let a := m.move (paOf s.pkg p)
    if paPkg a = s.pkg then s.syncAdd (paLocal a) n else s.emit (.syncAdd (paPkg a) .phys (BitVec.allOnes 64) a n)
  | .member g id d => s.later (.acked g id (64 + d) none)
  | .host p => s.later (.hostWrite p)

/-- Work that a migrating frame kept from going on is tried again: held messages of channels that are not frozen, host
requests, completion records and emissions. Writes of saved images that were held show in their contexts (R38). -/
def State.afterMigration (s : State) : State :=
  let s := s.mapSeqs (fun q =>
    if q.st = .frozen && q.imaged && !q.isResident then (s.jobOf q.job).elim q (fun j => s.loadImage 4 j q) else q)
  let s := (s.colls.map Prod.fst).foldl (fun s ch =>
    let c := s.coll ch
    if c.frozen || c.heldMsgs.isEmpty then s
    else c.heldMsgs.foldl (fun s m => s.landMessage m) (s.modColl ch (fun c => { c with heldMsgs := [] }))) s
  let s := s.conns.foldl (fun s c => if c.2.ahead.isEmpty then s else s.later (.pump c.1)) s
  let s := (s.jobs.filter (fun j => j.ended.isSome && !j.doneWritten && !j.retired
      && !(s.parked.any (fun p => p.work = .completion j.num)))).foldl (fun s j => s.writeDone j) s
  (s.sessions.map Prod.fst).foldl (fun s n =>
    let x := s.session n
    if x.state = 2 && x.emitStep < 10 && !(s.parked.any (fun p => p.work = .result n)) then s.emitGo n else s) s

/-- The drain interval has passed: the writes held at the old frame, then those held at the new one, are applied at the new
frame in their arrival order; blocking ends, and a completion record naming the new frame is posted (R337). -/
def execMigrationApply (die : Nat) (s : State) : Out :=
  .next (match (s.tu die).migration with
  | none => s
  | some m =>
    match m.switched with
    | none => s
    | some t =>
      if !s.drained335 t then s
      else
        let s := s.modTu die (fun t => { t with migration := none, migst := 3 })
        let s := (m.heldOld ++ m.heldNew).foldl (fun s w => s.applyHeld m w) s
        (s.post die (mkRec 7 0 0 0 m.fresh 0)).afterMigration)

/-! ### The trap queue (R339, R340) -/

/-- A record is posted at TAIL of a queue with room; the parked work or the channel it is about learns its slot. -/
def State.repost (s : State) (die : Nat) (r : TrapRec) : State :=
  let q := (s.dieAt die).queue
  let slot := q.tail.toNat % 1024
  let room := decide (q.pending < 1024)
  let s := match r.parked with
    | some n => { s with parked := lmod (fun p => p.num = n) (fun (p : Parked) => { p with slot := if room then some slot else none }) s.parked }
    | none => s
  let s := if r.kind = 2 && room then
      let m := r.master.toNat
      s.modChan (m / 2 ^ 24 % 4) (m % 128) (fun c => { c with faultSlot := some slot })
    else s
  s.post die r

/-- Held records are posted in order while there is room; withdrawn ones are forgotten. -/
def State.postHeld (s : State) (die : Nat) : Nat → State
  | 0 => s
  | n + 1 =>
    let q := (s.dieAt die).queue
    match q.holding with
    | [] => s
    | r :: rs =>
      if q.pending < 1024 then
        let s := s.modDie die (fun d => { d with queue := { d.queue with holding := rs } })
        (if r.kind = 0 then s else s.repost die r).postHeld die n
      else s

/-- The record that stands in a slot between HEAD and TAIL (R340). -/
def State.recordAt (s : State) (die slot : Nat) : Option TrapRec :=
  let q := (s.dieAt die).queue
  if 4 ≤ die || 1024 ≤ slot || decide (q.pending ≤ (slot + 1024 - q.head.toNat % 1024) % 1024) then none
  else
    match q.recs.find? (fun e => e.1 = slot) with
    | some e => if e.2.kind = 0 then none else some e.2
    | none => none

/-- The fault record of a channel is consumed: an `xkill` no longer withdraws what its slot holds next (R184). -/
def State.forgetFault (s : State) (slot : Nat) (r : TrapRec) : State :=
  if r.kind ≠ 2 then s
  else
    s.modChan (r.master.toNat / 2 ^ 24 % 4) (r.master.toNat % 128) (fun c =>
      if c.faultSlot = some slot then { c with faultSlot := none } else c)

/-- A write of HEAD: records are consumed, held ones are posted, and a consumed kind-4 record of a request that is still
parked is posted anew; a write that would move HEAD past TAIL is refused and counted (R339, R340). -/
def execHeadWrite (die : Nat) (v : BitVec 11) (s : State) : Out :=
  .next (
    let q := (s.dieAt die).queue
    if 4 ≤ die || decide (q.pending < (q.tail - v).toNat) then s.refuse
    else
      let slots := (List.range (v - q.head).toNat).map (fun i => (q.head.toNat + i) % 1024)
      let consumed := slots.filterMap (fun i => (s.recordAt die i).map (fun r => (i, r)))
      let s := consumed.foldl (fun s (x : Nat × TrapRec) => s.forgetFault x.1 x.2) s
      let s := s.modDie die (fun d => { d with queue := { d.queue with head := v } })
      let s := s.postHeld die q.holding.length
      consumed.foldl (fun s (x : Nat × TrapRec) =>
        match x.2.parked with
        | some k => if s.parked.any (fun p => p.num = k) then s.repost die x.2 else s
        | none => s) s)

/-! ### Writes of a host connection (R382) -/

/-- A host access translates in the ASID of its connection and counts as supervisor (R332). -/
def hostWho (asid : BitVec 8) : Who := { die := 4, asid := asid, job := 0, sup := true }

/-- What became of a piece of an MWRITE: committed, held at a FULL slot or a migrating frame, or refused. -/
inductive HostPiece where
  | done (s : State)
  | waits (s : State)
  | fault (code : BitVec 8) (die : Nat)
  deriving DecidableEq, Repr

/-- A piece of an MWRITE within one line reaches its home (R321, R322, R337, R382), or leaves for it under a number of its own. -/
def State.hostPiece (s : State) (p : HostPart) : HostPiece :=
  let w := hostWho p.asid
  let va := (p.bytes.head?).elim 0 Prod.fst
  let bs := p.bytes.map Prod.snd
  match s.translate w .store va bs.length with
  | .error (c, _) => .fault c 4
  | .ok x =>
    let s := s.note w .store va
    if x.pkg ≠ s.pkg then
      .waits ({ s with hostFar := s.hostFar ++ [(s.proxyNext, p)], proxyNext := s.proxyNext + 1 }.emit
        (.store x.pkg 4 0 0 0 0 none 1 (some ({ die := 4, ch := 129, claim := 0, unit := s.proxyNext }, 0)) x.via x.exp
          (byteEffects x.addr bs)))
    else
      match s.homeOf w.die w.sup .store x.via x.addr with
      | .error c => .fault c 4
      | .ok h =>
        if (s.migrationAt h.place).isSome then .waits (s.migrationHold h.place (.host p))
        else
          match s.applyHomes { who := w, pkg := s.pkg } none
              (bs.zipIdx.map (fun b => ({ h with place := h.place + b.2 }, .byte (x.addr + BitVec.ofNat 64 b.2) b.1))) with
          | .done s => .done s
          | .held =>
            .waits (s.modSession (slotPlace h.place).1 (fun x => { x with heldStores := x.heldStores ++ [.host p] }))
          | .fault c => .fault c (dieOf h.place)

/-- One part of an MWRITE is committed, or dropped with the status of its fault: the request is replied to with its last part,
or at once when one is dropped, and later requests go on after its last part (R382). A part of an earlier connection's request
settles nothing. -/
def State.hostDone (s : State) (p : HostPart) (dropped : Option Byte) : State :=
  match (s.conn p.conn).writing with
  | none => s
  | some (req, tag, n, ended) =>
    if req ≠ p.req then s
    else
      let s := s.modConn p.conn (fun c =>
        { c with writing := if n ≤ 1 then none else some (req, tag, n - 1, ended || dropped.isSome) })
      let s := match dropped with
        | some st => if ended then s else s.reply p.conn st tag []
        | none => if ended || decide (1 < n) then s else s.reply p.conn 0 tag []
      if n ≤ 1 then s.later (.pump p.conn) else s

/-- A piece of an MWRITE that was parked, held or answered is made again; with no bytes, it is committed (R319, R341, R382). -/
def State.hostAgain (s : State) (p : HostPart) : State :=
  if p.bytes.isEmpty then s.hostDone p none
  else
    match s.hostPiece p with
    | .done s => s.hostDone p none
    | .waits s => s
    | .fault c die => s.parkHost p c die

/-! ### ACT on parked work (R341, R397) -/

/-- The parked work of a kind-4 record between HEAD and TAIL. -/
def State.parkedAt (s : State) (die slot : Nat) : Option (TrapRec × Parked) :=
  match s.recordAt die slot with
  | some r =>
    if r.kind ≠ 4 then none
    else (r.parked.bind (fun n => s.parked.find? (fun p => p.num = n))).map (fun p => (r, p))
  | none => none

/-- RETRY of parked work, which has been taken from the list: it is translated and made again. -/
def State.retryWork (s : State) (p : Parked) : State :=
  match p.work with
  | .store d n i => s.retryPart d n i
  | .outside r => s.landHeld (.outside r)
  | .copyUnit d c u => (match execUnitArrive d c u s with | .next t => t | _ => s)
  | .hostWrite p => s.hostAgain p
  | .result n => s.emitGo n
  | .completion j =>
    (match s.jobs.find? (fun x => x.num = j && !x.retired) with
    | some x => s.writeDone x
    | none => s)
  | .refusal asid done => s.refusedRecord (Job.ofCard (Vector.ofFn (fun i => if i.val = 20 then done else 0)) asid)
  | .branch g id br => s.retryBranch g id br
  | .packet p => s.emit (.multicast 127 p)
  | .crewArea job va bs =>
    (match s.crews.find? (fun c => c.handle.toNat / 2 ^ 16 = job.toNat
        && (s.jobs.any (fun j => j.num = job && va = j.crewArea + BitVec.ofNat 64 (c.area * j.crewStride)))) with
    | some c => s.writeCrew c true
    | none =>
      match s.masterWrite (s.piazza job) va bs false with
      | .ok s => s
      | .error (code, a) => s.parkPiazza job code a (.crewArea job va bs))
  | .saveArea _ => s

/-- ACT 1 on a kind-4 record (R340, R341, R397). Any other write of 1 is ignored and counted. -/
def execRecordRetry (die slot : Nat) (s : State) : Out :=
  .next (match s.parkedAt die slot with
  | none => s.refuse
  | some (_, p) => { s with parked := s.parked.filter (fun x => x.num ≠ p.num) }.retryWork p)

/-- DROP of parked work, which has been taken from the list: a store is acknowledged as dropped and memory stays as it is;
a write on a job's behalf is abandoned and the work goes on. -/
def State.dropWork (s : State) (r : TrapRec) (p : Parked) : State :=
  match p.work with
  | .store d n i => s.dropPart d n i
  | .outside x =>
    let s := ((s.streamDone x).unitApplied x 0).emit (.storeAck x.srcPkg x.handle x.stream x.seqno (.dropped r.addr))
    s.drainReorder s.reorder.length
  | .copyUnit d c u =>
    (s.modChan d c (fun c => { c with applied := c.applied ++ [u], acked := c.acked ++ [u], sent := Nat.max c.sent (u + 1) })).modChan
      d c (fun c => Channel.advance c.acked.length c)
  | .hostWrite p => s.hostDone p (some (if r.code = cXlate then 2 else 3))
  | .result n => s.emitSkip n
  | .completion j => s.closeJob j
  | .refusal _ _ => s
  | .branch g id br => s.later (.acked g id br (some r.addr))
  | .packet p => s.treeDone p (some r.addr)
  | .crewArea _ _ _ => s
  | .saveArea _ => s

/-- ACT 2 on a kind-4 record (R340, R341, R397). A save area cannot be abandoned: it is retried. -/
def execRecordDrop (die slot : Nat) (s : State) : Out :=
  .next (match s.parkedAt die slot with
  | none => s.refuse
  | some (r, p) =>
    match p.work with
    | .saveArea _ => s.refuse
    | _ => { s with parked := s.parked.filter (fun x => x.num ≠ p.num) }.dropWork r p)

/-- ACT 3 on the record of a host connection releases it (R340, R343). -/
def execConnectionThaw (die slot : Nat) (s : State) : Out :=
  .next (match s.recordAt die slot with
  | none => s.refuse
  | some r =>
    if r.kind = 3 && r.master.toNat / 2 ^ 28 = 4 then s.modConn (r.master.toNat % 64) (fun c => { c with frozen := false })
    else s.refuse)

end Sys2Proof.Machine
end

