-- ==== Sys2Proof/Machine/Errors.lean ====
section
/-!
DEFINITION. Memory errors and patrol scrub (spec/14_translation_faults_errors.md R344, R345).
-/

namespace Sys2Proof.Machine

/-- Changes the error counters of a die. -/
def State.modErrors (s : State) (die : Nat) (f : Errors → Errors) : State :=
  s.modDie die (fun d => { d with errors := f d.errors })

/-- The counters in the window of 2^20 ticks that a package time lies in: in a new one the corrected errors are counted anew
(R344). -/
def Errors.inWindow (e : Errors) (now : W64) : Errors :=
  if e.window = now.toNat / 2 ^ 20 then e else { e with window := now.toNat / 2 ^ 20, cecnt := 0, posted := false }

/-- A corrected error of a die (0 to 5, R1) is counted; the window's one kind-5 record is posted when CECNT reaches CETHR,
naming the counters (R344, Table 14.6). Dies 4 and 5 have no queue: theirs is die 0's (R339; for die 5 DESIGN CHOICE, log
entry 75). -/
def State.corrected (s : State) (die : Nat) : State :=
  let s := s.modErrors die (fun e => let e := e.inWindow s.ptime; { e with cecnt := e.cecnt + 1 })
  let e := (s.dieAt die).errors
  if e.cethr = 0 || e.posted || decide (e.cecnt.toNat < e.cethr.toNat) then s
  else (s.modErrors die (fun e => { e with posted := true })).post (queueDie die)
    (mkRec 5 0 0 0 (catKey s.pkg die 0x17 (0x100 + die) 0) (e.cecnt.zeroExtend 64))

/-- An uncorrectable error is counted. -/
def State.uncorrected (s : State) (die : Nat) : State := s.modErrors die (fun e => { e with uecnt := e.uecnt + 1 })

/-- Marks the granule of a place poisoned. -/
def State.poisonAt (s : State) (a : Nat) : State :=
  { s with poison := if s.poison.contains (granuleOf a) then s.poison else s.poison ++ [granuleOf a] }

/-- Poisoned context state stops its resident sequencer, one that is leaving its slot too, with POISON and cr.badaddr 0 (R345);
an image that was being saved is written again. -/
def State.poisonContext (s : State) (h : BitVec 24) : State :=
  match s.seqOf h with
  | none => s
  | some q =>
    if !q.isResident then s
    else
      let here := s.ctx.handle
      let s := { (({ s.select h with issue := .idle }).raiseHeld cPoison 0) with issue := .idle }
      let s := s.modSeq h (fun x => if q.depart.isSome then { x with savedParts := 0 } else x)
      if here = 0 then s else s.select here

/-- An error is detected in a store (R344): a corrected one is written back and counted; an uncorrectable one poisons its
granule, and stops the master whose state it strikes. -/
def execMemoryError (u : Upset) (s : State) : Out :=
  .next (match u with
  | .memory die addr ok =>
    let a := paLocal addr
    if 4 ≤ die || paPkg addr ≠ s.pkg || !hasMemory a || dieOf a ≠ die then s
    else if ok then s.corrected die
    else (s.uncorrected die).poisonAt a
  | .tileCell core t cell ok =>
    if 192 ≤ core || 8 ≤ t || 16384 ≤ cell then s
    else if ok then s.corrected (core / 48)
    else (s.uncorrected (core / 48)).modTile core t (fun x =>
      { x with poisoned := if x.poisoned.contains cell then x.poisoned else x.poisoned ++ [cell] })
  | .context h ok =>
    (match s.seqOf h with
    | none => s
    | some q =>
      if !q.isResident then s
      else if ok then s.corrected q.cdie.toNat
      else (s.uncorrected q.cdie.toNat).poisonContext h)
  | .table die master ok =>
    if 6 ≤ die then s
    else if ok then s.corrected die
    else
      let s := s.uncorrected die
      match s.masterNamed master with
      | none => s.post (queueDie die) (mkRec 9 cPoison 0 0 0 0)
      | some m => (s.freezeMaster m).post (queueDie die) (mkRec 9 cPoison master (match m with
          | .seq h => ((s.seqOf h).map Seqr.job).getD 0
          | .channel d c => (s.chan d c).job
          | .coll c => (s.coll c).job
          | _ => 0) 0 0))

/-- Patrol scrub visits a word (R344, R345): an upset bit is corrected and counted; a poisoned granule found at its first
word posts a kind-9 record. -/
def execPatrolScrub (die : Nat) (addr : W64) (upset : Bool) (s : State) : Out :=
  .next (
    let a := paLocal addr
    if 4 ≤ die || paPkg addr ≠ s.pkg || !isHbm a || dieOf a ≠ die then s
    else if s.poisoned a 8 then
      (if a % 32 = 0 then s.post die (mkRec 9 cPoison 0 0 addr 0) else s)
    else if upset then s.corrected die
    else s)

/-- The end of a window of 2^20 ticks: once the package time lies in another, the corrected errors are counted anew (R344). -/
def execErrorWindowEnd (die : Nat) (s : State) : Out :=
  .next (if 6 ≤ die then s else s.modErrors die (fun e => e.inWindow s.ptime))

end Sys2Proof.Machine
end

