-- ==== Sys2Proof/Machine/Platform.lean ====
section
/-!
DEFINITION. Boot, power and heat (spec/18_platform.md R384 to R390; spec/01_machine_state.md R1).
-/

namespace Sys2Proof.Machine

/-! ### Images and reset (R384) -/

/-- The bytes of an image header (Table 18.3). -/
def BootImage.headerBytes (i : BootImage) : List Byte :=
  leBytes i.magic.toNat 4 ++ leBytes (i.type.toNat + 256 * i.rsvd.toNat) 4 ++ leBytes i.svn.toNat 4 ++ leBytes i.len.toNat 4
    ++ leBytes i.digest.toNat 48

/-- An image is accepted (R384): its header fits Table 18.3, both signatures verify, both public keys match the fuses, and
SVN is at least the fused minimum of its TYPE. -/
def imageOk (i : BootImage) : Bool :=
  let bytes := BootImage.headerBytes i ++ i.body ++ i.sigs
  i.magic = 0x4D444946 && decide (1 ≤ i.type.toNat) && decide (i.type.toNat ≤ 4) && i.rsvd = 0
    && i.len.toNat = i.body.length && i.digest = Config.sha384 i.body && i.sigs.length = 16608
    && Config.rsaVerifies bytes && Config.slhVerifies bytes && Config.keysMatchFuses bytes
    && decide (Config.fusedMinSvn i.type.toNat ≤ i.svn.toNat)

/-- The four images in the order in which the boot ROM loads them: each from the flash where an upload has put one there, else as
the part was provisioned with it (R384; what the flash holds before the first upload the spec does not say: log entry 52). -/
def bootImages (flash provisioned : List BootImage) : List BootImage :=
  (List.range 4).filterMap (fun t => (flash.find? (fun i => i.type.toNat = t + 1)).orElse (fun _ => provisioned[t]?))

/-- The supervisor context of service core i, which executes the firmware (R1, R35). Its start PC is free, bits [1:0] too, and
its g1, g2 and seed are 0, 0 and 1 (DESIGN CHOICE, log entry 69). -/
def serviceSeq (i : Nat) : Seqr :=
  { Seqr.blank with
    handle := BitVec.ofNat 24 (i + 1), index := BitVec.ofNat 16 i, st := .running, sup := true, core := BitVec.ofNat 6 (48 + i % 2)
    cdie := BitVec.ofNat 2 (i / 2), pc := Config.firmwareStart i, trapBase := Config.firmwareTrap i }

/-- The service cores start: two on each compute die, one supervisor context on each (R1, R35, log entry 69). -/
def State.startServices (s : State) : State :=
  let s := (List.range 8).foldl (fun s i =>
    s.modCore (192 + i) (fun c => { c with slots := c.slots.setIfInBounds 0 (some (BitVec.ofNat 24 (i + 1))), run := some 0 })) s
  { s with seqs := s.seqs ++ (List.range 8).map serviceSeq, handleNext := 9 }

/-- Package reset (R384): every object takes its reset value; the boot ROM loads the four images in order, or the package
enters recovery. The device listens at its link-local address, and at the address of an accepted configuration (R379). The package
number and the flash stay (DESIGN CHOICE, log entry 52); the accepted firmware starts the service cores (R35, log entry 69). -/
def execPkgReset (images : List BootImage) (s : State) : Out :=
  .next (
    let images := bootImages s.flash images
    let ok := images.map (fun i => i.type) = [1, 2, 3, 4] && images.all imageOk
    let config := (images.head?).filter (fun i => i.type = 1 && imageOk i)
    let s : State := { State.reset with
      pkg := s.pkg
      freeCtr := s.freeCtr
      flash := s.flash
      recovery := !ok
      images := images
      listen := Config.linkLocal :: config.toList.map (fun i => Config.listenAddress i.body)
      allow := (config.toList.map (fun i => Config.allowTable i.body)).flatten
      allowAll := config.isNone }
    if ok then s.startServices else s)

/-- Power is removed: all state is lost (R1) but the images in flash and the package number, which outlive it in this model
(DESIGN CHOICE, log entry 52). -/
def execPowerLoss (s : State) : Out := .next { State.reset with powered := false, pkg := s.pkg, freeCtr := s.freeCtr, flash := s.flash }

/-! ### Heat (R386 to R388) -/

/-- The throttle and trip points of Table 18.5. -/
def thrPoint : Int := 1728
def tripPoint : Int := 1888

/-- Adds n to EVSYNC, 1 for each change, at its home: here, held while its page migrates, or by a request to its package (R138,
R389). -/
def State.evsync (s : State) (n : Nat) : State :=
  let a := s.power.evsync
  if n = 0 || a = 0 then s
  else if paPkg a = s.pkg then s.countAt (paLocal a) n
  else s.emit (.syncAdd (paPkg a) .phys (BitVec.allOnes 64) a n)

/-- A threshold holds: from its point on, and, once it does, until the temperature has been at or below another for 1 ms
(R387, R388). -/
def holdsAt (rise fall temp : Int) (old settled : Bool) : Bool := decide (rise ≤ temp) || (old && !(settled && decide (temp ≤ fall)))

/-- The level that two thresholds of rising points give, each with what it has been below for 1 ms (R387, R388). -/
def levelOf (p q temp : Int) (old : Nat) (settledP settledQ : Bool) : Nat :=
  if holdsAt q (q - 32) temp (decide (2 ≤ old)) settledQ then 2
  else if holdsAt p (p - 32) temp (decide (1 ≤ old)) settledP then 1
  else 0

/-- The hottest sensor of a die is read (R387): LEVEL and its EVENTS follow, and each change adds 1 to EVSYNC. -/
def execTempSample (die : Nat) (temp : BitVec 16) (settled : DieSettled) (s : State) : Out :=
  .next (
    if 5 < die then s
    else
      let t := s.therm die
      let l := levelOf t.warn.toInt thrPoint temp.toInt t.level.toNat settled.warn settled.thr
      let changed := l ≠ t.level.toNat
      (s.modTherm die (fun t =>
        { t with temp := temp, level := BitVec.ofNat 2 l, events := if changed then t.events + 1 else t.events })).evsync
          (if changed then 1 else 0))

/-- A built-in burst may run: MODE 2, no die at LEVEL 1 or more, POWER not above CAP (R390). -/
def State.burstsAllowed (s : State) : Bool :=
  s.power.mode = 2 && (List.range 6).all (fun d => (s.therm d).level = 0) && decide (s.power.power.toNat ≤ s.power.cap.toNat)

/-- A die's clock steps down: LEVEL 2 on it, or on the base die, or a compute die while POWER is above CAP with no bursts
running (R387, R390). -/
def State.stepsDown (s : State) (die : Nat) : Bool :=
  (s.therm die).level = 2 || (die ≠ 5 && (s.therm 5).level = 2)
    || (die < 4 && decide (s.power.cap.toNat < s.power.power.toNat) && s.power.rate = 0)

/-- A die's clock steps down by one, to at most STEP 8 (R387). -/
def execStepDown (die : Nat) (s : State) : Out :=
  .next (
    if 5 < die || !s.stepsDown die || decide (8 ≤ (s.therm die).stepNo.toNat) then s
    else s.modTherm die (fun t => { t with stepNo := t.stepNo + 1 }))

/-- A die's clock steps back by one while nothing steps it down (R387). -/
def execStepUp (die : Nat) (s : State) : Out :=
  .next (
    if 5 < die || s.stepsDown die || (s.therm die).stepNo = 0 then s
    else s.modTherm die (fun t => { t with stepNo := t.stepNo - 1 }))

/-- TEMP has reached TRIP: every clock stops and the power-fault output is asserted (R387). -/
def execTrip (die : Nat) (s : State) : Out :=
  .next (if die ≤ 5 && decide (tripPoint ≤ (s.therm die).temp.toInt) then { s with clockStopped := true, powerFault := true } else s)

/-- A stack of a compute die. -/
def State.hbmOf (s : State) (die k : Nat) : Hbm := tget .reset (s.dieAt die).hbm k

/-- An HBM stack reports its temperature (R388): refresh rate ×2 from 85 °C, ×4 from 95 °C, half rate above 105 °C; each
change adds 1 to EVSYNC. -/
def execHbmTempChange (die k : Nat) (temp : BitVec 16) (settled : HbmSettled) (s : State) : Out :=
  .next (
    if 4 ≤ die || 3 ≤ k then s
    else
      let h := s.hbmOf die k
      let r := levelOf 1360 1520 temp.toInt h.refx.toNat settled.below85 settled.below95
      let t := holdsAt 1681 1648 temp.toInt h.throt settled.below105
      let n := (if r ≠ h.refx.toNat then 1 else 0) + (if t ≠ h.throt then 1 else 0)
      (s.modDie die (fun d =>
        { d with hbm := tset k { temp := temp, refx := BitVec.ofNat 2 r, throt := t } d.hbm })).evsync n)

/-! ### Power (R389, R390) -/

/-- The controller samples the package power (R390): the burst rate rises below 0.98 T, falls above 1.02 T, and is 0 while a
stop condition holds. -/
def execPowerControl (power : BitVec 12) (s : State) : Out :=
  .next (
    let s := { s with power := { s.power with power := power } }
    let t := Nat.min s.power.target.toNat s.power.cap.toNat
    let rate :=
      if !s.burstsAllowed then 0
      else if 100 * power.toNat < 98 * t then s.power.rate + 1
      else if 102 * t < 100 * power.toNat then s.power.rate - 1
      else s.power.rate
    { s with power := { s.power with rate := rate } })

/-- A built-in burst runs on a core whose matrix queue is empty: it is counted and changes nothing else (R390). -/
def execBurst (core : Nat) (s : State) : Out :=
  .next (
    if 192 ≤ core || !s.burstsAllowed || s.power.rate = 0 || !(s.coreOf core).mq.isEmpty || (s.coreOf core).routine.isSome then s
    else { s with power := { s.power with bursts := s.power.bursts + 1 } })

end Sys2Proof.Machine
end

