-- ==== Sys2Proof/Machine/Catalogue.lean ====
section
/-!
DEFINITION. The state catalogue (spec/01_machine_state.md R36 to R39, and the object tables of the other chapters): reads,
writes, `rdst` (R221) and the register writes that have no row of their own.
-/

namespace Sys2Proof.Machine

/-- A key by its fields (Table 1.8). -/
structure Key where
  pkg : BitVec 15
  die : Nat
  cls : Nat
  inst : Nat
  word : Nat
  deriving DecidableEq, Repr

/-- The fields of a key (Table 1.8). -/
def keyOf (k : W64) : Key where
  pkg := BitVec.ofNat 15 (fieldOf k 49 15)
  die := fieldOf k 46 3
  cls := fieldOf k 40 6
  inst := fieldOf k 16 24
  word := fieldOf k 0 16

/-- The key addresses an object that exists (Table 1.9, R302, R333, R339, R344, R386). Of class 0x17, whose die is 'any', the
codes 6 and 7 count too (DESIGN CHOICE, log entry 81). -/
def keyPresent (k : Key) : Bool :=
  match k.cls with
  | 0x00 => k.die = 4
  | 0x01 => k.die < 4 && decide (k.inst < 48)
  | 0x02 => k.die < 4 && decide (k.inst < 384)
  | 0x03 => k.die < 4 && decide (k.inst < 4096)
  | 0x04 => k.die ≤ 4 && decide (k.inst < 1024)
  | 0x05 => k.die < 4 && decide (k.inst < 256)
  | 0x06 => k.die < 4 && decide (k.inst < 128)
  | 0x07 => k.die ≤ 4 && (decide (k.inst < 8192) || (decide (0x10000 ≤ k.inst) && decide (k.inst < 0x10100)) || k.inst = 0x20000)
  | 0x08 => k.die < 4 && decide (k.inst ≤ 1024)
  | 0x09 => k.die < 4 && decide (k.inst < 48 * 16384)
  | 0x10 => k.die = 4 && decide (k.inst < 4096)
  | 0x11 => k.die = 4 && decide (k.inst < 8192)
  | 0x12 => k.die = 4 && decide (k.inst < 1024)
  | 0x13 => k.die = 4 && decide (k.inst < 256)
  | 0x14 => k.die = 4 && decide (k.inst < 512)
  | 0x15 => k.die = 4 && decide (k.inst < 68)
  | 0x16 => k.die = 5 && decide (k.inst ≤ 25) && (k.inst = 25 || k.inst / 5 ≠ k.inst % 5)
  | 0x17 => decide (k.inst ≤ 5) || (decide (0x10 ≤ k.inst) && decide (k.inst < 0x1C)) || k.inst = 0x20
      || (decide (0x100 ≤ k.inst) && decide (k.inst < 0x106))
  | 0x18 => k.die = 4 && k.inst = 0
  | 0x3F => k.die = 4 && k.inst = 0
  | _ => false

/-! ### Words of the objects -/

/-- A 64-bit word from parts. -/
def w64 (n : Nat) : W64 := BitVec.ofNat 64 n

/-- A word of a sequencer's image: of a context that holds no slot and has been saved, what its save area holds for it (R39);
reserved bits read zero (R9). -/
def State.seqWord (s : State) (q : Seqr) (n : Nat) : W64 :=
  match if q.imaged && !q.isResident then s.jobs.find? (fun j => j.num = q.job) else none with
  | some j => s.imageOf (s.loadImage 4 j q) n
  | none => s.imageOf q n

/-- Core status (Table 10.6). -/
def State.coreWord (s : State) (n word : Nat) : Option W64 :=
  let c := s.coreOf n
  let holder (i : Nat) : Option Seqr := (c.slots[i]?.getD none).bind s.seqOf
  match word with
  | 4 => some (w64 (c.switches.toNat + 2 ^ 32 * c.parks.toNat))
  | 5 => some (w64 ((48 - (s.usedLots n).length) + 2 ^ 6 * (8 - (s.usedTiles n).length) + 2 ^ 10 * bitOf c.ret))
  | i =>
    if i < 4 then
      some (match holder i with
      | some q => w64 (q.handle.toNat + 2 ^ 24 + 2 ^ 25 * bitOf (c.run = some i && q.st = .running) + 2 ^ 26 * q.cls.toNat)
      | none => 0)
    else if 8 ≤ i && i < 12 then some (match (holder (i - 8)).bind (fun q => s.jobOf q.job) with | some j => j.deadline | none => 0)
    else none

/-- Copy channel (Table 12.1). -/
def State.chanWord (s : State) (die ch word : Nat) : Option W64 :=
  let c := s.chan die ch
  match word with
  | 0 => some (w64 (c.status.toNat + 2 ^ 32 * c.retcnt.toNat))
  | 1 => some (w64 c.wmark)
  | 2 => some c.faddr
  | 3 => some 0
  | 4 => some (if c.claimed then c.cur.getD 0 else 0)
  | 5 => some (w64 (c.claim.toNat + 2 ^ 32 * c.job.toNat))
  | 6 | 7 => some 0
  | i => if i < 16 then some (c.snap[i - 8]?.getD 0) else none

/-- Cached translations, roots and translation control (Tables 14.3 and 14.9, R329). -/
def State.transWord (s : State) (die inst word : Nat) : Option W64 :=
  let t := s.tu die
  if inst < 8192 then
    match word, t.cache.find? (fun e => e.pos = inst) with
    | 0, some e => some (w64 (1 + 2 * e.asid.toNat + e.vpage.toNat % 2 ^ 57 / 2 ^ 21 * 2 ^ 21))
    | 1, some e => some e.leaf
    | 2, some e => some e.exp
    | i, _ => if i < 4 then some 0 else none
  else if inst < 0x20000 then (if word = 0 then some (tget 0 t.roots (inst - 0x10000)) else none)
  else
    match word with
    | 0 => some (w64 (t.lease.toNat + 2 ^ 32 * t.migthr.toNat))
    | 1 => some t.migpte
    | 2 => some t.mignew
    | 3 => some (t.migst.zeroExtend 64)
    | 4 => some 0
    | _ => none

/-- Trap-queue records and control (Tables 14.5 and 14.6). -/
def State.queueWord (s : State) (die inst word : Nat) : Option W64 :=
  let q := (s.dieAt die).queue
  if inst = 1024 then
    match word with
    | 0 => some (w64 (q.head.toNat + 2 ^ 16 * q.tail.toNat + 2 ^ 32 * q.lost.toNat))
    | 1 => some q.qsync
    | _ => none
  else if 8 ≤ word then none
  else
    match q.recs.find? (fun e => e.1 = inst) with
    | none => some 0
    | some (_, r) =>
      match word with
      | 0 => some (w64 (r.kind.toNat + 2 ^ 8 * r.code.toNat + 2 ^ 16 * r.master.toNat + 2 ^ 48 * r.job.toNat))
      | 1 => some r.addr
      | 2 => some r.pt
      | 3 => some r.info
      | _ => some 0

/-- A directory entry as a word (Table 11.2). -/
def DirEntry.word (e : DirEntry) : W64 :=
  w64 (bitOf e.valid + 2 * e.offset.toNat + 2 ^ 15 * e.length.toNat + 2 ^ 30 * e.owner.toNat)

/-- Collective channel (Table 12.3). -/
def Coll.word (c : Coll) (least : Nat) : Nat → Option W64
  | 0 => some c.peer
  | 1 => some c.shape
  | 2 => some c.buf
  | 3 => some c.sync
  | 4 => some (w64 (c.state.toNat + 4 * c.errk.toNat + 2 ^ 4 * (if c.state = 2 then c.cred.toNat else least % 4096)
      + 2 ^ 16 * c.head.toNat + 2 ^ 28 * c.tail.toNat + 2 ^ 40 * c.job.toNat))
  | 5 => some (w64 (c.mseq.toNat + 2 ^ 32 * c.disc.toNat))
  | _ => none

/-- Lift entry (Table 12.4). -/
def Lift.word (l : Lift) : Nat → Option W64
  | 0 => some (w64 (l.state.toNat + 4 * bitOf (!l.waiting.isEmpty) + 8 * bitOf l.err + 2 ^ 16 * l.job.toNat + 2 ^ 32 * l.thresh.toNat))
  | 1 => some l.cmd
  | 2 => some (l.count.zeroExtend 64)
  | _ => none

/-- Multicast group (Table 13.5). -/
def McGroup.word (g : McGroup) : Nat → Option W64
  | 0 => some (w64 (bitOf g.valid + 2 * g.dies.toNat + 2 ^ 5 * g.root.toNat + 2 ^ 20 * g.parent.toNat + 2 ^ 27 * g.job.toNat))
  | 1 => some g.child
  | 6 | 7 => some 0
  | i => if i < 6 then some (g.base[i - 2]?.getD 0) else none

/-- Session entry (Table 13.6). -/
def Session.word (x : Session) (word : Nat) : Option W64 :=
  match word with
  | 0 => some (w64 (x.state.toNat + 2 ^ 3 * x.mode.toNat + 2 ^ 5 * x.op.toNat + 2 ^ 8 * x.ifmt.toNat + 2 ^ 12 * x.ofmt.toNat
      + 2 ^ 16 * x.anchor.toNat + 2 ^ 26 * bitOf x.root + 2 ^ 27 * bitOf x.outmc + 2 ^ 28 * x.job.toNat + 2 ^ 44 * bitOf x.err))
  | 1 => some (w64 (x.nleaf.toNat + 2 ^ 17 * x.nelem.toNat + 2 ^ 32 * x.gen.toNat))
  | 2 => some (w64 (x.timeout.toNat + 2 ^ 32 * x.parent.toNat + 2 ^ 42 * x.outgrp.toNat))
  | 3 => some x.child
  | 4 => some x.outa
  | 5 => some x.outsync
  | 6 => some x.stata
  | 7 => some (w64 (x.disc.toNat + 2 ^ 32 * x.dup.toNat))
  | i =>
    if i < 8 then none
    else if i < 24 then
      let c := x.slot (i - 8)
      some (w64 (c.leaf.toNat + 2 ^ 17 * c.lvl.toNat + 2 ^ 21 * bitOf c.valid + 2 ^ 22 * bitOf c.closed + 2 ^ 23 * bitOf c.full))
    else if 32 ≤ i && i < 32 + 1024 then
      some (if x.root then w64 (packNat 1 (fun b => bitOf (x.present.contains (64 * (i - 32) + b))) 64) else 0)
    else none

/-- Port (Table 13.4). -/
def Port.word (p : Port) (word : Nat) : Option W64 :=
  match word with
  | 0 => some (w64 (p.state.toNat + 2 ^ 3 * p.peerpkg.toNat + 2 ^ 18 * p.peerport.toNat + 2 ^ 24 * bitOf p.islocal
      + 2 ^ 25 * bitOf p.dis))
  | 1 => some (w64 (p.cethr.toNat + 2 ^ 16 * p.rtthr.toNat))
  | 2 => some (w64 (p.repl.toNat + 2 ^ 32 * p.lastrepl.toNat))
  | 3 => some (w64 (p.crcerr.toNat + 2 ^ 32 * p.retrains.toNat))
  | 4 => some p.txflits
  | 5 => some p.rxflits
  | 6 | 7 => some 0
  | i =>
    if i < 16 then some (w64 ((p.sent[i - 8]?.getD 0).toNat + 2 ^ 32 * (p.freedp[i - 8]?.getD 0).toNat))
    else if i < 32 then some (if p.islocal then tget 0 p.reach (i - 16) else 0)
    else none

/-- Connection table and time status (Tables 13.1 and 13.2). -/
def State.opticsWord (s : State) (inst word : Nat) : Option W64 :=
  if word ≠ 0 then none
  else if inst = 25 then
    some (w64 (s.timeRef.toNat + 2 ^ 15 * bitOf s.synced + 2 ^ 16 * s.slew.toNat + 2 ^ 32 * s.steps.toNat))
  else
    let c := tget .reset s.circuits inst
    some (w64 (c.wl.toNat + 2 ^ 8 * c.active.toNat + 2 ^ 16 * bitOf c.pend))

/-- Heat, power and error counters (Tables 14.8 and 18.5 to 18.7). -/
def State.platformWord (s : State) (inst word : Nat) : Option W64 :=
  if inst ≤ 5 then
    let t := s.therm inst
    match word with
    | 0 => some (w64 (t.temp.toNat + 2 ^ 16 * t.level.toNat + 2 ^ 18 * t.stepNo.toNat + 2 ^ 32 * t.events.toNat))
    | 1 => some (w64 (t.warn.toNat + 2 ^ 16 * 1728 + 2 ^ 32 * 1888))
    | _ => none
  else if inst < 0x1C then
    let h := s.hbmOf ((inst - 0x10) / 3) ((inst - 0x10) % 3)
    if word = 0 then some (w64 (h.temp.toNat + 2 ^ 16 * h.refx.toNat + 2 ^ 18 * bitOf h.throt)) else none
  else if inst = 0x20 then
    let p := s.power
    match word with
    | 0 => some (w64 (p.target.toNat + 2 ^ 12 * p.cap.toNat + 2 ^ 24 * p.mode.toNat))
    | 1 => some (w64 (p.power.toNat + 2 ^ 12 * p.bursts.toNat))
    | 2 => some p.evsync
    | _ => none
  else
    let e := (s.dieAt (inst - 0x100)).errors.inWindow s.ptime
    match word with
    | 0 => some (w64 (e.cecnt.toNat + 2 ^ 32 * e.uecnt.toNat))
    | 1 => some (w64 e.cethr.toNat)
    | _ => none

/-- The word that a key of this package names, or none where it is absent (R36, R37). The words of classes 0x03, 0x04, 0x05
and 0x13 have no stated layout (log entry 16). -/
def State.keyWord (s : State) (key : W64) : Option W64 :=
  let k := keyOf key
  if !keyPresent k then none
  else
    match k.cls with
    | 0x00 =>
      (match s.seqOf (BitVec.ofNat 24 k.inst) with
      | some q => if k.word < imageWords then some (s.seqWord q k.word) else none
      | none => none)
    | 0x01 => s.coreWord (48 * k.die + k.inst) k.word
    | 0x02 =>
      let t := s.tileAt (48 * k.die + k.inst / 8) (k.inst % 8)
      if k.word = 0 then some t.word
      else if k.word ≤ 16384 then some ((tget 0 t.cells (k.word - 1)).zeroExtend 64) else none
    | 0x06 => s.chanWord k.die k.inst k.word
    | 0x07 => s.transWord k.die k.inst k.word
    | 0x08 => s.queueWord k.die k.inst k.word
    | 0x09 =>
      let c := s.coreOf (48 * k.die + k.inst / 16384)
      (match k.word with
      | 0 => some (c.uopWord (k.inst % 16384))
      | 1 => if k.inst % 16384 < 256 then some (c.entry (k.inst % 16384)).word else none
      | _ => none)
    | 0x10 => (s.coll k.inst).word (s.leastCredit (s.coll k.inst)) k.word
    | 0x11 => (s.lift k.inst).word k.word
    | 0x12 => (s.group k.inst).word k.word
    | 0x14 => (s.session k.inst).word k.word
    | 0x15 => (s.port k.inst).word k.word
    | 0x16 => s.opticsWord k.inst k.word
    | 0x17 => s.platformWord k.inst k.word
    | 0x18 => if k.word = 0 then some (w64 (s.wcoll.toNat + 256 * s.wprog.toNat)) else none
    | 0x3F =>
      (match k.word with
      | 0 => some (s.refusedWrites.zeroExtend 64)
      | 1 => some (s.absentReads.zeroExtend 64)
      | _ => none)
    | _ => some (Config.catWord s.freeCtr key)

/-- A catalogue read: an absent key reads zero and is counted (R37). -/
def State.catRead (s : State) (key : W64) : Option W64 × State :=
  match s.keyWord key with
  | some v => (some v, s)
  | none => (none, { s with absentReads := s.absentReads + 1 })

/-- `rdst` (R221): a word of this package's catalogue, or the reply of another package's Piazza. -/
def execRdst (d a : BitVec 3) (s : State) : Out :=
  .next (s.supOnly (fun s => s.hold (s.rb a).taint (fun s =>
    let key := (s.rb a).val
    if (keyOf key).pkg = s.pkg then
      let (v, s) := s.catRead key
      s.wb d (v.getD 0) 0
    else
      s.ask .reply false none (fun t => .catRead (keyOf key).pkg s.ctx.handle t key) (fun r s =>
        match r with
        | .value v => s.wb d (vecWord v 0) 0
        | .fault _ _ => s.raise cRmtFault key
        | .poison _ => s.raise cRmtFault key
        | .again => s.stall .reply))))

/-! ### Writes (R38) -/

/-- The state after a meaning. -/
def after (o : Out) (s : State) : State :=
  match o with
  | .next t => t
  | _ => s

/-- The written bits in the accepting fields, the old ones elsewhere. -/
def mergeBits (old v : W64) (mask : Nat) : W64 := (old &&& ~~~(w64 mask)) ||| (v &&& w64 mask)

/-- The bits of word n of an image that a write may set, or none where the word refuses the value (Tables 1.2 to 1.10). The
registers are RW; the state word, taint masks, port control words and tags are the package's. A PC with bits [1:0] set is refused
(DESIGN CHOICE, log entry 71); vector metadata with AUX nonzero is taken under every TAG (DESIGN CHOICE, log entry 82). -/
def imageMask (q : Seqr) (n : Nat) (v : W64) : Option Nat :=
  let all := 2 ^ 64 - 1
  if n = 0 then (if v.toNat % 4 = 0 then some all else none)
  else if n = 1 then none
  else if n = 2 || n = 0x032 then some 0
  else if n < 0x022 then some (2 ^ 32 - 1)
  else if n < 0x02A then some all
  else if n < 0x032 then none
  else if n < 0x03A then some all
  else if n < 0x042 then none
  else if n < 0x05C then some all
  else if n < 0x070 then
    let c := n - 0x05C
    let width := if c = 0 then 5 else if c = 1 || c = 3 || c = 8 then 2 else if c = 2 then 3 else if c = 5 then 7
      else if c = 15 then 16 else if 16 ≤ c then 64 else 32
    if crReadOnly c || !crAccepts c (v &&& BitVec.ofNat 64 (2 ^ width - 1)) then none else some (2 ^ width - 1)
  else if n < 0x080 then none
  else if n < 0x0B8 then (if decide (10 ≤ v.toNat % 16) then none else some 0x7F)
  else if n < 0x0C8 then none
  else if n < 0x0D0 then (if v.toNat % 4 = 3 || decide (max q.tileWords.length q.tiles.length ≤ n - 0x0C8) then none else some 0x7FFF)
  else if n < 0x100 then none
  else if n < 0x200 then
    let m := (stagingMask ((n - 0x100) / 64) ((n - 0x100) % 64)).toNat
    if m = 0 then none else some m
  else if n < 0x900 then some all
  else if n < 0xD08 then (if (n - 0x900) % 129 = 0 then none else some all)
  else none

/-- The value that a write leaves in word n of an image: tile flags are write-one-to-clear, cr.seed is never zero (R30). -/
def imageValue (old v : W64) (mask n : Nat) : W64 :=
  if 0x0C8 ≤ n && n < 0x0D0 then
    BitVec.ofNat 64 (v.toNat % 2 ^ 12 + 2 ^ 12 * (old.toNat / 2 ^ 12 % 16 - (old.toNat / 2 ^ 12 % 8 &&& v.toNat / 2 ^ 12 % 8)))
  else if n = 0x05C + 4 then (if v.toNat % 2 ^ 32 = 0 then 1 else w64 (v.toNat % 2 ^ 32))
  else mergeBits old v mask

/-- A write of an image word, accepted while the sequencer is frozen (R38, R222): it reaches the state that the
sequencer's slot still holds, or its saved image. -/
def State.writeSeqWord (s : State) (q : Seqr) (n : Nat) (v : W64) : State :=
  if q.st ≠ .frozen then s.refuse
  else
    match imageMask q n v with
    | none => s.refuse
    | some mask =>
      let x := imageValue (s.seqWord q n) v mask n
      let s := match if 0x0C8 ≤ n && n < 0x0D0 then q.tileNo (n - 0x0C8) else none with
        | some p => s.modTile q.coreNo p (fun t => t.setWord x)
        | none => s
      match if q.imaged && !q.isResident then s.jobs.find? (fun j => j.num = q.job) else none with
      | some j =>
        (match s.masterWrite { die := 4, asid := j.asid, job := 0, sup := true }
            (j.saveBase q.index.toNat + BitVec.ofNat 64 (8 * n)) (leBytes x.toNat 8) false with
        | .error _ => s.refuse
        | .ok s => s.modSeq q.handle (fun q => s.loadImage 4 j q))
      | none =>
        s.modSeq q.handle (fun q =>
          { q.load (fun k => if k = n then x else s.imageOf q k) with
            tileWords := if 0x0C8 ≤ n && n < 0x0D0 then q.tileWords.set (n - 0x0C8) x else q.tileWords })

/-- A micro-op word meets the conditions of R275 that concern it alone. -/
def uopWordOk (v : W64) : Bool := (decodeUop v.toNat).isSome

/-- A write of the routine store (R272). -/
def State.writeStore (s : State) (core i word : Nat) (v : W64) : State :=
  let c := s.coreOf core
  match word with
  | 0 =>
    if !uopWordOk v || (List.range 256).any (fun n => (c.entry n).covers i && c.calls n) then s.refuse
    else s.modCore core (fun c => { c with store := tset i v c.store })
  | 1 =>
    let e : DirEntry :=
      { valid := v.getLsbD 0, offset := BitVec.ofNat 14 (fieldOf v 1 14), length := BitVec.ofNat 15 (fieldOf v 15 15),
        owner := BitVec.ofNat 17 (fieldOf v 30 17) }
    if 256 ≤ i || c.calls i || decide (16384 < e.offset.toNat + e.length.toNat)
        || (e.valid && c.overlaps i e.offset.toNat e.length.toNat) then s.refuse
    else s.modCore core (fun c => { c with dir := tset i e c.dir })
  | _ => s.refuse

/-- A write of translation state (R329, R333, Table 14.3). -/
def State.writeTrans (s : State) (die inst word : Nat) (v : W64) : State :=
  if inst < 8192 then s.refuse
  else if inst < 0x20000 then
    if word ≠ 0 || v.toNat % 2 ^ 12 / 2 ≠ 0 then s.refuse
    else
      let x := w64 (v.toNat / 2 ^ 12 * 2 ^ 12 + v.toNat % 2)
      s.modTu die (fun t => { t with roots := if x = 0 then terase (inst - 0x10000) t.roots else tset (inst - 0x10000) x t.roots })
  else
    match word with
    | 0 =>
      let lease := fieldOf v 0 32
      let thr := fieldOf v 32 32
      if lease < 1000 || 1000000 < lease || (die = 4 && thr ≠ 0) then s.refuse
      else
        { s with leases := s.leases ++ [(die, (s.tu die).lease.toNat, s.leaseSince die, s.ptime)] }.modTu die (fun t =>
          { t with lease := BitVec.ofNat 32 lease, migthr := BitVec.ofNat 32 thr })
    | 1 => if die = 4 then s.refuse else s.modTu die (fun t => { t with migpte := v })
    | 2 => after (execMigrationStart die v s) s
    | 4 => if v.getLsbD 0 then after (execFlush die s) s else s
    | _ => s.refuse

/-- A write of the trap queue (R339, R340). -/
def State.writeQueue (s : State) (die inst word : Nat) (v : W64) : State :=
  if inst = 1024 then
    match word with
    | 0 => after (execHeadWrite die (v.truncate 11) s) s
    | 1 =>
      if v.toNat % 16 = 0 && paPkg v = s.pkg && hasMemory (paLocal v) then
        s.modDie die (fun d => { d with queue := { d.queue with qsync := v } })
      else s.refuse
    | _ => s.refuse
  else if word = 7 then
    match v.toNat % 4 with
    | 1 => after (execRecordRetry die inst s) s
    | 2 => after (execRecordDrop die inst s) s
    | 3 => after (execConnectionThaw die inst s) s
    | _ => s.refuse
  else s.refuse

/-- The messages of a send end from slot TAIL to HEAD − 1 are sent and unacknowledged, the last one before MSEQ, once HEAD,
TAIL or MSEQ has been written over what stood there (R295). -/
def Coll.renumber (c old : Coll) : Coll :=
  let n := if c.head = old.head && c.tail = old.tail then c.unacked.length
    else if c.depth = 0 then 0 else (c.head.toNat + c.depth - c.tail.toNat % c.depth) % c.depth
  if c.state ≠ 1 then c
  else { c with unacked := (List.range n).map (fun i => c.mseq - BitVec.ofNat 32 (n - i)) }

/-- A write of a collective channel frozen by `freeze` kind 2 (R295). -/
def State.writeColl (s : State) (ch word : Nat) (v : W64) : State :=
  let c := s.coll ch
  let m (n : Nat) : BitVec 12 := BitVec.ofNat 12 (if c.depth = 0 then n else n % c.depth)
  if !c.frozen then s.refuse
  else
    match word with
    | 0 => s.modColl ch (fun c => { c with peer := w64 (v.toNat % 2 ^ 28) })
    | 1 => s.modColl ch (fun c => { c with shape := w64 (v.toNat % 2 ^ 50) })
    | 2 => s.modColl ch (fun c => { c with buf := v })
    | 3 => s.modColl ch (fun c => { c with sync := v })
    | 4 =>
      let rx := s.receivers c
      s.modColl ch (fun c => Coll.renumber
        { c with
          state := v.truncate 2, errk := BitVec.ofNat 2 (fieldOf v 2 2), cred := BitVec.ofNat 12 (fieldOf v 4 12)
          head := m (fieldOf v 16 12), tail := m (fieldOf v 28 12), job := BitVec.ofNat 16 (fieldOf v 40 16)
          credits := rx.foldl (fun t k => tset k (fieldOf v 4 12) t) c.credits } c)
    | 5 => s.modColl ch (fun c => Coll.renumber { c with mseq := v.truncate 32, heard := none, disc := BitVec.ofNat 32 (fieldOf v 32 32) } c)
    | _ => s.refuse

/-- A write of a multicast group: while VALID is 0 or no packet of it is in flight (R315). -/
def State.writeGroup (s : State) (g word : Nat) (v : W64) : State :=
  let x := s.group g
  if x.valid && !x.flight.isEmpty then s.refuse
  else
    match word with
    | 0 => s.modGroup g (fun x =>
        { x with
          valid := v.getLsbD 0, dies := BitVec.ofNat 4 (fieldOf v 1 4), root := BitVec.ofNat 15 (fieldOf v 5 15)
          parent := BitVec.ofNat 7 (fieldOf v 20 7), job := BitVec.ofNat 16 (fieldOf v 27 16) })
    | 1 => s.modGroup g (fun x => { x with child := v })
    | i => if 2 ≤ i && i < 6 then s.modGroup g (fun x => { x with base := x.base.setIfInBounds (i - 2) v }) else s.refuse

/-- A write of a session entry (R319, Table 13.8): while FREE every RW field; otherwise STATE, ERR, ACT and SACT alone. -/
def State.writeSession (s : State) (n word : Nat) (v : W64) : State :=
  let x := s.session n
  let free := x.state = 0
  match word with
  | 0 =>
    let st := fieldOf v 0 3
    if 2 ≤ st then s.refuse
    else if free && st = 1 && fieldOf v 45 19 ≠ 0 then s.refuse
    else
      let s := if v.getLsbD 44 then s.modSession n (fun x => { x with err := false }) else s
      if free then
        let s := s.modSession n (fun x =>
          { x with
            mode := BitVec.ofNat 2 (fieldOf v 3 2), op := BitVec.ofNat 3 (fieldOf v 5 3), ifmt := BitVec.ofNat 4 (fieldOf v 8 4)
            ofmt := BitVec.ofNat 4 (fieldOf v 12 4), anchor := BitVec.ofNat 10 (fieldOf v 16 10), root := v.getLsbD 26
            outmc := v.getLsbD 27, job := BitVec.ofNat 16 (fieldOf v 28 16) })
        if st = 1 then after (execSessionOpen n s) s else s
      else if st = 0 then after (execSessionClose n s) s
      else s.refuse
  | 1 =>
    if free then s.modSession n (fun x => { x with nleaf := BitVec.ofNat 17 v.toNat, nelem := BitVec.ofNat 15 (fieldOf v 17 15) })
    else s.refuse
  | 2 =>
    let act := fieldOf v 39 3
    if 3 ≤ act || (!free && act = 0) then s.refuse
    else if free then
      s.modSession n (fun x =>
        { x with timeout := v.truncate 32, parent := BitVec.ofNat 7 (fieldOf v 32 7), outgrp := BitVec.ofNat 10 (fieldOf v 42 10) })
    else if !x.root then s.refuse
    else if act = 1 then after (execRecontrib ⟨n, x.wireFields, x.wireShape⟩ s) s
    else after (execExclude n s) s
  | 3 => if free then s.modSession n (fun x => { x with child := v }) else s.refuse
  | 4 => if free then s.modSession n (fun x => { x with outa := v }) else s.refuse
  | 5 => if free then s.modSession n (fun x => { x with outsync := v }) else s.refuse
  | 6 => if free then s.modSession n (fun x => { x with stata := v }) else s.refuse
  | i =>
    if 8 ≤ i && i < 24 then
      let act := fieldOf v 24 2
      if act = 3 || (!free && act = 0) then s.refuse
      else if free then
        s.modSession n (fun x => x.modSlot (i - 8) (fun c =>
          { c with leaf := BitVec.ofNat 17 v.toNat, lvl := BitVec.ofNat 4 (fieldOf v 17 4), valid := v.getLsbD 21 }))
      else if act = 1 then after (execWithdraw n (i - 8) s) s
      else after (execReopen n (i - 8) s) s
    else s.refuse

/-- A write of heat, power or error registers (R344, R386, R389). -/
def State.writePlatform (s : State) (inst word : Nat) (v : W64) : State :=
  if inst ≤ 5 && word = 1 then
    let w := fieldOf v 0 16
    if w < 960 || 1600 < w then s.refuse else s.modTherm inst (fun t => { t with warn := BitVec.ofNat 16 w })
  else if inst = 0x20 && word = 0 then
    let t := fieldOf v 0 12
    let c := fieldOf v 12 12
    let m := fieldOf v 24 2
    if (t ≠ 0 && t < 500) || 2800 < t || c < 500 || 2800 < c || m = 3 then s.refuse
    else { s with power := { s.power with target := BitVec.ofNat 12 t, cap := BitVec.ofNat 12 c, mode := BitVec.ofNat 2 m } }
  else if inst = 0x20 && word = 2 then { s with power := { s.power with evsync := v } }
  else if 0x100 ≤ inst && word = 1 then s.modErrors (inst - 0x100) (fun e => { e with cethr := v.truncate 32 })
  else s.refuse

/-- A catalogue write (R38): what no field accepts, and reserved values, are refused and counted. -/
def State.catWrite (s : State) (key v : W64) : State :=
  let k := keyOf key
  if k.pkg ≠ s.pkg || (s.keyWord key).isNone then s.refuse
  else
    match k.cls with
    | 0x00 => (match s.seqOf (BitVec.ofNat 24 k.inst) with
      | some q => s.writeSeqWord q k.word v
      | none => s.refuse)
    | 0x01 => if k.word = 5 then after (execCoreRetire (48 * k.die + k.inst) (v.getLsbD 10) s) s else s.refuse
    | 0x06 =>
      if k.word ≠ 3 then s.refuse
      else
        (match v.toNat % 4 with
        | 1 => after (execChannelResume k.die k.inst s) s
        | 2 => after (execChannelDrop k.die k.inst s) s
        | 3 => after (execChannelKill k.die k.inst s) s
        | _ => s.refuse)
    | 0x07 => s.writeTrans k.die k.inst k.word v
    | 0x08 => s.writeQueue k.die k.inst k.word v
    | 0x09 => s.writeStore (48 * k.die + k.inst / 16384) (k.inst % 16384) k.word v
    | 0x10 => s.writeColl k.inst k.word v
    | 0x11 => if k.word = 2 then after (execCountWrite k.inst (v.truncate 32) s) s else s.refuse
    | 0x12 => s.writeGroup k.inst k.word v
    | 0x14 => s.writeSession k.inst k.word v
    | 0x15 =>
      (match k.word with
      | 0 => s.writeDis k.inst (v.getLsbD 25)
      | 1 => s.modPort k.inst (fun p => { p with cethr := v.truncate 16, rtthr := BitVec.ofNat 16 (fieldOf v 16 16) })
      | _ => s.refuse)
    | 0x16 => if k.inst = 25 then s.refuse else after (execWlWrite (k.inst / 5) (k.inst % 5) (v.truncate 8) s) s
    | 0x17 => s.writePlatform k.inst k.word v
    | 0x18 => { s with wcoll := v.truncate 8, wprog := BitVec.ofNat 8 (v.toNat / 256) }
    | _ => s.refuse

/-- A catalogue or supervisor write of a register (R38). -/
def execRegisterWrite (key v : W64) (s : State) : Out := .next (s.catWrite key v)

end Sys2Proof.Machine
end

