-- ==== Sys2Proof/Machine/Host.lean ====
section
/-!
DEFINITION. The host port (spec/18_platform.md R379 to R385): datagrams, connections, and the operations of the host
protocol.
-/

namespace Sys2Proof.Machine

/-! ### Datagrams (R379, R380) -/

/-- The device listens at the datagram's destination: UDP port 47,480 at one of its addresses (R379). -/
def State.listens (s : State) (d : Datagram) : Bool := d.dstPort = 47480 && s.listen.contains d.dstAddr

/-- A datagram is not dropped: its source is allowed, VER is 1, LEN agrees with the UDP length, reserved bits are zero
(R379). In recovery without an accepted configuration there is no allow table to ask (DESIGN CHOICE, log entry 52). -/
def State.admits (s : State) (d : Datagram) : Bool :=
  (s.allowAll || s.allow.contains d.srcAddr) && d.ver = 1 && d.len.toNat = d.payload.length && d.udpLen = 32 + d.len.toNat
    && d.rsvd0 = 0 && d.rsvd1 = 0

/-- A dropped datagram is counted (R379). -/
def State.dropDatagram (s : State) : State := { s with dropped := s.dropped + 1 }

/-- An unsequenced REPLY to a datagram (R381). -/
def State.plainReply (s : State) (d : Datagram) (status : Byte) : State :=
  let c := s.conn d.conn.toNat
  s.emit (.host { c.datagram d.conn.toNat 10 0 status d.tag [] with
    srcAddr := d.dstAddr, srcPort := d.dstPort, dstAddr := d.srcAddr, dstPort := d.srcPort })

/-- A connection is closed: what it holds ahead is discarded; replies of its earlier submissions go nowhere (R381). -/
def State.closeConn (s : State) (n : Nat) : State :=
  { s.modConn n (fun _ => .reset) with
    submissions := s.submissions.map (fun (x : Submission) => if x.conn = n then { x with conn := 64 } else x) }

/-- a precedes b in serial order. -/
def seqBefore (a b : W32) : Bool := decide (0 < (b - a).toNat) && decide ((b - a).toNat < 2 ^ 31)

/-- A datagram of the device that the host has received, by ACKSEQ and SACK. -/
def hasReceived (d : Datagram) (q : W32) : Bool :=
  seqBefore q d.ackseq || (decide ((q - d.ackseq - 1).toNat < 64) && d.sack.getLsbD (q - d.ackseq - 1).toNat)

/-- Sends a device datagram again with the present ACKSEQ and SACK; the sender closes the connection instead of a
seventeenth time (R380). -/
def State.retransmit (s : State) (n : Nat) (q : W32) : State :=
  let c := s.conn n
  match (c.unacked.take 64).find? (fun u => u.1 = q) with
  | none => s
  | some (_, k, d) =>
    if 16 ≤ k then s.closeConn n
    else
      (s.modConn n (fun c => { c with unacked := c.unacked.map (fun u => if u.1 = q then (u.1, u.2.1 + 1, u.2.2) else u) })).emit
        (.host { d with ackseq := c.expect, sack := c.sack })

/-- What the host has received is no longer kept; datagrams that waited for one of the 64 places are sent; a datagram with
three later ones received is sent again at once (R380). -/
def State.takeAck (s : State) (n : Nat) (d : Datagram) : State :=
  let c := s.conn n
  let sent := (c.unacked.take 64).map Prod.fst
  let left := c.unacked.filter (fun u => !hasReceived d u.1)
  let s := s.modConn n (fun c => { c with unacked := left })
  let s := (left.take 64).foldl (fun s u =>
    if sent.contains u.1 then s else s.emit (.host { u.2.2 with ackseq := c.expect, sack := c.sack })) s
  (left.take 64).foldl (fun s u =>
    let later := (List.range 64).filter (fun i => d.sack.getLsbD i && seqBefore u.1 (d.ackseq + 1 + BitVec.ofNat 32 i))
    if sent.contains u.1 && decide (3 ≤ later.length) && (s.conn n).isOpen then s.retransmit n u.1 else s) s

/-! ### The operations (Table 18.2) -/

/-- A host access fails at the source: the connection freezes with its record, and the request is answered FROZEN (R382,
R343). -/
def State.freezeConn (s : State) (n : Nat) (tag : W64) (code : BitVec 8) (va : W64) : State :=
  ((s.modConn n (fun c => { c with frozen := true })).post 0 (mkRec 3 code (BitVec.ofNat 32 (2 ^ 30 + n)) 0 va 0)).reply n 6 tag []

/-- The status that reports a fault found at a destination. -/
def statusOf (code : BitVec 8) : Byte := if code = cXlate then 2 else if code = cPerm then 3 else 1

/-- The bytes of translated pieces at their homes, or the code of the failure; another package's bytes are the
environment's (log entry 15). -/
def State.hostRead (s : State) (w : Who) : List (W64 × Nat × Xlat) → Except (BitVec 8) (List Byte)
  | [] => .ok []
  | (va, n, x) :: ps =>
    match s.hostRead w ps with
    | .error c => .error c
    | .ok rest =>
      if x.pkg ≠ s.pkg then .ok ((List.range n).map (fun i => Config.farByte s.freeCtr (va.toNat + i)) ++ rest)
      else
        match s.homeOf w.die w.sup .load x.via x.addr with
        | .error c => .error c
        | .ok h => if !isSession h.place && s.poisoned h.place n then .error cPoison else .ok (s.bytesAt h.place n ++ rest)

/-- MREAD (R382). -/
def State.doMread (s : State) (n : Nat) (d : Datagram) : State :=
  let va : W64 := BitVec.ofNat 64 (ofBytes (d.payload.take 8))
  let len := ofBytes ((d.payload.drop 8).take 4)
  let w := hostWho (s.conn n).asid
  if d.payload.length ≠ 12 || 8192 < len then s.reply n 5 d.tag []
  else
    match s.translateRange w .load va len with
    | .error (c, a) => s.freezeConn n d.tag c a
    | .ok ps =>
      let s := s.noteAll w .load (linePieces (len / 128 + 2) va len)
      match s.hostRead w ps with
      | .error c => s.reply n (statusOf c) d.tag []
      | .ok bs => s.reply n 0 d.tag bs

/-- Writes the pieces of an MWRITE, which has a number: how many are parked, held, or on their way to another package. -/
def State.hostPieces (s : State) (n req : Nat) : List (W64 × Nat) → List Byte → Nat → State × Nat
  | [], _, k => (s, k)
  | (va, m) :: ps, bs, k =>
    let p : HostPart :=
      { conn := n, req := req, asid := (s.conn n).asid, bytes := (bs.take m).zipIdx.map (fun b => (va + BitVec.ofNat 64 b.2, b.1)) }
    match s.hostPiece p with
    | .waits s => s.hostPieces n req ps (bs.drop m) (k + 1)
    | .done s => s.hostPieces n req ps (bs.drop m) k
    | .fault c die => (s.parkHost p c die).hostPieces n req ps (bs.drop m) (k + 1)

/-- MWRITE of at most 8,184 bytes (R379, R382): a part that is not committed keeps later requests waiting. -/
def State.doMwrite (s : State) (n : Nat) (d : Datagram) : State :=
  let va : W64 := BitVec.ofNat 64 (ofBytes (d.payload.take 8))
  let bs := d.payload.drop 8
  let w := hostWho (s.conn n).asid
  if d.payload.length < 8 || 8184 < bs.length then s.reply n 5 d.tag []
  else
    match s.translateRange w .store va bs.length with
    | .error (c, a) => s.freezeConn n d.tag c a
    | .ok ps =>
      let req := s.orderNext
      match ({ s with orderNext := req + 1 }.touchAll w (ps.map Prod.fst)).hostPieces n req
          (linePieces (bs.length / 128 + 2) va bs.length) bs 0 with
      | (s, 0) => s.reply n 0 d.tag []
      | (s, k) => s.modConn n (fun c => { c with writing := some (req, d.tag, k, false) })

/-- SUBMIT: the card waits for the package scheduler (R245, R383). One whose payload is not a card and a flags word is refused as
unreadable, reason 3 (DESIGN CHOICE, log entry 46). -/
def State.doSubmit (s : State) (n : Nat) (d : Datagram) : State :=
  let restore := (d.payload[256]?.getD 0).getLsbD 0
  if d.payload.length ≠ 264 then s.reply n 1 d.tag (leBytes 3 2)
  else if restore && !(s.conn n).sup then s.reply n 5 d.tag []
  else
    let c := s.conn n
    let order := ((c.orders.find? (fun e => e.1 = d.seq)).map Prod.snd).getD s.orderNext
    { s.modConn n (fun c => { c with orders := c.orders.filter (fun e => e.1 ≠ d.seq) }) with
      orderNext := s.orderNext + 1
      submissions := s.submissions ++ [{ num := s.orderNext, order := order, conn := n, tag := d.tag, asid := c.asid,
                                         card := cardOf (d.payload.take 256), restore := restore, taken := none }] }

/-- Bits packed into words, 64 to a word. -/
def bitWords (bs : List Bool) : List Byte :=
  (List.range ((bs.length + 63) / 64)).flatMap (fun i =>
    leBytes (packNat 1 (fun b => bitOf (bs[64 * i + b]?.getD false)) 64) 8)

/-- Reads keys in order: words and absent bits. A key of another package is served there (log entry 15). -/
def State.readKeys (s : State) : List W64 → List (Option W64) × State
  | [] => ([], s)
  | k :: ks =>
    let (v, s) := if (keyOf k).pkg = s.pkg then s.catRead k else (some (Config.catWord s.freeCtr k), s)
    let (vs, s) := s.readKeys ks
    (v :: vs, s)

/-- CATREAD (R37, R379). -/
def State.doCatread (s : State) (n : Nat) (d : Datagram) : State :=
  if d.payload.length % 8 ≠ 0 || 1008 < d.payload.length / 8 then s.reply n 5 d.tag []
  else
    let (vs, s) := s.readKeys (wordsOf d.payload (d.payload.length / 8))
    s.reply n 0 d.tag (vs.flatMap (fun v => leBytes (v.getD 0).toNat 8) ++ bitWords (vs.map Option.isNone))

/-- Writes pairs in order: whether each was accepted (R38). -/
def State.writePairs (s : State) : List (W64 × W64) → List Bool × State
  | [] => ([], s)
  | (k, v) :: ps =>
    let t := s.catWrite k v
    let (bs, u) := t.writePairs ps
    ((t.refusedWrites = s.refusedWrites) :: bs, u)

/-- CATWRITE: of a supervisor connection (R38, R379, R380). -/
def State.doCatwrite (s : State) (n : Nat) (d : Datagram) : State :=
  let k := d.payload.length / 16
  if !(s.conn n).sup || d.payload.length % 16 ≠ 0 || 512 < k then s.reply n 5 d.tag []
  else
    let ws := wordsOf d.payload (2 * k)
    let (bs, s) := s.writePairs ((List.range k).map (fun i => (ws[2 * i]?.getD 0, ws[2 * i + 1]?.getD 0)))
    s.reply n 0 d.tag (bitWords bs)

/-- The image that uploaded bytes hold once all of it is there (Table 18.3). -/
def uploaded (u : List (Nat × Byte)) : Option BootImage :=
  let bytes (o n : Nat) : List Byte := (List.range n).map (fun i => tget 0 u (o + i))
  if (u.filter (fun e => decide (e.1 < 64))).length < 64 then none
  else
    let len := ofBytes (bytes 12 4)
    let total := 64 + len + 16608
    if (u.filter (fun e => decide (e.1 < total))).length < total then none
    else some
      { magic := BitVec.ofNat 32 (ofBytes (bytes 0 4)), type := BitVec.ofNat 8 (ofBytes (bytes 4 1)),
        rsvd := BitVec.ofNat 24 (ofBytes (bytes 5 3)), svn := BitVec.ofNat 32 (ofBytes (bytes 8 4)),
        len := BitVec.ofNat 32 len, digest := BitVec.ofNat 384 (ofBytes (bytes 16 48)), body := bytes 64 len,
        sigs := bytes (64 + len) 16608 }

/-- IMAGE: of a supervisor connection; a complete upload is verified, and only an accepted image is written to flash
(R384). -/
def State.doImage (s : State) (n : Nat) (d : Datagram) : State :=
  if !(s.conn n).sup || d.payload.length < 8 then s.reply n 5 d.tag []
  else
    let o := ofBytes (d.payload.take 8)
    let put (u : List (Nat × Byte)) (b : Byte × Nat) : List (Nat × Byte) := tset (o + b.2) b.1 u
    let s := { s with upload := (d.payload.drop 8).zipIdx.foldl put s.upload }
    match uploaded s.upload with
    | none => s.reply n 0 d.tag []
    | some i =>
      let s := { s with upload := [] }
      if imageOk i then { s with flash := s.flash.filter (fun (x : BootImage) => x.type ≠ i.type) ++ [i] }.reply n 0 d.tag []
      else s.reply n 1 d.tag []

/-- ATTEST: the report of R385 with its two signatures (log entry 13). -/
def State.doAttest (s : State) (n : Nat) (d : Datagram) : State :=
  if d.payload.length ≠ 32 then s.reply n 5 d.tag []
  else
    let r := Config.attestReport d.payload Config.deviceIdentity (s.images.map (fun i => (i.digest, i.svn)))
      ((List.range 4).map (fun t => Config.fusedMinSvn (t + 1))) s.ptime s.recovery
    s.reply n 0 d.tag (r ++ Config.attestSignatures r)

/-- A connection whose CLOSE has been answered: nothing more is executed, and its replies are kept until the host has them
(R380, R381). -/
def State.finishConn (s : State) (n : Nat) : State :=
  let c := s.conn n
  (s.closeConn n).modConn n (fun _ =>
    { Conn.reset with
      closing := true, srcAddr := c.srcAddr, srcPort := c.srcPort, ownAddr := c.ownAddr, openSeq := c.openSeq
      expect := c.expect, own := c.own, unacked := c.unacked })

/-- Executes a request of a connection. A frozen connection answers FROZEN; recovery accepts only
CLOSE, IMAGE and ATTEST beside OPEN; any other operation, and a payload of more than 8,192 bytes, is BADOP (R379, R382, R384). -/
def State.runRequest (s : State) (n : Nat) (d : Datagram) : State :=
  if (s.conn n).frozen then s.reply n 6 d.tag []
  else if s.recovery && !(d.op = 2 || d.op = 8 || d.op = 9) then s.reply n 5 d.tag []
  else if 8192 < d.len.toNat then s.reply n 5 d.tag []
  else
    match d.op.toNat with
    | 2 => (s.reply n 0 d.tag []).finishConn n
    | 3 => s.doSubmit n d
    | 4 => s.doMread n d
    | 5 => s.doMwrite n d
    | 6 => s.doCatread n d
    | 7 => s.doCatwrite n d
    | 8 => s.doImage n d
    | 9 => s.doAttest n d
    | _ => s.reply n 5 d.tag []

/-! ### Receiving (R380, R381) -/

/-- The oldest received request not yet executed. -/
def Conn.next (c : Conn) : Option Datagram :=
  (c.ahead.filter (fun d => seqBefore d.seq c.expect)).foldl (fun b d =>
    match b with
    | some x => if seqBefore d.seq x.seq then some d else b
    | none => some d) none

/-- Executes received requests in SEQ order while none waits: a request after an MWRITE waits for its last byte (R382). -/
def State.pump (s : State) (n : Nat) : Nat → State
  | 0 => s
  | k + 1 =>
    let c := s.conn n
    if !c.isOpen || c.writing.isSome then s
    else
      match c.next with
      | none => s
      | some d =>
        ((s.modConn n (fun c => { c with ahead := c.ahead.filter (fun x => x.seq ≠ d.seq) })).runRequest n d).pump n k

/-- The expected sequence passes what has been received. -/
def Conn.advanceTo : Nat → Conn → Conn
  | 0, c => c
  | k + 1, c => if c.ahead.any (fun d => d.seq = c.expect) then Conn.advanceTo k { c with expect := c.expect + 1 } else c

/-- The receiver takes a sequenced datagram: the one it expects, or one of up to 64 that lie ahead (R380). -/
def Conn.takes (c : Conn) (d : Datagram) : Bool :=
  d.seq = c.expect || (seqBefore c.expect d.seq && decide ((c.ahead.filter (fun x => seqBefore c.expect x.seq)).length < 64)
    && !c.ahead.any (fun x => x.seq = d.seq))

/-- A sequenced datagram of an open connection is held, or dropped; an old one only calls for an ACK (R380). A SUBMIT that is
taken, and so acknowledged, has its place in the order of acceptance (R245). -/
def State.sequenced (s : State) (n : Nat) (d : Datagram) : State :=
  let take := (s.conn n).takes d
  let ranked := take && d.op = 3
  let order := s.orderNext
  let s := { s with orderNext := if ranked then order + 1 else order }.modConn n (fun c =>
    Conn.advanceTo 65
      { c with
        ackDue := true, ahead := if take then c.ahead ++ [d] else c.ahead
        orders := if ranked then c.orders ++ [(d.seq, order)] else c.orders })
  s.pump n 130

/-- OPEN (R381): it opens a closed connection; from the same source it is repeated or replaces the connection; from another
it is BUSY; a frozen connection is FROZEN. -/
def State.openConn (s : State) (d : Datagram) : State :=
  let n := d.conn.toNat
  let c := s.conn n
  let start (s : State) : State :=
    let w := ofBytes (d.payload.take 2)
    (s.modConn n (fun _ =>
      { Conn.reset with
        isOpen := true, asid := BitVec.ofNat 8 w, sup := w / 256 % 2 = 1, srcAddr := d.srcAddr, srcPort := d.srcPort
        ownAddr := d.dstAddr, openSeq := d.seq, expect := d.seq + 1, own := 1 })).reply n 0 d.tag []
  if !c.isOpen then start s
  else if c.frozen then s.plainReply d 6
  else if c.srcAddr ≠ d.srcAddr || c.srcPort ≠ d.srcPort then s.plainReply d 4
  else if c.openSeq = d.seq then s.emit (.host (c.datagram n 10 1 0 d.tag []))
  else start (s.closeConn n)

/-- A datagram of a connection whose CLOSE has been answered, from its own source: what it acknowledges is no longer kept, and
once the host has every reply nothing of the connection is (R380, R381). -/
def State.closingArrive (s : State) (n : Nat) (d : Datagram) : State :=
  let s := s.takeAck n d
  let c := s.conn n
  if c.unacked.isEmpty then s.modConn n (fun _ => .reset)
  else if d.op = 11 then s
  else if seqBefore d.seq c.expect then s.modConn n (fun c => { c with ackDue := true })
  else s.plainReply d 5

/-- A datagram arrives at the host port (R379 to R381). -/
def State.hostArrive (s : State) (d : Datagram) : State :=
  let n := d.conn.toNat
  let c := s.conn n
  if !s.listens d then s
  else if !s.admits d then s.dropDatagram
  else if d.op = 1 then s.openConn d
  else if c.closing && c.srcAddr = d.srcAddr && c.srcPort = d.srcPort then s.closingArrive n d
  else if !c.isOpen then s.plainReply d 5
  else if c.srcAddr ≠ d.srcAddr || c.srcPort ≠ d.srcPort then s.plainReply d 4
  else
    let s := s.takeAck n d
    if d.op = 11 then s.pump n 130 else if (s.conn n).isOpen then s.sequenced n d else s

/-- A datagram that an event of one operation carries. -/
def State.hostOp (s : State) (op : Byte) (d : Datagram) : State := if d.op = op then s.hostArrive d else s

/-- OPEN (R381). -/
def execHostOpen (d : Datagram) (s : State) : Out := .next (s.hostOp 1 d)
/-- CLOSE: executed in SEQ order; its REPLY is the last of the connection (R381). -/
def execHostClose (d : Datagram) (s : State) : Out := .next (s.hostOp 2 d)
/-- SUBMIT (R383). -/
def execHostSubmit (d : Datagram) (s : State) : Out := .next (s.hostOp 3 d)
/-- MREAD (R382). -/
def execHostMread (d : Datagram) (s : State) : Out := .next (s.hostOp 4 d)
/-- MWRITE (R382). -/
def execHostMwrite (d : Datagram) (s : State) : Out := .next (s.hostOp 5 d)
/-- CATREAD (R37, R379). -/
def execHostCatread (d : Datagram) (s : State) : Out := .next (s.hostOp 6 d)
/-- CATWRITE (R38, R379). -/
def execHostCatwrite (d : Datagram) (s : State) : Out := .next (s.hostOp 7 d)
/-- IMAGE (R384). -/
def execHostImage (d : Datagram) (s : State) : Out := .next (s.hostOp 8 d)
/-- ATTEST (R385). -/
def execHostAttest (d : Datagram) (s : State) : Out := .next (s.hostOp 9 d)
/-- ACK: unsequenced; what it acknowledges is no longer kept (R380). -/
def execHostAck (d : Datagram) (s : State) : Out := .next (s.hostOp 11 d)

/-- The retransmission timer of a device datagram expires: it is sent again, or the connection closes after sixteen times
(R380). -/
def execRetransmitTimeout (conn : BitVec 6) (seq : W32) (s : State) : Out := .next (s.retransmit conn.toNat seq)

/-- 10 µs have passed since an arrival that triggered no REPLY: an ACK is sent (R380). -/
def execAckTimer (conn : BitVec 6) (s : State) : Out :=
  .next (
    let n := conn.toNat
    let c := s.conn n
    if (c.isOpen || c.closing) && c.ackDue then
      (s.modConn n (fun c => { c with ackDue := false })).emit (.host (c.datagram n 11 0 0 0 []))
    else s)

/-- A datagram that R379 drops is counted; one whose OP is none of Table 18.2's is answered BADOP. -/
def execDatagramDrop (d : Datagram) (s : State) : Out :=
  .next (
    if !s.listens d then s
    else if !s.admits d then s.dropDatagram
    else if d.op = 0 || d.op = 10 || decide (11 < d.op.toNat) then s.hostArrive d
    else s)

end Sys2Proof.Machine
end

