-- ==== Sys2Proof/Machine/Scalar.lean ====
section
/-!
DEFINITION. The scalar, address and predicate instructions (spec/04_scalar_and_control.md R86 to R96, R111).
-/

namespace Sys2Proof.Machine

/-! ### Shared forms -/

/-- A form on two g registers; the result carries the union of their masks (R87). -/
def State.alu2 (s : State) (d a b : BitVec 5) (f : W32 → W32 → W32) : State :=
  s.wg d (f (s.rg a).val (s.rg b).val) ((s.rg a).taint ||| (s.rg b).taint)

/-- A form on one g register. -/
def State.alu1 (s : State) (d a : BitVec 5) (f : W32 → W32) : State := s.wg d (f (s.rg a).val) (s.rg a).taint

/-- A comparison: every bit of the predicate is the condition (R92). -/
def State.cmp (s : State) (k : BitVec 3) (a b : BitVec 5) (c : W32 → W32 → Bool) : State :=
  s.wk k (if c (s.rg a).val (s.rg b).val then BitVec.allOnes 64 else 0) ((s.rg a).taint ||| (s.rg b).taint)

/-- A form on two predicates (R96). -/
def State.pred2 (s : State) (d a b : BitVec 3) (f : W64 → W64 → W64) : State :=
  s.wk d (f (s.rk a).val (s.rk b).val) ((s.rk a).taint ||| (s.rk b).taint)

/-- A form on one predicate. -/
def State.pred1 (s : State) (d a : BitVec 3) (f : W64 → W64) : State := s.wk d (f (s.rk a).val) (s.rk a).taint

/-- The number of leading zeros of the n low bits. -/
def leadZeros (a : W32) : Nat → Nat
  | 0 => 0
  | n + 1 => if a.getLsbD n then 0 else 1 + leadZeros a n

/-- The number of trailing zeros of the n bits from i. -/
def trailZeros (a : W32) (i : Nat) : Nat → Nat
  | 0 => 0
  | n + 1 => if a.getLsbD i then 0 else 1 + trailZeros a (i + 1) n

/-- The number of one bits among the n low bits. -/
def popCount (a : W32) : Nat → Nat
  | 0 => 0
  | n + 1 => (if a.getLsbD n then 1 else 0) + popCount a n

/-- The signed quotient of R91. -/
def divS (a b : W32) : W32 :=
  if b = 0 then 0xFFFFFFFF
  else if a = 0x80000000 && b = 0xFFFFFFFF then 0x80000000
  else BitVec.ofInt 32 (a.toInt.tdiv b.toInt)

/-- The signed remainder of R91; its sign follows a. -/
def remS (a b : W32) : W32 :=
  if b = 0 then a
  else if a = 0x80000000 && b = 0xFFFFFFFF then 0
  else BitVec.ofInt 32 (a.toInt.tmod b.toInt)

/-- The unsigned quotient of R91. -/
def divU (a b : W32) : W32 := if b = 0 then 0xFFFFFFFF else BitVec.ofNat 32 (a.toNat / b.toNat)

/-- The unsigned remainder of R91. -/
def remU (a b : W32) : W32 := if b = 0 then a else BitVec.ofNat 32 (a.toNat % b.toNat)

/-- A shift or rotate amount: b[4:0] (R90). -/
def shAmt (b : W32) : Nat := b.toNat % 32

/-- The 64-bit word with the given halves. -/
def joinHalves (lo hi : W32) : W64 := hi ++ lo

/-! ### Register to register (R90 to R92) -/

/-- `add` (R90). -/
def execAdd (d a b : BitVec 5) (s : State) : Out := .next (s.alu2 d a b (fun x y => x + y))

/-- `sub` (R90). -/
def execSub (d a b : BitVec 5) (s : State) : Out := .next (s.alu2 d a b (fun x y => x - y))

/-- `mul` (R90). -/
def execMul (d a b : BitVec 5) (s : State) : Out := .next (s.alu2 d a b (fun x y => x * y))

/-- `mulh` (R90). -/
def execMulh (d a b : BitVec 5) (s : State) : Out :=
  .next (s.alu2 d a b (fun x y => BitVec.ofInt 32 (x.toInt * y.toInt / 2 ^ 32)))

/-- `mulhn` (R90). -/
def execMulhn (d a b : BitVec 5) (s : State) : Out :=
  .next (s.alu2 d a b (fun x y => BitVec.ofNat 32 (x.toNat * y.toNat / 2 ^ 32)))

/-- `div` (R91). -/
def execDiv (d a b : BitVec 5) (s : State) : Out := .next (s.alu2 d a b divS)

/-- `divn` (R91). -/
def execDivn (d a b : BitVec 5) (s : State) : Out := .next (s.alu2 d a b divU)

/-- `rem` (R91). -/
def execRem (d a b : BitVec 5) (s : State) : Out := .next (s.alu2 d a b remS)

/-- `remn` (R91). -/
def execRemn (d a b : BitVec 5) (s : State) : Out := .next (s.alu2 d a b remU)

/-- `and` (R90). -/
def execAnd (d a b : BitVec 5) (s : State) : Out := .next (s.alu2 d a b (fun x y => x &&& y))

/-- `or` (R90). -/
def execOr (d a b : BitVec 5) (s : State) : Out := .next (s.alu2 d a b (fun x y => x ||| y))

/-- `xor` (R90). -/
def execXor (d a b : BitVec 5) (s : State) : Out := .next (s.alu2 d a b (fun x y => x ^^^ y))

/-- `shl` (R90). -/
def execShl (d a b : BitVec 5) (s : State) : Out := .next (s.alu2 d a b (fun x y => x <<< shAmt y))

/-- `shr` (R90). -/
def execShr (d a b : BitVec 5) (s : State) : Out := .next (s.alu2 d a b (fun x y => x >>> shAmt y))

/-- `sra` (R90). -/
def execSra (d a b : BitVec 5) (s : State) : Out := .next (s.alu2 d a b (fun x y => x.sshiftRight (shAmt y)))

/-- `rotl` (R90). -/
def execRotl (d a b : BitVec 5) (s : State) : Out := .next (s.alu2 d a b (fun x y => x.rotateLeft (shAmt y)))

/-- `clz` (R90). -/
def execClz (d a : BitVec 5) (s : State) : Out := .next (s.alu1 d a (fun x => BitVec.ofNat 32 (leadZeros x 32)))

/-- `ctz` (R90). -/
def execCtz (d a : BitVec 5) (s : State) : Out := .next (s.alu1 d a (fun x => BitVec.ofNat 32 (trailZeros x 0 32)))

/-- `popc` (R90). -/
def execPopc (d a : BitVec 5) (s : State) : Out := .next (s.alu1 d a (fun x => BitVec.ofNat 32 (popCount x 32)))

/-- `min` (R90). -/
def execMin (d a b : BitVec 5) (s : State) : Out := .next (s.alu2 d a b (fun x y => if y.slt x then y else x))

/-- `max` (R90). -/
def execMax (d a b : BitVec 5) (s : State) : Out := .next (s.alu2 d a b (fun x y => if x.slt y then y else x))

/-- `minn` (R90). -/
def execMinn (d a b : BitVec 5) (s : State) : Out := .next (s.alu2 d a b (fun x y => if y.ult x then y else x))

/-- `maxn` (R90). -/
def execMaxn (d a b : BitVec 5) (s : State) : Out := .next (s.alu2 d a b (fun x y => if x.ult y then y else x))

/-- `mov` (R90). -/
def execMov (d a : BitVec 5) (s : State) : Out := .next (s.alu1 d a (fun x => x))

/-- `sel`: bit 0 of the predicate selects; the masks of both operands and of the predicate join (R87, R89, R90). -/
def execSel (d a b : BitVec 5) (p : BitVec 3) (s : State) : Out :=
  .next (s.wg d (if (s.rk p).val.getLsbD 0 then (s.rg a).val else (s.rg b).val)
    ((s.rg a).taint ||| (s.rg b).taint ||| (s.rk p).taint))

/-- `cmp.eq` (R92). -/
def execCmpEq (k : BitVec 3) (a b : BitVec 5) (s : State) : Out := .next (s.cmp k a b (fun x y => x == y))

/-- `cmp.ne` (R92). -/
def execCmpNe (k : BitVec 3) (a b : BitVec 5) (s : State) : Out := .next (s.cmp k a b (fun x y => x != y))

/-- `cmp.lt` (R92). -/
def execCmpLt (k : BitVec 3) (a b : BitVec 5) (s : State) : Out := .next (s.cmp k a b (fun x y => x.slt y))

/-- `cmp.le` (R92). -/
def execCmpLe (k : BitVec 3) (a b : BitVec 5) (s : State) : Out := .next (s.cmp k a b (fun x y => x.sle y))

/-- `cmp.ltn` (R92). -/
def execCmpLtn (k : BitVec 3) (a b : BitVec 5) (s : State) : Out := .next (s.cmp k a b (fun x y => x.ult y))

/-- `cmp.len` (R92). -/
def execCmpLen (k : BitVec 3) (a b : BitVec 5) (s : State) : Out := .next (s.cmp k a b (fun x y => x.ule y))

/-! ### Immediate forms (R93) -/

/-- `addi` (R93). -/
def execAddi (d a : BitVec 5) (i : BitVec 14) (s : State) : Out := .next (s.alu1 d a (fun x => x + i.signExtend 32))

/-- `andi` (R93). -/
def execAndi (d a : BitVec 5) (i : BitVec 14) (s : State) : Out := .next (s.alu1 d a (fun x => x &&& i.zeroExtend 32))

/-- `ori` (R93). -/
def execOri (d a : BitVec 5) (i : BitVec 14) (s : State) : Out := .next (s.alu1 d a (fun x => x ||| i.zeroExtend 32))

/-- `xori` (R93). -/
def execXori (d a : BitVec 5) (i : BitVec 14) (s : State) : Out := .next (s.alu1 d a (fun x => x ^^^ i.zeroExtend 32))

/-- `shli` (R93). -/
def execShli (d a n : BitVec 5) (s : State) : Out := .next (s.alu1 d a (fun x => x <<< n.toNat))

/-- `shri` (R93). -/
def execShri (d a n : BitVec 5) (s : State) : Out := .next (s.alu1 d a (fun x => x >>> n.toNat))

/-- `srai` (R93). -/
def execSrai (d a n : BitVec 5) (s : State) : Out := .next (s.alu1 d a (fun x => x.sshiftRight n.toNat))

/-- `lhi` (R93). -/
def execLhi (d : BitVec 5) (i : BitVec 19) (s : State) : Out := .next (s.wg d (i.zeroExtend 32 <<< 13) 0)

/-! ### Address bases (R94, R95) -/

/-- `addb` (R94). -/
def execAddb (d a : BitVec 3) (b : BitVec 5) (s : State) : Out :=
  .next (s.wb d ((s.rb a).val + (s.rg b).val.signExtend 64) ((s.rb a).taint ||| (s.rg b).taint))

/-- `movb` (R94). -/
def execMovb (d : BitVec 3) (a b : BitVec 5) (s : State) : Out :=
  .next (s.wb d (joinHalves (s.rg a).val (s.rg b).val) ((s.rg a).taint ||| (s.rg b).taint))

/-- `spb`: the window base of lot g[a] of the sequencer's own allocation, or PERM (R95, R330). -/
def execSpb (d : BitVec 3) (a : BitVec 5) (s : State) : Out :=
  let n := (s.rg a).val.toNat
  let lots := ((s.jobOf s.ctx.job).map Job.lots).getD 0
  if lots ≤ n then .next (s.raise cPerm 0)
  else .next (s.wb d (lotWindow s.ctx.index.toNat n) (s.rg a).taint)

/-- `movb.lo` (R94). -/
def execMovbLo (d : BitVec 5) (a : BitVec 3) (s : State) : Out :=
  .next (s.wg d ((s.rb a).val.extractLsb' 0 32) (s.rb a).taint)

/-- `movb.hi` (R94). -/
def execMovbHi (d : BitVec 5) (a : BitVec 3) (s : State) : Out :=
  .next (s.wg d ((s.rb a).val.extractLsb' 32 32) (s.rb a).taint)

/-! ### Predicates (R96) -/

/-- `kand` (R96). -/
def execKand (d a b : BitVec 3) (s : State) : Out := .next (s.pred2 d a b (fun x y => x &&& y))

/-- `kor` (R96). -/
def execKor (d a b : BitVec 3) (s : State) : Out := .next (s.pred2 d a b (fun x y => x ||| y))

/-- `kxor` (R96). -/
def execKxor (d a b : BitVec 3) (s : State) : Out := .next (s.pred2 d a b (fun x y => x ^^^ y))

/-- `knot` (R96). -/
def execKnot (d a : BitVec 3) (s : State) : Out := .next (s.pred1 d a (fun x => ~~~x))

/-- `kmov` (R96). -/
def execKmov (d a : BitVec 3) (s : State) : Out := .next (s.pred1 d a (fun x => x))

/-- `kfrom` (R96). -/
def execKfrom (d : BitVec 3) (a b : BitVec 5) (s : State) : Out :=
  .next (s.wk d (joinHalves (s.rg a).val (s.rg b).val) ((s.rg a).taint ||| (s.rg b).taint))

/-- `kto.lo` (R96). -/
def execKtoLo (d : BitVec 5) (a : BitVec 3) (s : State) : Out :=
  .next (s.wg d ((s.rk a).val.extractLsb' 0 32) (s.rk a).taint)

/-- `kto.hi` (R96). -/
def execKtoHi (d : BitVec 5) (a : BitVec 3) (s : State) : Out :=
  .next (s.wg d ((s.rk a).val.extractLsb' 32 32) (s.rk a).taint)

/-- `nop` (R111). -/
def execNop (s : State) : Out := .next s

end Sys2Proof.Machine
end

