-- ==== Sys2Proof/Machine/Uops.lean ====
section
/-!
DEFINITION. The micro-ops of matrix routines (spec/11_matrix_engine.md R267 to R278). A micro-op acts on the routine that
runs on core `s.curCore`; while a wait of R273 or an empty line holds it, the step changes nothing.
-/

namespace Sys2Proof.Machine

/-! ### The running call -/

/-- The position after a word: the innermost loop that ends there starts its next pass or is left (R276). -/
def closeLoops (p : Nat) : List UopLoop → Nat × List UopLoop
  | [] => (p, [])
  | l :: ls =>
    if p ≤ l.last then (p, l :: ls)
    else if 1 < l.left then (l.first, { l with left := l.left - 1 } :: ls)
    else closeLoops p ls

/-- The routine goes on at word p, past a LOADB there that filled the shadow buffer early; after its last word it is done
(R273). -/
def State.goUop (s : State) (p : Nat) (loops : List UopLoop) : State :=
  s.modRoutine s.curCore (fun r =>
    let (p, ls) := closeLoops p loops
    let here := r.ahead = some p
    let (p, ls) := if here then closeLoops (p + 1) ls else (p, ls)
    { r with pos := p, loops := ls, rows := 0, begun := false, ahead := if here then none else r.ahead
             done := decide (((s.coreOf s.curCore).entry r.args.routine).length.toNat ≤ p) })

/-- The micro-op is done. -/
def State.uopDone (s : State) : State :=
  match (s.coreOf s.curCore).routine with
  | none => s
  | some r => s.goUop (r.pos + 1) r.loops

/-- Runs a micro-op of the routine of `s.curCore` with its caller; a stopped or done routine runs nothing. -/
def State.uop (s : State) (go : Routine → Seqr → State → State) : State :=
  match (s.coreOf s.curCore).routine, (s.coreOf s.curCore).mq.head? with
  | some r, some m =>
    if r.stopped.isSome || r.done then s
    else
      match s.seqOf m.handle with
      | none => s
      | some q => go r q s
  | _, _ => s

/-- The running routine stops with a cause (R191). -/
def State.uopStop (s : State) (code : BitVec 8) : State := s.stopRoutine s.curCore code

/-- The physical tile that a selector names, if the call may write it (WMASK) or, with `ro`, read it (WMASK or RMASK)
(R191, R274, R276). -/
def State.uopTile (s : State) (r : Routine) (q : Seqr) (ts : BitVec 4) (ro : Bool) (go : Nat → State → State) : State :=
  let t := r.args.tileName ts
  match q.tileNo t with
  | some p => if r.args.wmask t || (ro && r.args.rmask t) then go p s else s.uopStop cMatrix
  | none => s.uopStop cMatrix

/-- A contribution to a tile has not landed (R273). -/
def Routine.owes (r : Routine) (t : Nat) : Bool := r.pending.any (fun p => p.tile = t)

/-- The m − 2 of a micro-op: 7 takes the captured mp5[2:0], where 7 again raises FMT_TAG (R274). -/
def Routine.mmOf (r : Routine) (mm : BitVec 3) : Option (BitVec 3) :=
  let v : BitVec 3 := if mm = 7 then BitVec.ofNat 3 ((r.args.mp[5]).toNat) else mm
  if v = 7 then none else some v

/-- The walk of a descriptor: started and checked when the routine first names it (R270, R292). -/
def Routine.walkOf (r : Routine) (d : Nat) : Option Walk :=
  match r.walks.find? (fun w => w.1 = d) with
  | some w => some w.2
  | none =>
    let desc : Vector W64 8 := Vector.ofFn (fun i => r.args.fd[8 * d + i.val]?.getD 0)
    if d < 8 && descOk desc then some (Walk.start desc) else none

/-- Keeps a walk of the routine. -/
def State.keepWalk (s : State) (d : Nat) (w : Walk) : State :=
  s.modRoutine s.curCore (fun r => { r with walks := tset d w r.walks })

/-- The header of a walk as a micro-op expects it (R271): none, or the cause that stops the routine. -/
def headerFault (w : Walk) (swz : BitVec 8) (fmt : BitVec 4) (mm : BitVec 3) : Option (BitVec 8) :=
  if w.swz ≠ swz.toNat then some cSwizzle
  else if w.fmt ≠ fmt.toNat || (fmt = 8 && w.mm ≠ mm.toNat) then some cFmtTag
  else none

/-- The walks that a micro-op takes entries from: DESC, and DESC + 1 of BFP, with headers as expected (R271, R278, R291). -/
def State.uopWalks (s : State) (r : Routine) (desc : BitVec 3) (swz : BitVec 8) (fmt : BitVec 4) (mm : BitVec 3)
    (go : Walk → Option Walk → State → State) : State :=
  match r.walkOf desc.toNat with
  | none => s.uopStop cMatrix
  | some w =>
    match headerFault w swz fmt mm with
    | some c => s.uopStop c
    | none =>
      if fmt ≠ 8 then go w none s
      else
        match r.walkOf (desc.toNat + 1) with
        | none => s.uopStop cMatrix
        | some w' =>
          match headerFault w' swz fmt mm with
          | some c => s.uopStop c
          | none => go w (some w') s

/-! ### Entries -/

/-- The n elements of width b bits that bytes spell. -/
def bitElems (b n : Nat) (bs : List Byte) : List Nat :=
  let v := ofBytes bs
  (List.range n).map (fun i => v / 2 ^ (b * i) % 2 ^ b)

/-- The bits of an element of a feeder format. -/
def elemBits (fmt : BitVec 4) (mm : BitVec 3) : Nat := if fmt = 2 then 16 else if fmt = 8 then mm.toNat + 2 else 8

/-- The depth of one pass, K_p (Table 11.1). -/
def passDepth (fmt : BitVec 4) : Nat := if fmt = 2 then 128 else if fmt = 8 then 2048 else 256

/-- The bytes of a feeder entry (R291). -/
def entrySize (fmt : BitVec 4) (mm : BitVec 3) : Nat := if fmt = 8 then 256 * (mm.toNat + 2) else 256

/-- An entry as taken from its walks: element codes and, for BFP, scale words. -/
structure Entry where
  elems : List Nat
  scales : List W32
  deriving DecidableEq, Repr

/-- Takes the next entry (R270, R271): an exhausted walk stops with MATRIX, an empty line waits, poison stops with POISON,
and a block whose MM2 differs stops with FMT_TAG. -/
inductive Taken where
  | entry (e : Entry) (w : Walk) (w' : Option Walk)
  | wait
  | stop (code : BitVec 8)
  deriving DecidableEq, Repr

/-- The next entry of the walks of a micro-op. -/
def State.takeEntry (s : State) (q : Seqr) (fmt : BitVec 4) (mm : BitVec 3) (w : Walk) (w' : Option Walk) : Taken :=
  let n := entrySize fmt mm
  if w.exhausted n || w'.any (fun x => x.exhausted 256) then .stop cMatrix
  else
    match s.walkRead (s.masterOf q) w n, (w'.map (fun x => s.walkRead (s.masterOf q) x 256)).getD (.bytes []) with
    | .fail c _, _ => .stop (if c = cPoison then cPoison else cMatrix)
    | _, .fail c _ => .stop (if c = cPoison then cPoison else cMatrix)
    | .wait _, _ => .wait
    | _, .wait _ => .wait
    | .bytes bs, .bytes sc =>
      let scales := if fmt = 8 then (bitElems 32 64 sc).map (fun x => BitVec.ofNat 32 x) else []
      if scales.any (fun x => scMM2 x ≠ mm.toNat) then .stop cFmtTag
      else .entry { elems := bitElems (elemBits fmt mm) (passDepth fmt) bs, scales := scales } (w.advance n) (w'.map (fun x => x.advance 256))

/-- A scale word with reserved bits sets NV when it is consumed (R54). -/
def Entry.nv (e : Entry) : Bool := e.scales.any (fun x => scReserved x ≠ 0)

/-- Takes k entries in order: those taken, the walks after them, and what stopped the taking, if anything. -/
def State.takeMany (s : State) (q : Seqr) (fmt : BitVec 4) (mm : BitVec 3) :
    Nat → Walk → Option Walk → List Entry × Walk × Option Walk × Option (Option (BitVec 8))
  | 0, w, w' => ([], w, w', none)
  | k + 1, w, w' =>
    match s.takeEntry q fmt mm w w' with
    | .wait => ([], w, w', some none)
    | .stop c => ([], w, w', some (some c))
    | .entry e w w' =>
      let (es, x) := s.takeMany q fmt mm k w w'
      (e :: es, x)

/-- Keeps both walks of a micro-op. -/
def State.keepWalks (s : State) (desc : BitVec 3) (w : Walk) (w' : Option Walk) : State :=
  let s := s.keepWalk desc.toNat w
  match w' with
  | some x => s.keepWalk (desc.toNat + 1) x
  | none => s

/-- The accesses of k entries taken from the walks of a micro-op (R333, R336). -/
def State.noteWalks (s : State) (q : Seqr) (r : Routine) (desc : BitVec 3) (fmt : BitVec 4) (mm : BitVec 3) (k : Nat) : State :=
  let n := entrySize fmt mm * k
  let main := match r.walkOf desc.toNat with | some w => w.chunks (n + 1) w.place n | none => []
  let scale := match if fmt = 8 then r.walkOf (desc.toNat + 1) else none with
    | some w => w.chunks (256 * k + 1) w.place (256 * k)
    | none => []
  s.noteAll (s.masterOf q) .load (main ++ scale)

/-! ### Tiles and flags -/

/-- The anchor of ZERO and ANCHOR (R276). -/
def CallArgs.anchorOf (a : CallArgs) (am : BitVec 1) (anc : BitVec 10) : BitVec 10 :=
  if am = 1 then (a.mp[anc.toNat % 8]?.getD 0).truncate 10 else anc

/-- `zero` (R276, R192). -/
def execZero (ts : BitVec 4) (kind am : BitVec 1) (anc : BitVec 10) (s : State) : Out :=
  .next (s.uop (fun r q s => s.uopTile r q ts false (fun p s =>
    if r.owes p then s
    else (s.modTile s.curCore p (fun t => t.zeroed (kind = 1) (r.args.anchorOf am anc))).uopDone)))

/-- `anchor` (R276, R192). -/
def execAnchor (ts : BitVec 4) (am : BitVec 1) (anc : BitVec 10) (s : State) : Out :=
  .next (s.uop (fun r q s => s.uopTile r q ts false (fun p s =>
    if (s.tileAt s.curCore p).kind ≠ 1 then s.uopStop cFmtTag
    else if r.owes p then s
    else if !(s.tileAt s.curCore p).poisoned.isEmpty then s.uopStop cPoison
    else (s.modTile s.curCore p (fun t => t.reanchor (r.args.anchorOf am anc))).uopDone)))

/-- ORs flags into those the call accumulates (R62). -/
def State.uopFlags (s : State) (f : BitVec 7) : State :=
  s.modRoutine s.curCore (fun r => { r with flags := r.flags ||| f })

/-- The stationary operand that 128 entries spell: column by column, or, with T = 1, e rows in each entry (R269). -/
def stationaryOf (fmt : BitVec 4) (mm : BitVec 3) (t : Bool) (es : List Entry) : Stationary :=
  { fmt := fmt, mm := mm, scales := es.map Entry.scales
    elems :=
      if t then
        let e := passDepth fmt / 128
        (List.range 128).map (fun n => es.flatMap (fun x => (List.range e).map (fun j => x.elems[128 * j + n]?.getD 0)))
      else es.map Entry.elems }

/-- `loadb` (R269, R271): it fills the shadow buffer once all its entries can be read. -/
def execLoadb (fmt : BitVec 4) (mm : BitVec 3) (swz : BitVec 8) (desc : BitVec 3) (s : State) : Out :=
  .next (s.uop (fun r q s =>
    match r.mmOf mm with
    | none => s.uopStop cFmtTag
    | some m =>
      if fmt = 8 && r.t then s.uopStop cFmtTag
      else
        s.uopWalks r desc swz fmt m (fun w w' s =>
          match s.takeMany q fmt m 128 w w' with
          | (_, _, _, some none) => s
          | (_, _, _, some (some c)) => s.uopStop c
          | (es, w, w', none) =>
            (((s.noteWalks q r desc fmt m 128).keepWalks desc w w').modRoutine s.curCore (fun r =>
              { r with shadow := some (stationaryOf fmt m r.t es)
                       flags := r.flags ||| flagIf (es.any Entry.nv) fNV })).uopDone)))

/-- Two input formats combine (R268). -/
def formatsMeet (a b : BitVec 4) : Bool := a = b || ((a = 3 || a = 4) && (b = 3 || b = 4))

/-- `streama` (R267, R268, R271, R276): each entry read enters the array as a row; the rows before an empty line or an
error have entered (R191). -/
def execStreama (fmt : BitVec 4) (mm : BitVec 3) (swz : BitVec 8) (desc : BitVec 3) (ts : BitVec 4) (row0 nr : BitVec 7)
    (s5 : BitVec 1) (s : State) : Out :=
  .next (s.uop (fun r q s =>
    s.uopTile r q ts false (fun p s =>
      match if r.begun then r.active else r.shadow.or r.active with
      | none => s.uopStop cMatrix
      | some b =>
        if !formatsMeet fmt b.fmt then s.uopStop cFmtTag
        else if (s.tileAt s.curCore p).kind = 0 then s.uopStop cFmtTag
        else
          match r.mmOf mm with
          | none => s.uopStop cFmtTag
          | some m =>
            s.uopWalks r desc swz fmt m (fun w w' s =>
              let left := nr.toNat + 1 - r.rows
              let (es, w, w', out) := s.takeMany q fmt m left w w'
              let rows : List PassRow := (es.zipIdx).map (fun e =>
                { tile := p, row := row0.toNat + r.rows + e.2, s5 := decide (s5 = 1),
                  a := { fmt := fmt, mm := m, elems := [e.1.elems], scales := [e.1.scales] }, b := b })
              let s := ((s.noteWalks q r desc fmt m es.length).keepWalks desc w w').modRoutine s.curCore (fun r =>
                { r with active := some b, shadow := if r.begun then r.shadow else none, begun := true
                         pending := r.pending ++ rows, rows := r.rows + es.length
                         flags := r.flags ||| flagIf (es.any Entry.nv) fNV })
              match out with
              | none => s.uopDone
              | some none => s
              | some (some c) => s.uopStop c))))

/-- The cells of rows r to r + n − 1, in row order and then column order. -/
def cellsOf (r n : Nat) : List Nat := (List.range (128 * n)).map (fun i => 128 * r + i)

/-- Adds the exact values of one tile's cells into another's (R276): the destination and whether NV is set. With TD = TSRC
the source is the destination as it stands. -/
def accCells (same : Bool) (src : Tile) : List Nat → Tile → Bool → Tile × Bool
  | [], t, nv => (t, nv)
  | i :: is, t, nv =>
    let (t, v) := t.addTo i [(if same then t else src).value i]
    accCells same src is t (nv || v)

/-- `acc` (R276, R279). -/
def execAcc (td tsrc : BitVec 4) (row0 nr : BitVec 7) (s : State) : Out :=
  .next (s.uop (fun r q s => s.uopTile r q td false (fun d s => s.uopTile r q tsrc true (fun x s =>
    let src := s.tileAt s.curCore x
    let dst := s.tileAt s.curCore d
    if dst.kind = 0 || dst.kind ≠ src.kind then s.uopStop cFmtTag
    else if r.owes d || r.owes x then s
    else if src.poisonIn row0.toNat (nr.toNat + 1) || dst.poisonIn row0.toNat (nr.toNat + 1) then s.uopStop cPoison
    else
      let (t, nv) := accCells (d = x) src (cellsOf row0.toNat (nr.toNat + 1)) dst false
      ((s.modTile s.curCore d (fun _ => t)).uopFlags (flagIf nv fNV)).uopDone))))

/-- `trans` (R276). -/
def execTrans (t : BitVec 1) (s : State) : Out :=
  .next (s.uop (fun _ _ s => (s.modRoutine s.curCore (fun r => { r with t := decide (t = 1) })).uopDone))

/-- Output i of an A48 block (R277): the exact signed sum, saturated. -/
def hadA48 (xs : List (BitVec 48)) (i : Nat) : CellOut :=
  if xs.any (fun x => x = a48Invalid) then { cell := a48Invalid, o := false, x := false, v := false, nv := true }
  else
    let z := (xs.zipIdx).foldl (fun (z : Int) e => z + (if hadNeg i e.2 then -(e.1.toInt) else e.1.toInt)) 0
    if a48Max < z.natAbs then
      { cell := BitVec.ofInt 48 (signed (z < 0) a48Max), o := true, x := false, v := false, nv := false }
    else { cell := BitVec.ofInt 48 z, o := false, x := false, v := false, nv := false }

/-- Output i of an F48 block (R61, R277): the terms added in increasing j, each sum rounded; a sum that is NaN sets V and
NV. -/
def hadF48 (xs : List (BitVec 48)) (i : Nat) : CellOut :=
  let terms := (xs.zipIdx).map (fun e => if hadNeg i e.2 then numNeg (f48.value e.1.toNat) else f48.value e.1.toNat)
  let (y, bad) := (terms.drop 1).foldl (fun (y, bad) t =>
    let z := numAdd 0 y t
    (f48.value (f48.arith z 0 0).bits, bad || z.isNan)) (terms.headD (.fin false 0 0), false)
  { cell := BitVec.ofNat 48 (f48.arith y 0 0).bits, o := false, x := false, v := bad, nv := bad }

/-- Rotates the blocks of a row (R57, R277): every cell of the row is read before any is written. -/
def Tile.rotateRow (t : Tile) (row : Nat) : Tile × Bool :=
  (List.range 128).foldl (fun (acc : Tile × Bool) j =>
    let xs := (List.range 32).map (fun k => t.cell (128 * row + 32 * (j / 32) + k))
    let u := if t.kind = 2 then hadF48 xs (j % 32) else hadA48 xs (j % 32)
    (acc.1.update (128 * row + j) u, acc.2 || u.nv)) (t, false)

/-- `had` (R277). -/
def execHad (ts : BitVec 4) (row0 nr : BitVec 7) (s : State) : Out :=
  .next (s.uop (fun r q s => s.uopTile r q ts false (fun p s =>
    let t := s.tileAt s.curCore p
    if t.kind = 0 then s.uopStop cFmtTag
    else if r.owes p then s
    else if t.poisonIn row0.toNat (nr.toNat + 1) then s.uopStop cPoison
    else
      let (t, nv) := (List.range (nr.toNat + 1)).foldl (fun (acc : Tile × Bool) k =>
        let (t, v) := acc.1.rotateRow (row0.toNat + k)
        (t, acc.2 || v)) (t, false)
      (((s.modTile s.curCore p (fun _ => t)).uopFlags (flagIf nv fNV)).modRoutine s.curCore (fun r =>
        { r with active := none, shadow := none })).uopDone)))

/-! ### Drains (R62, R278) -/

/-- A drained row: bytes for walk DESC and for DESC + 1, flags, policy 11's trap, and the generator. -/
structure DrainRow where
  bytes : List Byte
  scales : List Byte
  flags : BitVec 7
  trap : Bool
  gen : W32
  deriving DecidableEq, Repr

/-- Converts the cells of a row to a floating-point format, in column order with one draw for each under SR. -/
def drainFp (f : Fmt) (mode pol : Nat) : List Num → W32 → DrainRow
  | [], gen => { bytes := [], scales := [], flags := 0, trap := false, gen := gen }
  | x :: xs, gen =>
    let gen := if mode = 4 then seedStep gen else gen
    let d := f.convert x mode (seedDraw gen) pol
    let r := drainFp f mode pol xs gen
    { r with bytes := leBytes d.bits (f.width / 8) ++ r.bytes, flags := d.flags ||| r.flags, trap := d.trap || r.trap }

/-- Quantises the four blocks of a row (R55). -/
def drainBfp (m mode pol : Nat) : List (List Num) → W32 → DrainRow
  | [], gen => { bytes := [], scales := [], flags := 0, trap := false, gen := gen }
  | b :: bs, gen =>
    let k := quantise m b mode pol gen
    let r := drainBfp m mode pol bs k.seed
    { r with
      bytes := leBytes (packNat m (fun i => k.mants[i]?.getD 0) 32) (4 * m) ++ r.bytes
      scales := leBytes k.scale.toNat 4 ++ r.scales
      flags := k.flags ||| r.flags
      trap := k.trap || r.trap }

/-- Row `row` of a tile, drained (R278). An A48 invalid marker drains as a NaN and sets NV (R62). -/
def Tile.drainRow (t : Tile) (row : Nat) (fmt : BitVec 4) (m mode pol : Nat) (gen : W32) : DrainRow :=
  let xs := (List.range 128).map (fun j => t.value (128 * row + j))
  match tagFmt fmt.toNat with
  | some f => drainFp f mode pol xs gen
  | none => drainBfp m mode pol ((List.range 4).map (fun b => (xs.drop (32 * b)).take 32)) gen

/-- Sends one piece of an entry as copy traffic of its own, so that an entry may land in part (R280): older traffic of the
core with bytes in its line shares the completion of the line. -/
def State.sendPiece (s : State) (q : Seqr) (gaddr : W64) (w : Walk) (p : LandPiece) (last : Bool) : State :=
  let line := p.va.toNat / 128
  let l : Landing :=
    { num := s.landNext, core := s.curCore, port := none, handle := q.handle, gaddr := gaddr, pieces := [p], sync := w.sync
      count := p.bytes.length, lines := if last then [line] else [] }
  let old := s.landings.map (fun x =>
    if last && x.core = s.curCore && x.port.isNone && !(x.lines.contains line) && x.pieces.any (fun y => y.va.toNat / 128 = line) then
      { x with lines := x.lines ++ [line] }
    else x)
  { s with landNext := s.landNext + 1, landings := old ++ [l] }.sendFar [p]

/-- Writes one entry to a walk: it leaves as copy traffic, with the lines it completes (R278, R291, R292). -/
def State.drainEntry (s : State) (q : Seqr) (gaddr : W64) (d : Nat) (w : Walk) (bs : List Byte) : Option State :=
  let n := bs.length
  if w.exhausted n then none
  else
    let who := s.masterOf q
    match s.walkWritable who (w.chunks n w.place n) with
    | .error _ => none
    | .ok ps =>
      match if w.sync = 0 then .ok () else (s.translate who .store w.sync 16).map (fun _ => ()) with
      | .error _ => none
      | .ok () =>
        let s := s.touchAll who (ps.map Prod.fst)
        some (((entryPieces ps bs).foldl (fun s p => s.sendPiece q gaddr w p (!(w.returnsTo n (w.place + n) p.va))) s).keepWalk d
          (w.advance n))

/-- Drains the next row; a trap or a failed write stops the routine with the earlier rows written (R278). -/
def State.drainNext (s : State) (q : Seqr) (gaddr : W64) (t : Tile) (fmt : BitVec 4) (m mode pol d row0 n : Nat) : State :=
  let start := s.landNext
  match (s.coreOf s.curCore).routine with
  | none => s
  | some r =>
    if t.poisonIn (row0 + r.rows) 1 then s.uopStop cPoison
    else
      let x := t.drainRow (row0 + r.rows) fmt m mode pol r.gen
      if x.trap then s.uopStop cOvf
      else
        match r.walkOf d with
        | none => s.uopStop cMatrix
        | some w =>
          match s.drainEntry q gaddr d w x.bytes with
          | none => s.uopStop cMatrix
          | some s =>
            let s' := if fmt ≠ 8 then some s else (r.walkOf (d + 1)).bind (fun w => s.drainEntry q gaddr (d + 1) w x.scales)
            match s' with
            | none => s.uopStop cMatrix
            | some s =>
              let s := s.modRoutine s.curCore (fun r =>
                { r with gen := x.gen, flags := r.flags ||| x.flags, rows := r.rows + 1, rowFrom := start })
              if n ≤ r.rows + 1 then s.uopDone else s

/-- `drain` (R278): one row in each step. -/
def execDrain (ts ofmt : BitVec 4) (mm rm : BitVec 3) (po : BitVec 2) (pd : BitVec 1) (desc : BitVec 3)
    (row0 nr : BitVec 7) (swz : BitVec 8) (s : State) : Out :=
  .next (s.uop (fun r q s => s.uopTile r q ts true (fun p s =>
    let t := s.tileAt s.curCore p
    if t.kind = 0 then s.uopStop cFmtTag
    else if r.owes p then s
    else
      match r.mmOf mm with
      | none => s.uopStop cFmtTag
      | some m =>
        s.uopWalks r desc swz ofmt m (fun _ _ s =>
          let mode := if rm = 7 then r.args.rmode.toNat else rm.toNat
          let pol := if pd = 1 then r.args.ovf.toNat else po.toNat
          let gaddr := (((s.coreOf s.curCore).mq.head?).map MatCmd.gaddr).getD 0
          s.drainNext q gaddr t ofmt (m.toNat + 2) mode pol desc.toNat row0.toNat (nr.toNat + 1)))))

/-- `waitf` (R276). -/
def execWaitf (s : State) : Out :=
  .next (s.uop (fun _ _ s => if s.coreTraffic s.curCore then s else s.uopDone))

/-- `loop` (R276): a count of 0 skips the body. -/
def execUopLoop (len : BitVec 12) (cm : BitVec 1) (count : W32) (s : State) : Out :=
  .next (s.uop (fun r _ s =>
    let n := r.args.loopCount cm count
    if n = 0 then s.goUop (r.pos + 1 + len.toNat) r.loops
    else s.goUop (r.pos + 1) ({ first := r.pos + 1, last := r.pos + len.toNat, left := n } :: r.loops)))

/-- The micro-op word at place p of a core's running routine. -/
def Core.uopAt (c : Core) (r : Routine) (p : Nat) : Option Instr :=
  if (c.entry r.args.routine).length.toNat ≤ p then none
  else decodeUop (c.uopWord ((c.entry r.args.routine).offset.toNat + p)).toNat

/-- The next micro-op of a core's running routine. -/
def State.nextUop (s : State) (n : Nat) : Option Instr :=
  match (s.coreOf n).routine with
  | none => none
  | some r => if r.stopped.isSome || r.done then none else (s.coreOf n).uopAt r r.pos

/-- The descriptors that a micro-op takes entries from or writes entries to. -/
def uopDescs : Instr → List Nat
  | .loadb fmt _ _ d => if fmt = 8 then [d.toNat, d.toNat + 1] else [d.toNat]
  | .streama fmt _ _ d _ _ _ _ => if fmt = 8 then [d.toNat, d.toNat + 1] else [d.toNat]
  | .drain _ fmt _ _ _ _ d _ _ _ => if fmt = 8 then [d.toNat, d.toNat + 1] else [d.toNat]
  | _ => []

/-- A micro-op that may still run while a later LOADB fills the shadow buffer (R273): it does not use that buffer. -/
def leavesShadow (r : Routine) (first : Bool) : Instr → Bool
  | .streama _ _ _ _ _ _ _ _ => first && r.begun
  | .acc _ _ _ _ => true
  | .zero _ _ _ _ => true
  | .anchor _ _ _ => true
  | .drain _ _ _ _ _ _ _ _ _ _ => true
  | .uopLoop _ _ _ => true
  | .trans _ => true
  | _ => false

/-- Where a routine goes after the word at p (R276). -/
def Routine.after (r : Routine) (i : Instr) (p : Nat) (ls : List UopLoop) : Nat × List UopLoop :=
  match i with
  | .uopLoop len cm count =>
    let n := r.args.loopCount cm count
    if n = 0 then closeLoops (p + 1 + len.toNat) ls
    else closeLoops (p + 1) ({ first := p + 1, last := p + len.toNat, left := n } :: ls)
  | _ => closeLoops (p + 1) ls

/-- The LOADB that may fill the shadow buffer now, ahead of the micro-ops that still run: its place, the transpose flag and the
loops there (R273). `used`: the descriptors of those micro-ops. -/
def Core.aheadOf (c : Core) (r : Routine) : Nat → Bool → Nat → Bool → List UopLoop → List Nat → Option (Nat × Bool × List UopLoop)
  | 0, _, _, _, _, _ => none
  | n + 1, first, p, t, ls, used =>
    match c.uopAt r p with
    | none => none
    | some i =>
      if !leavesShadow r first i then none
      else
        let used := uopDescs i ++ used
        let t := match i with | .trans x => decide (x = 1) | _ => t
        let (p, ls) := r.after i p ls
        match c.uopAt r p with
        | some (.loadb fmt mm swz d) =>
          if (uopDescs (.loadb fmt mm swz d)).any (fun x => used.contains x) then none else some (p, t, ls)
        | _ => c.aheadOf r n false p t ls used

/-- A core's routine takes its next micro-op; where one still runs, a later LOADB may fill the shadow buffer first. Which of
the two goes on is free (R273, log entry 2). -/
def State.aheadUop (s : State) (n : Nat) : Option (Nat × Bool × List UopLoop) :=
  match (s.coreOf n).routine with
  | none => none
  | some r =>
    if r.stopped.isSome || r.done || r.ahead.isSome || r.shadow.isSome || Config.freeNat s.freeCtr % 2 = 0 then none
    else (s.coreOf n).aheadOf r 64 true r.pos r.t r.loops []

/-- A LOADB has run ahead of its turn: the routine stays where it was, and will pass over it. -/
def State.ranAhead (s t : State) (n p : Nat) : State :=
  match (s.coreOf n).routine with
  | none => t
  | some r =>
    t.modRoutine n (fun x =>
      { x with pos := r.pos, loops := r.loops, t := r.t, rows := r.rows, begun := r.begun, done := r.done
               ahead := if x.shadow.isSome then some p else none })

end Sys2Proof.Machine
end

