-- ==== Sys2Proof/Machine/Dispatch.lean ====
section
/-! DEFINITION. One arm for each constructor of `Instr`, each a direct call of its meaning. -/

namespace Sys2Proof.Machine

/-- What a step of the part does. -/
def exec (i : Instr) (s : State) : Host.Outcome State Fault Refusal :=
  match i with
  | .add d a b => Sys2Proof.Machine.execAdd d a b s
  | .sub d a b => Sys2Proof.Machine.execSub d a b s
  | .mul d a b => Sys2Proof.Machine.execMul d a b s
  | .mulh d a b => Sys2Proof.Machine.execMulh d a b s
  | .mulhn d a b => Sys2Proof.Machine.execMulhn d a b s
  | .div d a b => Sys2Proof.Machine.execDiv d a b s
  | .divn d a b => Sys2Proof.Machine.execDivn d a b s
  | .rem d a b => Sys2Proof.Machine.execRem d a b s
  | .remn d a b => Sys2Proof.Machine.execRemn d a b s
  | .and d a b => Sys2Proof.Machine.execAnd d a b s
  | .or d a b => Sys2Proof.Machine.execOr d a b s
  | .xor d a b => Sys2Proof.Machine.execXor d a b s
  | .shl d a b => Sys2Proof.Machine.execShl d a b s
  | .shr d a b => Sys2Proof.Machine.execShr d a b s
  | .sra d a b => Sys2Proof.Machine.execSra d a b s
  | .rotl d a b => Sys2Proof.Machine.execRotl d a b s
  | .clz d a => Sys2Proof.Machine.execClz d a s
  | .ctz d a => Sys2Proof.Machine.execCtz d a s
  | .popc d a => Sys2Proof.Machine.execPopc d a s
  | .min d a b => Sys2Proof.Machine.execMin d a b s
  | .max d a b => Sys2Proof.Machine.execMax d a b s
  | .minn d a b => Sys2Proof.Machine.execMinn d a b s
  | .maxn d a b => Sys2Proof.Machine.execMaxn d a b s
  | .mov d a => Sys2Proof.Machine.execMov d a s
  | .sel d a b p => Sys2Proof.Machine.execSel d a b p s
  | .cmpEq k a b => Sys2Proof.Machine.execCmpEq k a b s
  | .cmpNe k a b => Sys2Proof.Machine.execCmpNe k a b s
  | .cmpLt k a b => Sys2Proof.Machine.execCmpLt k a b s
  | .cmpLe k a b => Sys2Proof.Machine.execCmpLe k a b s
  | .cmpLtn k a b => Sys2Proof.Machine.execCmpLtn k a b s
  | .cmpLen k a b => Sys2Proof.Machine.execCmpLen k a b s
  | .addi d a im => Sys2Proof.Machine.execAddi d a im s
  | .andi d a im => Sys2Proof.Machine.execAndi d a im s
  | .ori d a im => Sys2Proof.Machine.execOri d a im s
  | .xori d a im => Sys2Proof.Machine.execXori d a im s
  | .shli d a n => Sys2Proof.Machine.execShli d a n s
  | .shri d a n => Sys2Proof.Machine.execShri d a n s
  | .srai d a n => Sys2Proof.Machine.execSrai d a n s
  | .lhi d im => Sys2Proof.Machine.execLhi d im s
  | .addb d a b => Sys2Proof.Machine.execAddb d a b s
  | .movb d a b => Sys2Proof.Machine.execMovb d a b s
  | .spb d a => Sys2Proof.Machine.execSpb d a s
  | .movbLo d a => Sys2Proof.Machine.execMovbLo d a s
  | .movbHi d a => Sys2Proof.Machine.execMovbHi d a s
  | .kand d a b => Sys2Proof.Machine.execKand d a b s
  | .kor d a b => Sys2Proof.Machine.execKor d a b s
  | .kxor d a b => Sys2Proof.Machine.execKxor d a b s
  | .knot d a => Sys2Proof.Machine.execKnot d a s
  | .kmov d a => Sys2Proof.Machine.execKmov d a s
  | .kfrom d a b => Sys2Proof.Machine.execKfrom d a b s
  | .ktoLo d a => Sys2Proof.Machine.execKtoLo d a s
  | .ktoHi d a => Sys2Proof.Machine.execKtoHi d a s
  | .nop => Sys2Proof.Machine.execNop s
  | .br n k o => Sys2Proof.Machine.execBr n k o s
  | .bra n k o => Sys2Proof.Machine.execBra n k o s
  | .call n k o => Sys2Proof.Machine.execCall n k o s
  | .lbrk n k => Sys2Proof.Machine.execLbrk n k s
  | .loop c l n => Sys2Proof.Machine.execLoop c l n s
  | .brl l => Sys2Proof.Machine.execBrl l s
  | .brlRot l => Sys2Proof.Machine.execBrlRot l s
  | .jr a => Sys2Proof.Machine.execJr a s
  | .ret => Sys2Proof.Machine.execRet s
  | .lidx d l => Sys2Proof.Machine.execLidx d l s
  | .trap im => Sys2Proof.Machine.execTrap im s
  | .eret => Sys2Proof.Machine.execEret s
  | .mfc l h n => Sys2Proof.Machine.execMfc l h n s
  | .mtc l h n => Sys2Proof.Machine.execMtc l h n s
  | .rdst d a => Sys2Proof.Machine.execRdst d a s
  | .freeze a => Sys2Proof.Machine.execFreeze a s
  | .thaw a => Sys2Proof.Machine.execThaw a s
  | .yield => Sys2Proof.Machine.execYield s
  | .sleep a => Sys2Proof.Machine.execSleep a s
  | .ptime d => Sys2Proof.Machine.execPtime d s
  | .exit a => Sys2Proof.Machine.execExit a s
  | .svget d => Sys2Proof.Machine.execSvget d s
  | .ldI8 t b x im => Sys2Proof.Machine.execLdI8 t b x im s
  | .ldN8 t b x im => Sys2Proof.Machine.execLdN8 t b x im s
  | .ldI16 t b x im => Sys2Proof.Machine.execLdI16 t b x im s
  | .ldN16 t b x im => Sys2Proof.Machine.execLdN16 t b x im s
  | .ldW t b x im => Sys2Proof.Machine.execLdW t b x im s
  | .ldb t b x im => Sys2Proof.Machine.execLdb t b x im s
  | .ldfe t b x im => Sys2Proof.Machine.execLdfe t b x im s
  | .ldv t b x m im => Sys2Proof.Machine.execLdv t b x m im s
  | .stB t b x st im => Sys2Proof.Machine.execStB t b x st im s
  | .stH t b x st im => Sys2Proof.Machine.execStH t b x st im s
  | .stW t b x st im => Sys2Proof.Machine.execStW t b x st im s
  | .stb t b x st im => Sys2Proof.Machine.execStb t b x st im s
  | .stv t b x st im => Sys2Proof.Machine.execStv t b x st im s
  | .stm t b k st im => Sys2Proof.Machine.execStm t b k st im s
  | .stvMc t b x st im => Sys2Proof.Machine.execStvMc t b x st im s
  | .vgath t b v k => Sys2Proof.Machine.execVgath t b v k s
  | .vscat t b v k st => Sys2Proof.Machine.execVscat t b v k st s
  | .stAcc t b x st o => Sys2Proof.Machine.execStAcc t b x st o s
  | .stvAcc t b x st o => Sys2Proof.Machine.execStvAcc t b x st o s
  | .mkfull a b => Sys2Proof.Machine.execMkfull a b s
  | .mkempty a b => Sys2Proof.Machine.execMkempty a b s
  | .fecheck d a b => Sys2Proof.Machine.execFecheck d a b s
  | .swarm d a b => Sys2Proof.Machine.execSwarm d a b s
  | .swait d a b => Sys2Proof.Machine.execSwait d a b s
  | .fbind p a => Sys2Proof.Machine.execFbind p a s
  | .funbind p => Sys2Proof.Machine.execFunbind p s
  | .fdrain p => Sys2Proof.Machine.execFdrain p s
  | .fence c => Sys2Proof.Machine.execFence c s
  | .sfence st => Sys2Proof.Machine.execSfence st s
  | .tbind r h f => Sys2Proof.Machine.execTbind r h f s
  | .tclr r h f => Sys2Proof.Machine.execTclr r h f s
  | .tmask d r h f => Sys2Proof.Machine.execTmask d r h f s
  | .vadd d a b k => Sys2Proof.Machine.execVadd d a b k s
  | .vsub d a b k => Sys2Proof.Machine.execVsub d a b k s
  | .vmul d a b k => Sys2Proof.Machine.execVmul d a b k s
  | .vfma d a b k => Sys2Proof.Machine.execVfma d a b k s
  | .vfms d a b k => Sys2Proof.Machine.execVfms d a b k s
  | .vneg d a k => Sys2Proof.Machine.execVneg d a k s
  | .vabs d a k => Sys2Proof.Machine.execVabs d a k s
  | .vmin d a b k => Sys2Proof.Machine.execVmin d a b k s
  | .vmax d a b k => Sys2Proof.Machine.execVmax d a b k s
  | .vrcp d a k => Sys2Proof.Machine.execVrcp d a k s
  | .vrsq d a k => Sys2Proof.Machine.execVrsq d a k s
  | .vexp2 d a k => Sys2Proof.Machine.execVexp2 d a k s
  | .vlog2 d a k => Sys2Proof.Machine.execVlog2 d a k s
  | .vsel d a b k => Sys2Proof.Machine.execVsel d a b k s
  | .vcmp k a b p c => Sys2Proof.Machine.execVcmp k a b p c s
  | .vaddI32 d a b k => Sys2Proof.Machine.execVaddI32 d a b k s
  | .vsubI32 d a b k => Sys2Proof.Machine.execVsubI32 d a b k s
  | .vmulI32 d a b k => Sys2Proof.Machine.execVmulI32 d a b k s
  | .vshlI32 d a b k => Sys2Proof.Machine.execVshlI32 d a b k s
  | .vshrI32 d a b k => Sys2Proof.Machine.execVshrI32 d a b k s
  | .vsraI32 d a b k => Sys2Proof.Machine.execVsraI32 d a b k s
  | .vaddN32 d a b k => Sys2Proof.Machine.execVaddN32 d a b k s
  | .vsubN32 d a b k => Sys2Proof.Machine.execVsubN32 d a b k s
  | .vmulN32 d a b k => Sys2Proof.Machine.execVmulN32 d a b k s
  | .vshlN32 d a b k => Sys2Proof.Machine.execVshlN32 d a b k s
  | .vshrN32 d a b k => Sys2Proof.Machine.execVshrN32 d a b k s
  | .vsraN32 d a b k => Sys2Proof.Machine.execVsraN32 d a b k s
  | .vaddI16 d a b k => Sys2Proof.Machine.execVaddI16 d a b k s
  | .vsubI16 d a b k => Sys2Proof.Machine.execVsubI16 d a b k s
  | .vmulI16 d a b k => Sys2Proof.Machine.execVmulI16 d a b k s
  | .vshlI16 d a b k => Sys2Proof.Machine.execVshlI16 d a b k s
  | .vshrI16 d a b k => Sys2Proof.Machine.execVshrI16 d a b k s
  | .vsraI16 d a b k => Sys2Proof.Machine.execVsraI16 d a b k s
  | .vaddI8 d a b k => Sys2Proof.Machine.execVaddI8 d a b k s
  | .vsubI8 d a b k => Sys2Proof.Machine.execVsubI8 d a b k s
  | .vmulI8 d a b k => Sys2Proof.Machine.execVmulI8 d a b k s
  | .vshlI8 d a b k => Sys2Proof.Machine.execVshlI8 d a b k s
  | .vshrI8 d a b k => Sys2Proof.Machine.execVshrI8 d a b k s
  | .vsraI8 d a b k => Sys2Proof.Machine.execVsraI8 d a b k s
  | .vand d a b k => Sys2Proof.Machine.execVand d a b k s
  | .vor d a b k => Sys2Proof.Machine.execVor d a b k s
  | .vxor d a b k => Sys2Proof.Machine.execVxor d a b k s
  | .vnot d a k => Sys2Proof.Machine.execVnot d a k s
  | .vmov d a k => Sys2Proof.Machine.execVmov d a k s
  | .vcvt d a t r o p => Sys2Proof.Machine.execVcvt d a t r o p s
  | .vqBfp d a st m => Sys2Proof.Machine.execVqBfp d a st m s
  | .vdqBfp d a st => Sys2Proof.Machine.execVdqBfp d a st s
  | .vperm d a b k => Sys2Proof.Machine.execVperm d a b k s
  | .vrotl d a n k => Sys2Proof.Machine.execVrotl d a n k s
  | .vbcast d a n k => Sys2Proof.Machine.execVbcast d a n k s
  | .vext d a n => Sys2Proof.Machine.execVext d a n s
  | .vins d a n => Sys2Proof.Machine.execVins d a n s
  | .vzip d a b k => Sys2Proof.Machine.execVzip d a b k s
  | .vunzip d a k => Sys2Proof.Machine.execVunzip d a k s
  | .vhad d a => Sys2Proof.Machine.execVhad d a s
  | .vredsum d a k => Sys2Proof.Machine.execVredsum d a k s
  | .vredmax d a k => Sys2Proof.Machine.execVredmax d a k s
  | .vredmin d a k => Sys2Proof.Machine.execVredmin d a k s
  | .vtag d a t x => Sys2Proof.Machine.execVtag d a t x s
  | .xchain c a b => Sys2Proof.Machine.execXchain c a b s
  | .xstat c a b => Sys2Proof.Machine.execXstat c a b s
  | .xkill c => Sys2Proof.Machine.execXkill c s
  | .xrmw o a b => Sys2Proof.Machine.execXrmw o a b s
  | .mcall r => Sys2Proof.Machine.execMcall r s
  | .mpset n a b => Sys2Proof.Machine.execMpset n a b s
  | .mzero k t a => Sys2Proof.Machine.execMzero k t a s
  | .manch t a => Sys2Proof.Machine.execManch t a s
  | .zld t a b => Sys2Proof.Machine.execZld t a b s
  | .zst t a b => Sys2Proof.Machine.execZst t a b s
  | .mrload r a b => Sys2Proof.Machine.execMrload r a b s
  | .mstat t a b => Sys2Proof.Machine.execMstat t a b s
  | .cset a => Sys2Proof.Machine.execCset a s
  | .csend a => Sys2Proof.Machine.execCsend a s
  | .crecv a => Sys2Proof.Machine.execCrecv a s
  | .creduce a => Sys2Proof.Machine.execCreduce a s
  | .cbcast a => Sys2Proof.Machine.execCbcast a s
  | .liftarm a b => Sys2Proof.Machine.execLiftarm a b s
  | .liftdisarm a b => Sys2Proof.Machine.execLiftdisarm a b s
  | .ctrig a b => Sys2Proof.Machine.execCtrig a b s
  | .crnew a b => Sys2Proof.Machine.execCrnew a b s
  | .crjoin a b => Sys2Proof.Machine.execCrjoin a b s
  | .crleave a b => Sys2Proof.Machine.execCrleave a b s
  | .crfree a => Sys2Proof.Machine.execCrfree a s
  | .phreg r a => Sys2Proof.Machine.execPhreg r a s
  | .phdrop a => Sys2Proof.Machine.execPhdrop a s
  | .phsig a => Sys2Proof.Machine.execPhsig a s
  | .phwait p a => Sys2Proof.Machine.execPhwait p a s
  | .launch c f a b => Sys2Proof.Machine.execLaunch c f a b s
  | .lstat a b => Sys2Proof.Machine.execLstat a b s
  | .mte e im a b => Sys2Proof.Machine.execMte e im a b s
  | .mfe e im a b => Sys2Proof.Machine.execMfe e im a b s
  | .zero ts kind am anc => Sys2Proof.Machine.execZero ts kind am anc s
  | .anchor ts am anc => Sys2Proof.Machine.execAnchor ts am anc s
  | .loadb fmt mm swz desc => Sys2Proof.Machine.execLoadb fmt mm swz desc s
  | .streama fmt mm swz desc ts row0 nr s5 => Sys2Proof.Machine.execStreama fmt mm swz desc ts row0 nr s5 s
  | .acc td tsrc row0 nr => Sys2Proof.Machine.execAcc td tsrc row0 nr s
  | .trans t => Sys2Proof.Machine.execTrans t s
  | .had ts row0 nr => Sys2Proof.Machine.execHad ts row0 nr s
  | .drain ts ofmt mm rm po pd desc row0 nr swz => Sys2Proof.Machine.execDrain ts ofmt mm rm po pd desc row0 nr swz s
  | .waitf => Sys2Proof.Machine.execWaitf s
  | .uopLoop len cm count => Sys2Proof.Machine.execUopLoop len cm count s
  | .groupIssue h => Sys2Proof.Machine.execGroupIssue h s
  | .loadReturn h r => Sys2Proof.Machine.execLoadReturn h r s
  | .storeArrive src => Sys2Proof.Machine.execStoreArrive src s
  | .storeAck die entry k => Sys2Proof.Machine.execStoreAck die entry k s
  | .heldNotice die entry => Sys2Proof.Machine.execHeldNotice die entry s
  | .streamHeld die entry => Sys2Proof.Machine.execStreamHeld die entry s
  | .xrmwApply src => Sys2Proof.Machine.execXrmwApply src s
  | .recordClaim die ch => Sys2Proof.Machine.execRecordClaim die ch s
  | .footprintRegister die job => Sys2Proof.Machine.execFootprintRegister die job s
  | .unitArrive die ch unit => Sys2Proof.Machine.execUnitArrive die ch unit s
  | .unitAck die ch unit => Sys2Proof.Machine.execUnitAck die ch unit s
  | .recordReturn die ch => Sys2Proof.Machine.execRecordReturn die ch s
  | .channelFault die ch => Sys2Proof.Machine.execChannelFault die ch s
  | .killComplete die ch => Sys2Proof.Machine.execKillComplete die ch s
  | .channelResume die ch => Sys2Proof.Machine.execChannelResume die ch s
  | .channelDrop die ch => Sys2Proof.Machine.execChannelDrop die ch s
  | .channelKill die ch => Sys2Proof.Machine.execChannelKill die ch s
  | .feedFill h port => Sys2Proof.Machine.execFeedFill h port s
  | .feedDrainWrite h port => Sys2Proof.Machine.execFeedDrainWrite h port s
  | .matrixCommandTurn core => Sys2Proof.Machine.execMatrixCommandTurn core s
  | .routineStart core => Sys2Proof.Machine.execRoutineStart core s
  | .contributionLand core => Sys2Proof.Machine.execContributionLand core s
  | .routineComplete core => Sys2Proof.Machine.execRoutineComplete core s
  | .routineLimit core => Sys2Proof.Machine.execRoutineLimit core s
  | .messageSend ch => Sys2Proof.Machine.execMessageSend ch s
  | .messageLand m => Sys2Proof.Machine.execMessageLand m s
  | .messageAck ch mseq disc => Sys2Proof.Machine.execMessageAck ch mseq disc s
  | .countWrite entry v => Sys2Proof.Machine.execCountWrite entry v s
  | .cardTake src => Sys2Proof.Machine.execCardTake src s
  | .jobAdmit src => Sys2Proof.Machine.execJobAdmit src s
  | .place h => Sys2Proof.Machine.execPlace h s
  | .contextSwitch core slot => Sys2Proof.Machine.execContextSwitch core slot s
  | .longiterExpiry h => Sys2Proof.Machine.execLongiterExpiry h s
  | .park h => Sys2Proof.Machine.execPark h s
  | .contextSave h => Sys2Proof.Machine.execContextSave h s
  | .wake h => Sys2Proof.Machine.execWake h s
  | .sleepExpiry h => Sys2Proof.Machine.execSleepExpiry h s
  | .gangWake crew => Sys2Proof.Machine.execGangWake crew s
  | .deadlineOverrun job => Sys2Proof.Machine.execDeadlineOverrun job s
  | .coreRetire core ret => Sys2Proof.Machine.execCoreRetire core ret s
  | .registerWrite key v => Sys2Proof.Machine.execRegisterWrite key v s
  | .flitReceive port f => Sys2Proof.Machine.execFlitReceive port f s
  | .nakReceive port seq => Sys2Proof.Machine.execNakReceive port seq s
  | .replayTimeout port => Sys2Proof.Machine.execReplayTimeout port s
  | .totalsSend port => Sys2Proof.Machine.execTotalsSend port s
  | .totalsReceive port high totals => Sys2Proof.Machine.execTotalsReceive port high totals s
  | .replayWindowEnd port => Sys2Proof.Machine.execReplayWindowEnd port s
  | .correctedErrorPost port => Sys2Proof.Machine.execCorrectedErrorPost port s
  | .retrain port => Sys2Proof.Machine.execRetrain port s
  | .trainingEnd port ok peerSeq => Sys2Proof.Machine.execTrainingEnd port ok peerSeq s
  | .routeTimeout p => Sys2Proof.Machine.execRouteTimeout p s
  | .timingFlit port ref refTime slew synced => Sys2Proof.Machine.execTimingFlit port ref refTime slew synced s
  | .wlWrite sn d v => Sys2Proof.Machine.execWlWrite sn d v s
  | .wlChangeDone sn d => Sys2Proof.Machine.execWlChangeDone sn d s
  | .multicastArrive p port => Sys2Proof.Machine.execMulticastArrive p port s
  | .multicastAck group id src lost => Sys2Proof.Machine.execMulticastAck group id src lost s
  | .sessionOpen sn => Sys2Proof.Machine.execSessionOpen sn s
  | .sessionClose sn => Sys2Proof.Machine.execSessionClose sn s
  | .slotStore sn k job checkJob effects => Sys2Proof.Machine.execSlotStore sn k job checkJob effects s
  | .sessionValue sn v => Sys2Proof.Machine.execSessionValue sn v s
  | .sessionForwardTimeout sn => Sys2Proof.Machine.execSessionForwardTimeout sn s
  | .roundend p => Sys2Proof.Machine.execRoundend p s
  | .sessionTimeout sn => Sys2Proof.Machine.execSessionTimeout sn s
  | .closePacket p => Sys2Proof.Machine.execClosePacket p s
  | .withdraw sn k => Sys2Proof.Machine.execWithdraw sn k s
  | .reopen sn k => Sys2Proof.Machine.execReopen sn k s
  | .withdrawMarker p leaf lvl => Sys2Proof.Machine.execWithdrawMarker p leaf lvl s
  | .recontrib p => Sys2Proof.Machine.execRecontrib p s
  | .exclude sn => Sys2Proof.Machine.execExclude sn s
  | .staleReturn die r => Sys2Proof.Machine.execStaleReturn die r s
  | .flush die => Sys2Proof.Machine.execFlush die s
  | .migrationStart die frame => Sys2Proof.Machine.execMigrationStart die frame s
  | .migrationSwitch die => Sys2Proof.Machine.execMigrationSwitch die s
  | .migrationApply die => Sys2Proof.Machine.execMigrationApply die s
  | .migrationCandidate die granule => Sys2Proof.Machine.execMigrationCandidate die granule s
  | .headWrite die v => Sys2Proof.Machine.execHeadWrite die v s
  | .recordRetry die slot => Sys2Proof.Machine.execRecordRetry die slot s
  | .recordDrop die slot => Sys2Proof.Machine.execRecordDrop die slot s
  | .connectionThaw die slot => Sys2Proof.Machine.execConnectionThaw die slot s
  | .memoryError u => Sys2Proof.Machine.execMemoryError u s
  | .patrolScrub die addr upset => Sys2Proof.Machine.execPatrolScrub die addr upset s
  | .errorWindowEnd die => Sys2Proof.Machine.execErrorWindowEnd die s
  | .hostOpen d => Sys2Proof.Machine.execHostOpen d s
  | .hostClose d => Sys2Proof.Machine.execHostClose d s
  | .hostSubmit d => Sys2Proof.Machine.execHostSubmit d s
  | .hostMread d => Sys2Proof.Machine.execHostMread d s
  | .hostMwrite d => Sys2Proof.Machine.execHostMwrite d s
  | .hostCatread d => Sys2Proof.Machine.execHostCatread d s
  | .hostCatwrite d => Sys2Proof.Machine.execHostCatwrite d s
  | .hostImage d => Sys2Proof.Machine.execHostImage d s
  | .hostAttest d => Sys2Proof.Machine.execHostAttest d s
  | .hostAck d => Sys2Proof.Machine.execHostAck d s
  | .retransmitTimeout conn seq => Sys2Proof.Machine.execRetransmitTimeout conn seq s
  | .ackTimer conn => Sys2Proof.Machine.execAckTimer conn s
  | .pkgReset images => Sys2Proof.Machine.execPkgReset images s
  | .powerLoss => Sys2Proof.Machine.execPowerLoss s
  | .tempSample die temp settled => Sys2Proof.Machine.execTempSample die temp settled s
  | .stepDown die => Sys2Proof.Machine.execStepDown die s
  | .stepUp die => Sys2Proof.Machine.execStepUp die s
  | .trip die => Sys2Proof.Machine.execTrip die s
  | .hbmTempChange die k temp settled => Sys2Proof.Machine.execHbmTempChange die k temp settled s
  | .powerControl power => Sys2Proof.Machine.execPowerControl power s
  | .burst core => Sys2Proof.Machine.execBurst core s
  | .linkDown port => Sys2Proof.Machine.execLinkDown port s
  | .linkTraining port peerPkg peerPort => Sys2Proof.Machine.execLinkTraining port peerPkg peerPort s
  | .matrixCommandComplete core => Sys2Proof.Machine.execMatrixCommandComplete core s
  | .copyTrafficLand n => Sys2Proof.Machine.execCopyTrafficLand n s
  | .creditReturn ch srcPkg n => Sys2Proof.Machine.execCreditReturn ch srcPkg n s
  | .jobEndBySystemSoftware job => Sys2Proof.Machine.execJobEndBySystemSoftware job s
  | .datagramDrop d => Sys2Proof.Machine.execDatagramDrop d s
  | .remoteAccessWindowEnd die => Sys2Proof.Machine.execRemoteAccessWindowEnd die s

end Sys2Proof.Machine
end

