-- ==== Sys2Proof/Machine/Run.lean ====
section
/-!
DEFINITION. What a step does: the actions of the agenda; the members of a group, run one after another, each on the
registers from before the group (R65), where a trap or a wait of a member undoes the group (R74, R252); the passing of
time; and the placing of an instruction where the step takes its next one.
-/

namespace Sys2Proof.Machine

/-! ### Groups -/

/-- How the members of a group end: the state after them, and a wait of one of them with whether some waiting member asked nothing
of another package. -/
structure Members where
  state : State
  wait : Option (Wait × Bool)

/-- The member is an engine command whose engine has no room, and its queue lags (R71, R173). -/
def State.commandLags (s : State) (w : Wait) : Bool :=
  s.issue.late && s.issue.slot = 6 && (w = .engineRoom || w = .engineDone)

/-- Runs the members of a group in order: the first trap ends it; after a wait the others run only for their traps, and for what
they ask of other packages. -/
def runMembers (w : Option (Wait × Bool)) : List (Nat × BitVec 3 × Instr) → State → Except (Fault ⊕ Refusal) Members
  | [], s => .ok { state := s, wait := w }
  | (p, sl, i) :: ms, s =>
    let s := { s with issue := { s.issue with pos := p, slot := sl, taken := 0 } }
    match exec i s with
    | .fault f => .error (.inl f)
    | .refused r => .error (.inr r)
    | .next t =>
      match t.issue.flow with
      | .ok => runMembers w ms t
      | .trap _ => .ok { state := t, wait := none }
      | .wait x =>
        if s.commandLags x then
          runMembers w ms { s with late := s.late ++ [{ handle := s.ctx.handle, groups := 0, work := .command s.src p sl i }] }
        else
          let asked := decide (s.ctx.askNext < t.ctx.askNext)
          let w' := match w with
            | none => (x, !asked)
            | some (y, hard) => (if hard then y else if asked then y else x, hard || !asked)
          runMembers (some w') ms
            { s with egress := t.egress, ctx := { s.ctx with asks := t.ctx.asks, askNext := t.ctx.askNext } }

/-- The requests of a waiting group that are made in a pass: none while a member waits for something it need not ask for; and one
that changes something elsewhere only once no other is to be made (R252). `n`: the number of the first request of the pass. -/
def madeAsks (n : Nat) (hard : Bool) (asks : List Ask) : List Ask :=
  let fresh := asks.filter (fun a => decide (n ≤ a.tag))
  asks.filter (fun a => decide (a.tag < n))
    ++ (if hard then [] else if fresh.any (fun a => !a.effect) then fresh.filter (fun a => !a.effect) else fresh)

/-- A packet that asks for a reply under one of the numbers. -/
def Packet.asksUnder (tags : List Nat) : Packet → Bool
  | .read _ _ _ _ tag _ _ _ _ _ => tags.contains tag
  | .catRead _ _ tag _ => tags.contains tag
  | _ => false

/-- A group whose members all took their effect: the next group follows, and a pre-emption point may be here (R69, R110). A deadline
that came within it stops at the boundary after it (R265). -/
def State.commit (t : State) (brl : Bool) : State :=
  let i := t.issue
  let next := i.npc.getD (t.ctx.pc + BitVec.ofNat 64 (4 * i.len))
  let overrun := t.ctx.depart = some .freeze && t.ctx.cause = deadlineTrap.causeWord
  let t := { t with
    ctx := { t.ctx.noWait with pc := next, resumed := false, epc := if overrun then next else t.ctx.epc }, issue := .idle
    late := lmod (fun l => l.handle = t.ctx.handle) (fun l => { l with groups := l.groups + 1 }) t.late }
  let t := t.modCore t.ctx.coreNo (fun c => { c with lastIssue := (t.dieAt t.ctx.cdie.toNat).cycle })
  if (t.ctx.st = .running || t.ctx.st = .resident) && t.ctx.depart.isNone
      && (t.ctx.mustDepart || (brl && (t.ctx.preempt.isSome || t.ctx.gangPark))) then t.departNow
  else t

/-- What a wait leaves at its home: an `ldfe` takes its place at the line (R137), a `phwait` shows in its member's entry
(Table 10.4). -/
def State.noteWait (s : State) : Wait → State
  | .consume va => s.queueLdfe va
  | .phaserPhase crew => s.markWaiting crew s.ctx.index.toNat
  | _ => s

/-- How a group ends: with its effect, by a trap, or in a wait. -/
inductive GroupEnd where
  | done (s : State)
  | trapped (s : State)
  | waits (s : State)

/-- The group waits: nothing of it has an effect, and its wait is recorded (R252). -/
def State.waitAt (s : State) (w : Wait) : State :=
  let s := ({ s with issue := .idle }.noteWait w).recordWait w
  if s.ctx.parksAtOnce w then s.parkSeq s.ctx else s

/-- Runs the members queued by the issue of a group. -/
def State.tryGroup (g : State) : Except (Fault ⊕ Refusal) GroupEnd :=
  let q := g.issue.queue
  let s := { g with
    issue := { g.issue with queue := [] }
    ctx := { g.ctx with bankstall := satAdd g.ctx.bankstall g.issue.bankCycles } }
  let base := { g with issue := .idle }
  match runMembers none q s with
  | .error e => .error e
  | .ok m =>
    match m.wait, m.state.issue.flow with
    | some (w, hard), _ =>
      let asks := madeAsks g.ctx.askNext hard m.state.ctx.asks
      .ok (.waits ({ base with
        egress := base.egress ++ (m.state.egress.drop base.egress.length).filter
          (Packet.asksUnder ((asks.map Ask.tag).filter (fun n => decide (g.ctx.askNext ≤ n))))
        ctx := { base.ctx with asks := asks, askNext := m.state.ctx.askNext } }.waitAt w))
    | none, .trap t => .ok (.trapped { base.takeTrap t with issue := .idle })
    | none, _ => .ok (.done (m.state.commit (q.any (fun x => isBrl x.2.2))))

/-! ### Queues that lag (R71 to R73) -/

/-- Performs an access or a command whose queue lags, behind those before it; none where it has still to wait. A command that its
engine has come to refuse traps at the boundary that the sequencer has reached (DESIGN CHOICE, log entry 72). -/
def State.perform (s : State) (before : List Late) : LateWork → Option State
  | .store kind st group offset ds =>
    let t := { s with issue := .idle, late := before }
    let t := if group.isSome then t.accept kind false st group offset ds else t.putStore kind st ds
    if t.issue.flow = .ok then some { t with issue := s.issue } else none
  | .command pre p sl i =>
    let t := { s with
      issue := { Issue.idle with pre := some pre, pos := p, slot := sl }, ctx := { s.ctx with pc := pre.pc }, late := before }
    match exec i t with
    | .next t =>
      (match t.issue.flow with
      | .ok => some { t with issue := s.issue, ctx := { t.ctx with pc := s.ctx.pc } }
      | .trap _ => some { t with ctx := if t.ctx.sup then { t.ctx with epc := s.ctx.pc } else { t.ctx with epc := s.ctx.pc, pc := s.ctx.pc } }
      | .wait _ => none)
    | _ => none

/-- Performs, in order, the late work of the executing sequencer that `p` selects; what is kept stands in `kept`. Whether all of it
was performed. -/
def State.performAll (s : State) (p : LateWork → Bool) (kept : List Late) : List Late → State × Bool
  | [] => ({ s with late := kept }, true)
  | l :: ls =>
    if l.handle ≠ s.ctx.handle || !p l.work then s.performAll p (kept ++ [l]) ls
    else
      match s.perform kept l.work with
      | some t => if t.issue.flow = s.issue.flow then t.performAll p kept ls else ({ t with late := kept ++ ls }, true)
      | none => ({ s with late := kept ++ l :: ls }, false)

/-- Performs what must be performed before the group; behind work of the other queue that it overlaps, all of it (R118). -/
def State.flushLate (s : State) : State × Bool :=
  match s.performAll s.flushed [] s.late with
  | (t, true) => (t, true)
  | (t, false) => t.performAll (fun _ => true) [] t.late

/-- The group as it is issued once its sequencer's late work has been performed. -/
def State.reissue (t g : State) : State :=
  { t with issue := { g.issue with pre := some t.ctx, since := some t.orderNext } }

/-- A group runs, after the late work of its sequencer that it may not overtake: all of it, where the group traps or waits (R71,
R73, R74). -/
def State.runGroup (g : State) : Host.Outcome State Fault Refusal :=
  let out (e : Except (Fault ⊕ Refusal) GroupEnd) : Host.Outcome State Fault Refusal :=
    match e with
    | .error (.inl f) => .fault f
    | .error (.inr r) => .refused r
    | .ok (.done s) | .ok (.trapped s) | .ok (.waits s) => .next s
  if !g.late.any (fun l => l.handle = g.ctx.handle) then out g.tryGroup
  else
    match g.flushLate with
    | (t, false) => .next (t.waitAt .storeRoom)
    | (t, true) =>
      if t.issue.flow ≠ .ok then .next { t with issue := .idle }
      else if g.issue.sync && t.ownCurb then .next (t.waitAt .storeRoom)
      else
        match (t.reissue g).tryGroup with
        | .ok (.done s) => .next s
        | e =>
          if !t.late.any (fun l => l.handle = t.ctx.handle) then out e
          else
            match t.performAll (fun _ => true) [] t.late with
            | (u, false) => .next (u.waitAt .storeRoom)
            | (u, true) => if u.issue.flow ≠ .ok then .next { u with issue := .idle } else out (u.reissue g).tryGroup

/-- Ends an action: a group it issued runs; a sequencer that leaves its slot performs its late work. -/
def State.settle (s : State) : Host.Outcome State Fault Refusal :=
  if !s.issue.queue.isEmpty then s.runGroup
  else if s.issue.sync then .next { (s.performAll (fun _ => true) [] s.late).1 with issue := .idle }
  else .next { s with issue := .idle }

/-- The next group of a resident sequencer waits, tried now (R251). -/
def State.waitsNow (s : State) (h : BitVec 24) : Bool :=
  let t := s.select h
  match execGroupIssue h { t with ctx := { t.ctx with st := .running } } with
  | .next t => (match t.settle with | .next u => u.ctx.wait.isSome | _ => false)
  | _ => false

/-- Tries the next group of every sequencer that a core could select (R251). -/
def State.tryResidents (s : State) : State :=
  s.mapSeqs (fun q => if q.handle ≠ 0 && q.st = .resident && q.depart.isNone then { q with stuck := s.waitsNow q.handle } else q)

/-! ### Time (R5 to R7, R265) -/

/-- The reference die of a job: among the dies PART names, the one with the largest clock step, the lowest on a tie
(R265). -/
def State.refDie (s : State) (j : Job) : Nat :=
  ((List.range 4).filter (fun d => (List.range 48).any (fun c => j.hasCore (48 * d + c)))).foldl (fun b d =>
    if (s.therm b).stepNo.toNat < (s.therm d).stepNo.toNat || !((List.range 48).any (fun c => j.hasCore (48 * b + c)))
    then d else b) 0

/-- Time passes after a step: package time, the cycles of each die, the deadline counters. How much is free (log
entry 2). -/
def State.tick (s : State) : State :=
  let n := s.freeCtr
  { s with
    freeCtr := n + 1
    ptime := s.ptime + BitVec.ofNat 64 (Config.elapsedNs n)
    dies := (List.range 4).foldl (fun t d =>
      let x := tget .reset t d
      tset d { x with cycle := x.cycle + Config.elapsedCycles n d } t) s.dies
    jobs := s.jobs.map (fun j =>
      if j.ended.isSome then j
      else { j with deadline := BitVec.ofNat 64 (j.deadline.toNat - Config.elapsedCycles n (s.refDie j)) }) }

/-- Ends a step: the links take what the package has sent since its egress held n packets, wake registrations fire, queued sequencers
that find no core make their requests (R249), and time passes. -/
def ended (n : Nat) : Host.Outcome State Fault Refusal → Host.Outcome State Fault Refusal
  | .next s => .next (s.transmit n).latchWakes.askAll.tryResidents.tick
  | o => o

/-! ### Actions -/

/-- A core's matrix engine goes on by a micro-op of its routine (R273): the next one, or a LOADB ahead of its turn. -/
def State.engineStep (s : State) (core : Nat) : Host.Outcome State Fault Refusal :=
  let s := { s with curCore := core }
  match s.aheadUop core with
  | some (p, flag, ls) =>
    let t := s.modRoutine core (fun r => { r with pos := p, loops := ls, t := flag })
    (match (s.coreOf core).routine.bind (fun r => (s.coreOf core).uopAt r p) with
    | some i =>
      (match exec i t with
      | .next t => .next (s.ranAhead t core p)
      | o => o)
    | none => .next s)
  | none =>
    match s.nextUop core with
    | some i => exec i s
    | none => .next s

/-- Runs an action: an event, what the package sends to its own Piazza, a micro-op of a core's routine, or a group. -/
def State.act (s : State) : Action → Host.Outcome State Fault Refusal
  | .event i => exec i s
  | .value n v => execSessionValue n v s
  | .mark n leaf lvl => execWithdrawMarker ⟨n, (s.session n).wireFields, (s.session n).wireShape⟩ leaf lvl s
  | .packet p port => execMulticastArrive p port s
  | .acked g id br lost => execMulticastAck g id br lost s
  | .pump conn => .next (s.pump conn 130)
  | .hostWrite p => .next (s.hostAgain p)
  | .hostDropped p status => .next (s.hostDone p (some status))
  | .engine core => s.engineStep core
  | .issue h => execGroupIssue h s

/-! ### Placing an instruction -/

/-- The job card of the probe's sequencer: one sequencer on core 0. -/
def probeJob : Job where
  num := 1
  asid := 1
  card := Vector.ofFn (fun i => if i.val = 1 then 1 else if i.val = 8 then 1 else 0)
  deadline := BitVec.allOnes 64
  left := 1
  status := 0
  ended := none
  retired := false
  sv := 0
  lastDone := 0
  sigTimes := []
  doneWritten := false
  overrun := false

/-- The virtual address of the placed instruction: one 2 MiB page. -/
def probeVa : W64 := 0x200000

/-- The arguments of the probe's matrix call. -/
def probeCall : CallArgs :=
  { routine := 0, mp := Vector.replicate 8 0, fd := Vector.replicate 64 0, rmode := 0, ovf := 0, gen := 1 }

/-- The probe's routine 0: the one word runs on core 0, called by the probe's sequencer. -/
def State.probeRoutine (s : State) (w : Nat) : State :=
  s.modCore 0 (fun c =>
    { c with
      store := tset 0 (BitVec.ofNat 64 w) c.store
      dir := tset 0 { valid := true, offset := 0, length := 1, owner := 0 } c.dir
      mq := [{ handle := 1, job := 1, gaddr := probeVa, op := .call probeCall, started := true, reg := none }]
      routine := some { args := probeCall, pos := 0, loops := [], t := false, active := none, shadow := none, walks := [],
                        flags := 0, gen := 1, pending := [], rows := 0, begun := false, ahead := none, rowFrom := 0, began := 0, stopped := none, done := false } })

/-- The page tables of the probe's address space: four levels, and a leaf whose frame is the address itself. -/
def State.probeTables (s : State) : State :=
  let pa (a : Nat) : Nat := (paOf s.pkg a).toNat
  let s := (((s.writeLE 0x1000 (pa 0x2000 + 1) 8).writeLE 0x2000 (pa 0x3000 + 1) 8).writeLE 0x3000 (pa 0x4000 + 1) 8).writeLE
    0x4008 (pa 0x200000 + 0x13) 8
  (List.range 5).foldl (fun s d => s.modTu d (fun t =>
    { t with roots := tset 1 (paOf s.pkg 0x1000 + 1) t.roots })) s

/-- A sequencer that runs on core 0 of die 0 with the instruction's address as its PC. -/
def State.probeSeq (s : State) : State :=
  let q := { Seqr.blank with
    handle := 1, job := 1, st := .running, pc := probeVa, seed := 1
    g := Seqr.blank.g.setIfInBounds 2 { val := 1, taint := 0 } }
  { (s.modCore 0 (fun c => { c with slots := c.slots.setIfInBounds 0 (some 1), run := some 0 })) with
    ctx := q, jobs := [probeJob], agenda := [], issue := .idle }

end Sys2Proof.Machine
end

