-- ==== Sys2Proof/Machine/Step.lean ====
section
/-!
DEFINITION. The step function: it takes the first action of the agenda, or, when that is empty, issues the next group of
the sequencer whose context the machine holds inline; then the links take what was sent, and time passes. `withFetchWord` places an instruction where the
step takes its next one (log entries 5 and 60).
-/

namespace Sys2Proof.Machine

/-- The next thing that happens is the loss of power, which a stopped clock does not keep from coming (R387). -/
def State.losesPower (s : State) : Bool :=
  match s.agenda with
  | .event .powerLoss :: _ => true
  | _ => false

/-- The step of the machine. -/
def step (s : State) : Host.Outcome State Fault Refusal :=
  if !s.powered then .fault .powerLost
  else if s.clockStopped && !s.losesPower then .fault .clockStopped
  else
    match s.agenda with
    | a :: rest =>
      match ({ s with agenda := rest }).act a with
      | .next t => ended s.egress.length t.settle
      | o => o
    | [] =>
      match execGroupIssue s.ctx.handle s with
      | .next t => ended s.egress.length t.settle
      | o => o

/-- The state with an instruction stored where the step takes its next one: a job's sequencer, running on core 0, finds a
word at its PC, a group of its own where it stops, else with a `nop` after it; a micro-op is the one word of a routine that
runs on core 0. -/
def State.withFetchWord (s : State) (nbits w : Nat) : State :=
  let s := s.probeSeq.probeTables
  if nbits = 64 then { s.probeRoutine w with agenda := [.engine 0] }
  else s.writeLE 0x200000 (w % 2 ^ 32 + (if w / 2 ^ 31 % 2 = 1 then 0 else 2 ^ 32 * 0x8F000000)) 8

end Sys2Proof.Machine
end

