-- ==== Sys2Proof/Safety.lean ====
section
/-!
DEFINITION. What claims call a safe run: no step refuses, and memory keeps its canonical form.
-/

namespace Sys2Proof

/-- The invariant of the machine's plain data: memory in canonical form. -/
def Machine.State.Inv (s : Machine.State) : Prop := Machine.Memory.wf s.mem = true

/-- A step is safe: it answers a state that keeps the invariant, or stops with one of the spec's own stops (R1, R387). -/
def SafeStep (s : Machine.State) : Prop :=
  match Machine.step s with
  | .next t => t.Inv
  | .fault _ => True
  | .refused _ => False

end Sys2Proof
end

