-- ==== Sys2Proof/Claims.lean ====
section
/-!
DEFINITION. The words that the statements share: what an outcome writes and leaves, and when an operand can be read.
-/

open Sys2Proof Sys2Proof.Machine

namespace Sys2Proof.Claims

/-- The outcome is a next state that differs from s in one g register alone: g[d] holds `r`; g0 discards (R16). Memory,
every other register and every other part of the state are as before. -/
def writesG (s : State) (d : BitVec 5) (r : TReg 32) (o : Out) : Prop :=
  ∃ t, o = .next t ∧ (∀ n, t.ctx.rg n = if n = d ∧ d ≠ 0 then r else s.ctx.rg n) ∧
    t = { s with ctx := { s.ctx with g := t.ctx.g } }

/-- As `writesG`, for b[d]. -/
def writesB (s : State) (d : BitVec 3) (r : TReg 64) (o : Out) : Prop :=
  ∃ t, o = .next t ∧ (∀ n, t.ctx.rb n = if n = d then r else s.ctx.rb n) ∧
    t = { s with ctx := { s.ctx with b := t.ctx.b } }

/-- As `writesG`, for k[d], by physical number under the base from before the group (R20); k0 discards (R16). -/
def writesK (s : State) (d : BitVec 3) (r : TReg 64) (o : Out) : Prop :=
  ∃ t, o = .next t ∧
    (∀ n < 8, t.ctx.k[n]? = if n = physK s.src.krot d.toNat ∧ d ≠ 0 then some r else s.ctx.k[n]?) ∧
    t = { s with ctx := { s.ctx with k := t.ctx.k } }

/-- The outcome of a control transfer: cr.ctaint gains a mask, the next group is at `target` where there is one, and nothing
else changes. -/
def transfers (s : State) (m : Mask) (target : Option W64) (o : Out) : Prop :=
  o = .next { s with
    ctx := { s.ctx with ctaint := s.ctx.ctaint ||| m }
    issue := { s.issue with npc := target.or s.issue.npc } }

/-- The outcome writes level i of the loop stack, with cr.ctaint gaining a mask and the next group at `target` where there
is one; nothing else changes. -/
def loops (s : State) (m : Mask) (i : Nat) (l : LoopLevel) (target : Option W64) (o : Out) : Prop :=
  ∃ t, o = .next t ∧ (∀ n < 6, t.ctx.level n = if n = i then l else s.ctx.level n) ∧
    t.issue.npc = target.or s.issue.npc ∧ t.ctx.ctaint = s.ctx.ctaint ||| m ∧
    t = { s with
      ctx := { s.ctx with ls := t.ctx.ls, ctaint := t.ctx.ctaint }
      issue := { s.issue with npc := t.issue.npc } }

/-- An `mtc` that is ignored: cr.roerr counts it (R29), and nothing else changes but the group's own count of such writes. -/
def ignoredWrite (s : State) (o : Out) : Prop :=
  o = .next { s with
    ctx := { s.ctx with roerr := BitVec.ofNat 32 (min (s.ctx.roerr.toNat + 1) 0xFFFFFFFF) }
    issue := { s.issue with roerrs := s.issue.roerrs + 1 } }

/-- The control registers in the order of Table 1.3, zero-extended. -/
def controlRegisters (q : Seqr) : List W64 :=
  [q.vrot.zeroExtend 64, q.krot.zeroExtend 64, q.rmode.zeroExtend 64, q.ovf.zeroExtend 64, q.seed.zeroExtend 64,
   q.fstat.zeroExtend 64, q.ctaint.zeroExtend 64,
   BitVec.ofNat 64 (((List.range 16).filter (fun i => (q.tags[i]?.getD none).isSome)).map (2 ^ ·)).sum,
   q.sv.zeroExtend 64, q.bankstall.zeroExtend 64, q.parkLimit.zeroExtend 64, q.holdmax.zeroExtend 64,
   q.roerr.zeroExtend 64, BitVec.ofNat 64 (q.job.toNat * 2 ^ 16 + q.index.toNat), q.handle.zeroExtend 64,
   q.cause.zeroExtend 64, q.epc, q.badaddr, q.trapBase, if q.sup then 1 else 0]

/-- The widths of the control registers (Table 1.3). -/
def controlWidths : List Nat := [5, 2, 3, 2, 32, 32, 16, 16, 2, 32, 32, 32, 32, 32, 24, 32, 64, 64, 64, 1]

/-- What a waiting group sends when it gives up the places its `ldfe` keep at lines of other packages (R137, R252). -/
def withdrawals (q : Seqr) : List Packet :=
  q.asks.filterMap (fun a => a.place.map (fun (p : BitVec 15 × Via × W64 × W64) =>
    Packet.read p.1 p.2.1 q.cdie.toNat q.handle a.tag 7 0 p.2.2.1 p.2.2.2 4))

/-- ExitAddress(x) of R105 is a: of the words from x on, each of the first n (n below 7) can be fetched and has bit 31
clear, the next has bit 31 set, and a follows it. -/
def exitsTo (s : State) (x a : W64) : Prop :=
  ∃ n < 7, (∀ i < n, (s.fetchWord (x + BitVec.ofNat 64 (4 * i))).toOption.map BitVec.msb = some false) ∧
    (s.fetchWord (x + BitVec.ofNat 64 (4 * n))).toOption.map BitVec.msb = some true ∧
    a = x + BitVec.ofNat 64 (4 * (n + 1))

/-- Nothing of the executing sequencer is on its way: no tag, no loss to report, no matrix error, no access or command that lags,
no Curb entry. -/
def quiet (s : State) : Prop :=
  s.ctx.tags = Vector.replicate 16 none ∧ s.ctx.losses = [] ∧ s.ctx.held = none ∧ (∀ l ∈ s.late, l.handle ≠ s.ctx.handle) ∧
    ∀ d < 4, ∀ e ∈ (s.dieAt d).curb, e.handle ≠ s.ctx.handle

/-- The outcome is a next state in which the sequencer `h` has become `f` of itself and nothing else has changed. -/
def changesSeq (s : State) (h : BitVec 24) (f : Seqr → Seqr) (o : Out) : Prop :=
  ∃ t, o = .next t ∧ t.seqOf h = (s.seqOf h).map f ∧ (∀ k, k ≠ h → t.seqOf k = s.seqOf k) ∧
    t = { s with ctx := t.ctx, seqs := t.seqs }

/-- The request that the executing member has made of another package, at the place in its group where it makes one. -/
def request (s : State) : Option Ask := s.ctx.asks.find? (fun a => a.pos = 1024 * s.issue.pos + s.issue.taken)

/-- The outcome sends a request to another package under the next number of the sequencer, and the group waits. `effect`: the
request changes something there. -/
def asksFor (s : State) (effect : Bool) (w : Wait) (p : Nat → Packet) (o : Out) : Prop :=
  o = .next { s with
    ctx := { s.ctx with
      askNext := s.ctx.askNext + 1
      asks := { pos := 1024 * s.issue.pos + s.issue.taken, tag := s.ctx.askNext, effect := effect, place := none, reply := none } ::
        s.ctx.asks.filter (fun a => a.pos ≠ 1024 * s.issue.pos + s.issue.taken) }
    egress := s.egress ++ [p s.ctx.askNext]
    issue := { s.issue with flow := .wait w } }

/-- As `writesG`, for the vector register with logical number d below 56, by physical number under the base from before the
group (R18, R20). -/
def writesV (s : State) (d : Nat) (r : VReg) (o : Out) : Prop :=
  ∃ t, o = .next t ∧ (∀ n < 56, t.ctx.v[n]? = if n = physV s.src.vrot d then some r else s.ctx.v[n]?) ∧
    t = { s with ctx := { s.ctx with v := t.ctx.v } }

/-- No store is on its way in any Curb or lags behind its group, and the sequencer holds no tag. -/
def noStores (s : State) : Prop :=
  (∀ d < 4, (s.dieAt d).curb = []) ∧ (∀ l ∈ s.late, l.handle ≠ s.ctx.handle) ∧ s.ctx.tags = Vector.replicate 16 none

/-- The n bytes at an address of this package's memory can be loaded: the translation, and in `s'`, the state once the
translation is cached, the home of the first byte, its line full and no byte poisoned (R114, R120, R330, R345). -/
def loadable (s s' : State) (u : Use) (a : W64) (n : Nat) (y : Xlat) (h : Home) : Prop :=
  s.translate s.me u a n = .ok y ∧ y.pkg = s.pkg ∧ s'.homeOf s.ctx.cdie.toNat s.ctx.sup u y.via y.addr = .ok h ∧
    s'.feFull h.fe = true ∧ isSession h.place = false ∧ s'.poisoned h.place n = false

/-- The effective address of R76 for an access of n bytes. -/
def address (s : State) (b : BitVec 3) (x : BitVec 5) (i : BitVec 6) (n : Nat) : W64 :=
  BitVec.ofInt 64 ((s.rb b).val.toNat + (s.rg x).val.toInt * n + i.toInt * n)

/-- The state after an access to a home: the translation that a REMOTE page's package makes is cached (R333), and an access to
another die's HBM is counted there (R336). -/
def noted (s : State) (y : Xlat) (h : Home) : State := (s.touchVia y.via y.addr).countRemote h.place s.pkg s.ctx.cdie.toNat

/-- A drain port that was bound before the group and takes an entry: one that a member of the group has unbound takes it too,
to be written before it is done (R23, R142). -/
def pushed (s : State) (now : FeedPort) (p : Nat) (v : Vec) : FeedPort :=
  if now.bind = 2 then { now with entries := now.entries ++ [v] }
  else { s.src.port p with entries := (s.src.port p).entries ++ [v], closing := true }

/-- No operand of an access carries a tag: base, index, control taint. -/
def plainAddress (s : State) (b : BitVec 3) (x : BitVec 5) : Prop :=
  (s.rb b).taint = 0 ∧ (s.rg x).taint = 0 ∧ s.src.ctaint = 0

/-- A vector code names a register, or a fill port that holds an entry (R22, R148). -/
def readable (q : Seqr) (c : BitVec 6) : Prop :=
  c.toNat < 56 ∨ (q.port (c.toNat - 56)).bind = 1 ∧ (q.port (c.toNat - 56)).entries ≠ []

/-- What a vector code reads: the register, or the oldest entry of the port with the port's tag and no mask (R23, R148). -/
def source (q : Seqr) (c : BitVec 6) : VReg :=
  if c.toNat < 56 then q.rv c.toNat
  else
    let f := q.port (c.toNat - 56)
    { val := f.entries.headD 0, tag := f.tag, aux := f.aux, taint := 0 }

/-- The ports once each that a code names has lost its oldest entry (R23). -/
def popped (s : State) (cs : List (BitVec 6)) (p : Nat) : FeedPort :=
  let f := s.ctx.port p
  if cs.any (fun c => c.toNat = 56 + p) then { f with entries := f.entries.drop 1 } else f

/-- The bytes of a number as effects on the n addresses from a, least significant first (R4). -/
def bytesFrom (a : W64) (n v : Nat) : List Effect :=
  (List.range n).map (fun i => .byte (a + BitVec.ofNat 64 i) (BitVec.ofNat 8 (v / 256 ^ i)))

/-- The outcome of a store to the core's own scratchpad: `stored` says which bytes of memory it writes with what; granules
written whole lose their poison mark; its stream's next number goes up; source ports are popped; nothing else changes
(R123, R124, R344). -/
def storesOwn (s : State) (cs : List (BitVec 6)) (st : BitVec 4) (stored : Nat → Option Byte) (o : Out) : Prop :=
  ∃ t, o = .next t ∧ (∀ y, Memory.read t.mem y = (stored y).getD (Memory.read s.mem y)) ∧
    (∀ g, g ∈ t.poison ↔ g ∈ s.poison ∧ ∃ i < 32, stored (32 * g + i) = none) ∧
    (∀ n < 16, t.ctx.nextSeq[n]? = (s.ctx.nextSeq[n]?).map (fun x => if n = st.toNat ∧ st ≠ 0 then x + 1 else x)) ∧
    (∀ p < 8, t.ctx.port p = popped s cs p) ∧
    t = { s with mem := t.mem, poison := t.poison, ctx := { s.ctx with nextSeq := t.ctx.nextSeq, ports := t.ctx.ports } }

/-- The outcome of a store that enters the Curb of the sequencer's die (R121, R124): one new entry, released, with the given
parts; memory is unchanged. -/
def entersCurb (s : State) (cs : List (BitVec 6)) (kind : StoreKind) (sc : Bool) (st : BitVec 4) (group : Option (BitVec 10))
    (offset : W64) (parts : List Part) (o : Out) : Prop :=
  ∃ t n, o = .next t ∧ n < 4096 ∧
    (t.dieAt s.ctx.cdie.toNat) = { s.dieAt s.ctx.cdie.toNat with curb :=
      [{ num := n, handle := s.ctx.handle, job := s.ctx.job, asid := s.asidOf s.ctx.job, sup := s.ctx.sup, kind := kind, sc := sc,
         stream := st, seqno := if st = 0 then 0 else s.ctx.nextSeq[st.toNat]?.getD 0, group := group, offset := offset,
         released := some (s.orderNext + 1), order := s.orderNext, parts := parts }] } ∧
    (∀ d < 4, d ≠ s.ctx.cdie.toNat → t.dieAt d = s.dieAt d) ∧
    (∀ i < 16, t.ctx.nextSeq[i]? = (s.ctx.nextSeq[i]?).map (fun x => if i = st.toNat ∧ st ≠ 0 then x + 1 else x)) ∧
    (∀ p < 8, t.ctx.port p = popped s cs p) ∧ t.mem = s.mem ∧ t.empties = s.empties ∧
    let seqno := if st = 0 then 0 else s.ctx.nextSeq[st.toNat]?.getD 0
    let far := farRequests s.pkg parts
    (group = none → t.egress = s.egress ++ (far.map (fun p =>
      .store p.pkg s.ctx.cdie.toNat s.ctx.handle s.ctx.job st seqno none (far.countP (fun q => q.pkg = p.pkg))
        (if kind = .rmw then some ({ die := s.ctx.cdie.toNat, ch := 128, claim := 0, unit := s.orderNext }, s.orderNext) else none)
        p.via p.exp p.effects)) ∧
      t.agenda = s.agenda) ∧
    (∀ g, group = some g →
      let p : McPacket :=
        { group := g, job := s.ctx.job, srcPkg := s.pkg, handle := s.ctx.handle, stream := st, seqno := seqno
          id := 4096 * s.ctx.cdie.toNat + n, offset := offset
          data := (parts.flatMap Part.effects).filterMap (fun e => match e with | .byte _ v => some v | _ => none)
          msg := none, copy := false, count := 0, down := false, hops := 0 }
      (if (s.group g.toNat).valid = true ∧ (s.group g.toNat).root ≠ s.pkg then
        t.egress = s.egress ++ [.multicast 127 p] ∧ t.agenda = s.agenda
      else t.egress = s.egress ∧ t.agenda = s.agenda ++ [.packet p 127])) ∧
    t = { s with dies := t.dies, orderNext := s.orderNext + 2, freeCtr := s.freeCtr + 1, egress := t.egress, agenda := t.agenda
                 ctx := { s.ctx with nextSeq := t.ctx.nextSeq, ports := t.ctx.ports } }

/-- The outcome of a store whose queue lags: its translated bytes wait behind the group (R71, R73); its source ports are popped;
nothing else changes. -/
def lagsBehind (s : State) (cs : List (BitVec 6)) (kind : StoreKind) (st : BitVec 4) (group : Option (BitVec 10)) (offset : W64)
    (ds : List Draft) (o : Out) : Prop :=
  ∃ t, o = .next t ∧ (∀ p < 8, t.ctx.port p = popped s cs p) ∧
    t = { s with
      late := s.late ++ [{ handle := s.ctx.handle, groups := 0, work := .store kind st group offset ds }]
      ctx := { s.ctx with ports := t.ctx.ports } }

/-- A store of the group to pages of which `sc` says whether one is SC takes its effect with its group: its queue does not lag, or
its page is SC (R73, R119). -/
def prompt (s : State) (sc : Bool) : Prop := s.issue.late = false ∨ sc = true

/-- The part of a store at one translated address. -/
def partOf (s : State) (y : Xlat) (a : W64) (es : List Effect) : Part :=
  { pkg := y.pkg, die := s.destDie y, via := y.via, addr := y.addr, va := a, exp := y.exp, effects := es, st := .waiting }

/-- The parts of a 256-byte store: one where its halves lie in one block of 64 KiB, read alike and are contiguous, else two. -/
def partsOf (s : State) (y y' : Xlat) (a : W64) (es es' : List Effect) : List Part :=
  if y.pkg = y'.pkg ∧ s.destDie y = s.destDie y' ∧ y.via = y'.via ∧ y.mc = y'.mc ∧ a.toNat / 0x10000 = (a + 128).toNat / 0x10000 ∧
      y'.addr = y.addr + 128 then
    [{ partOf s y a (es ++ es') with exp := if y'.exp.ult y.exp then y'.exp else y.exp }]
  else [partOf s y a es, partOf s y' (a + 128) es']

/-- No operand of a vector store carries a tag, and its source can be read. -/
def plainVector (s : State) (c : BitVec 6) : Prop := readable s.src c ∧ (source s.src c).taint = 0

/-- The byte address of R134. -/
def byteAddress (s : State) (r : BitVec 3) (x : BitVec 5) : W64 := (s.rb r).val + (s.rg x).val.signExtend 64

/-- Descriptor d of the feed class of staging registers (R290). -/
def feedDescriptor (s : State) (d : Nat) : Vector W64 8 := Vector.ofFn (fun i => s.src.stagingOf 2 (8 * d + i.val))

/-- The outcome sets port p and nothing else. -/
def setsPort (s : State) (p : BitVec 3) (f : FeedPort) (o : Out) : Prop :=
  ∃ t, o = .next t ∧ (∀ q < 8, t.ctx.port q = if q = p.toNat then f else s.ctx.port q) ∧
    t = { s with ctx := { s.ctx with ports := t.ctx.ports } }

/-- The mask that a tclr, tmask or tbind names (R145): g0 names cr.ctaint; a port has none. -/
def namedMask (s : State) (r : BitVec 5) (h : BitVec 1) (f : BitVec 2) : Mask :=
  let n := r.toNat + 32 * h.toNat
  if f = 0 then if r = 0 then s.src.ctaint else (s.src.rg r).taint
  else if f = 1 then (s.src.rb (BitVec.ofNat 3 r.toNat)).taint
  else if f = 2 then if n < 56 then (s.src.rv n).taint else 0
  else (s.src.rk (BitVec.ofNat 3 r.toNat)).taint

/-- A result with a tag, an auxiliary and a mask can go to a vector code: a register, or a drain port with that format, no
failure and room, and no mask (R23, R141, R149). -/
def takes (q : Seqr) (d : BitVec 6) (tag : BitVec 4) (aux : BitVec 3) (m : Mask) : Prop :=
  let f := q.port (d.toNat - 56)
  d.toNat < 56 ∨ f.bind = 2 ∧ f.closing = false ∧ (tag = 0 ∨ tag = f.tag ∧ aux = f.aux) ∧ m = 0 ∧ f.entries.length < 4 ∧
    f.walk.elim False (fun w => w.failed = none ∧ w.place + 256 * (f.entries.length + 1) ≤ w.length)

/-- The outcome of a vector instruction: its sources' ports are popped, `r` is written to the register d (by physical
number under the base from before the group) or pushed to the port d, the flags are ORed into cr.fstat, cr.seed becomes
`seed`, and nothing else changes (R18, R20, R23, R50, R148, R153). -/
def delivers (s : State) (cs : List (BitVec 6)) (d : BitVec 6) (r : VReg) (fl : BitVec 7) (seed : W32) (o : Out) : Prop :=
  ∃ t, o = .next t ∧
    (∀ n < 56, t.ctx.v[n]? = if d.toNat < 56 ∧ n = physV s.src.vrot d.toNat then some r else s.ctx.v[n]?) ∧
    (∀ p < 8, t.ctx.port p =
      if d.toNat = 56 + p then pushed s (popped s cs p) p r.val else popped s cs p) ∧
    t = { s with
      ctx := { s.ctx with v := t.ctx.v, ports := t.ctx.ports, fstat := s.ctx.fstat ||| fl.zeroExtend 32, seed := seed }
      issue := { s.issue with raised := s.issue.raised ||| fl } }

/-- The union of the masks of sources and predicate, and of the old destination where it is read (R152). -/
def vectorMask (s : State) (cs : List (BitVec 6)) (d : BitVec 6) (k : BitVec 3) (reads : Bool) : Mask :=
  (cs.map (fun c => (source s.src c).taint)).foldl (· ||| ·) (s.rk k).taint |||
    (if reads || k ≠ 0 then (s.src.rv d.toNat).taint else 0)

/-- The operands of a predicated form: readable sources, and a destination that takes the result and, under a predicate
other than k0, is a register with the result's tag (R149 to R151). -/
def operands (s : State) (cs : List (BitVec 6)) (d : BitVec 6) (k : BitVec 3) (reads : Bool) (tag : BitVec 4) (aux : BitVec 3) :
    Prop :=
  (∀ c ∈ cs, readable s.src c) ∧ takes s.src d tag aux (vectorMask s cs d k reads) ∧ (reads = true ∨ k ≠ 0 → d.toNat < 56) ∧
    (k ≠ 0 → (s.src.rv d.toNat).tag = tag ∧ (s.src.rv d.toNat).aux = aux)

/-- The outcome computes active lane l as `f` says of its number and its draw, leaves the other lanes, and ORs the flags of
the active lanes; under SR each active lane draws once, in order (R150, R153). -/
def lanesFp (s : State) (cs : List (BitVec 6)) (d : BitVec 6) (k : BitVec 3) (reads drawing : Bool)
    (f : Nat → Nat → W32 × BitVec 7) (o : Out) : Prop :=
  let on (l : Nat) : Bool := (s.rk k).val.getLsbD l
  let drawn (l : Nat) : W32 :=
    if drawing && s.src.rmode = 4 then seedSteps ((List.range (l + 1)).filter on).length s.ctx.seed else s.ctx.seed
  let res (l : Nat) : W32 × BitVec 7 := f l (seedDraw (drawn l))
  ∃ (val : Vec) (fl : BitVec 7),
    delivers s cs d { val := val, tag := 1, aux := 0, taint := vectorMask s cs d k reads } fl (drawn 63) o ∧
    (∀ l < 64, lane val l = if on l then (res l).1 else lane (s.src.rv d.toNat).val l) ∧
    ∀ i < 7, fl.getLsbD i = (List.range 64).any (fun l => on l && (res l).2.getLsbD i)

/-- The outcome computes every element of width w of the active lanes as `f` says of the elements of its two sources, and
leaves the other lanes (R150, R160); it holds where both sources carry the tag. -/
def elementwise (s : State) (d a b : BitVec 6) (k : BitVec 3) (tag : BitVec 4) (w : Nat)
    (f : BitVec w → BitVec w → BitVec w) (o : Out) : Prop :=
  operands s [a, b] d k false tag 0 → (source s.src a).tag = tag → (source s.src b).tag = tag →
  ∃ val : Vec,
    delivers s [a, b] d { val := val, tag := tag, aux := 0, taint := vectorMask s [a, b] d k false } 0 s.ctx.seed o ∧
    ∀ e < 2048 / w, elem w val e =
      if (s.rk k).val.getLsbD (w * e / 32) then f (elem w (source s.src a).val e) (elem w (source s.src b).val e)
      else elem w (s.src.rv d.toNat).val e

/-- The outcome gives active lane l the bits that `f` says, leaves the other lanes and keeps the tag and auxiliary of the
first source (R150, R161, R167). -/
def lanesMoved (s : State) (cs : List (BitVec 6)) (d : BitVec 6) (k : BitVec 3) (f : Nat → W32) (o : Out) : Prop :=
  let x := source s.src (cs.headD 0)
  operands s cs d k false x.tag x.aux → (∀ c ∈ cs, ¬ ((source s.src c).tag = 8 ∧ (source s.src c).aux = 7)) →
  ∃ val : Vec,
    delivers s cs d { val := val, tag := x.tag, aux := x.aux, taint := vectorMask s cs d k false } 0 s.ctx.seed o ∧
    ∀ l < 64, lane val l = if (s.rk k).val.getLsbD l then f l else lane (s.src.rv d.toNat).val l

/-! The numbers of spec/02_number_formats.md, in whole units of 2^−k. -/

/-- A floating-point layout of Table 2.2: exponent bits, fraction bits, bias, and whether it has infinities. -/
structure Layout where
  expo : Nat
  frac : Nat
  bias : Nat
  inf : Bool
  deriving DecidableEq, Repr

/-- FP32, BF16, E4M3 and E5M2 (Table 2.2). -/
def layoutFp32 : Layout := { expo := 8, frac := 23, bias := 127, inf := true }
def layoutBf16 : Layout := { expo := 8, frac := 7, bias := 127, inf := true }
def layoutE4m3 : Layout := { expo := 4, frac := 3, bias := 7, inf := false }
def layoutE5m2 : Layout := { expo := 5, frac := 2, bias := 15, inf := true }

/-- What an element stands for: a NaN, signalling or not; an infinity; or a sign with a magnitude of so many units. -/
inductive Exact where
  | nan (signalling : Bool)
  | inf (neg : Bool)
  | num (neg : Bool) (a : Nat)
  deriving DecidableEq, Repr

/-- The value of an element of a layout, in units of 2^−149 (R42, R43). -/
def Layout.exact (f : Layout) (bits : Nat) : Exact :=
  let neg : Bool := bits / 2 ^ (f.expo + f.frac) % 2 = 1
  let e := bits / 2 ^ f.frac % 2 ^ f.expo
  let m := bits % 2 ^ f.frac
  if f.inf = true ∧ e = 2 ^ f.expo - 1 then if m = 0 then .inf neg else .nan (2 < f.frac ∧ m < 2 ^ (f.frac - 1))
  else if f.inf = false ∧ e = 2 ^ f.expo - 1 ∧ m = 2 ^ f.frac - 1 then .nan false
  else .num neg ((if e = 0 then m else (2 ^ f.frac + m) * 2 ^ (e - 1)) * 2 ^ (150 - f.bias - f.frac))

/-- The neighbour of n + rem / den, with rem below den, that a rounding mode chooses for a magnitude of a sign (R46, R47). -/
def neighbour (mode r : Nat) (neg : Bool) (n rem den : Nat) : Nat :=
  match mode with
  | 0 => if den < 2 * rem ∨ 2 * rem = den ∧ n % 2 = 1 then n + 1 else n
  | 1 => n
  | 2 => if neg = false ∧ rem ≠ 0 then n + 1 else n
  | 3 => if neg = true ∧ rem ≠ 0 then n + 1 else n
  | _ => if 65536 ≤ rem * 65536 / den + r then n + 1 else n

/-- A magnitude of a units of 2^−k rounded into a layout (R46, R48, R50): its bits, the flags UF and NX, and whether it exceeds the
largest finite value. Below the smallest normal the spacing is the smallest subnormal. -/
def Layout.fit (f : Layout) (k mode r : Nat) (neg : Bool) (a : Nat) : Nat × BitVec 7 × Bool :=
  let low := k + 1 - f.bias - f.frac
  let free := Nat.log2 a - f.frac
  let g := max free low
  let n := neighbour mode r neg (a / 2 ^ g) (a % 2 ^ g) (2 ^ g)
  let unbounded := neighbour mode r neg (a / 2 ^ free) (a % 2 ^ free) (2 ^ free) * 2 ^ free
  ((g - low) * 2 ^ f.frac + n,
    if a % 2 ^ g = 0 then 0 else if unbounded < 2 ^ (k + 1 - f.bias) then 0x18 else 0x10,
    decide ((if f.inf then 2 ^ (f.bias + 1) else 480) * 2 ^ k ≤ n * 2 ^ g))

/-- The mode gives the largest finite value for an overflow of this sign, not infinity (R49, R155). -/
def staysFinite (mode : Nat) (neg : Bool) : Bool := mode = 1 || (mode = 2 && neg) || (mode = 3 && !neg)

/-- RoundFP32 of a signed magnitude of a units of 2^−k, with its flags (R155). -/
def round32 (k mode r : Nat) (neg : Bool) (a : Nat) : W32 × BitVec 7 :=
  let sign := if neg then 2 ^ 31 else 0
  let q := layoutFp32.fit k mode r neg a
  if q.2.2 then
    (BitVec.ofNat 32 (sign + (if staysFinite mode neg then 0x7F7FFFFF else 0x7F800000)), 0x14)
  else (BitVec.ofNat 32 (sign + q.1), q.2.1)

/-- An infinity as an FP32 word. -/
def inf32 (neg : Bool) : W32 := if neg then 0xFF800000 else 0x7F800000

/-- RoundFP32 of a sum of values in units of 2^−k: an exact zero has the sign of IEEE 754 in the mode (R43, R44, R155). -/
def sum32 (k mode r : Nat) (x y : Exact) : W32 × BitVec 7 :=
  match x, y with
  | .nan u, .nan v => (0x7FC00000, if u || v then 1 else 0)
  | .nan u, _ => (0x7FC00000, if u then 1 else 0)
  | _, .nan v => (0x7FC00000, if v then 1 else 0)
  | .inf n, .inf m => if n = m then (inf32 n, 0) else (0x7FC00000, 1)
  | .inf n, .num _ _ => (inf32 n, 0)
  | .num _ _, .inf m => (inf32 m, 0)
  | .num n a, .num m b =>
    let z : Int := (if n then -(a : Int) else a) + (if m then -(b : Int) else b)
    if z = 0 then round32 k mode r (if n = m then n else mode = 3) 0 else round32 k mode r (z < 0) z.natAbs

/-- The value with the other sign. -/
def Exact.negated : Exact → Exact
  | .nan u => .nan u
  | .inf n => .inf (!n)
  | .num n a => .num (!n) a

/-- The exact product, in units of the product of the units; 0 × ∞ is a NaN that sets NV (R155). -/
def Exact.times : Exact → Exact → Exact
  | .nan u, .nan v => .nan (u || v)
  | .nan u, _ => .nan u
  | _, .nan v => .nan v
  | .inf n, .inf m => .inf (n ^^ m)
  | .inf n, .num m b => if b = 0 then .nan true else .inf (n ^^ m)
  | .num n a, .inf m => if a = 0 then .nan true else .inf (n ^^ m)
  | .num n a, .num m b => .num (n ^^ m) (a * b)

/-- The value in units 2^149 times finer. -/
def Exact.finer : Exact → Exact
  | .num n a => .num n (a * 2 ^ 149)
  | x => x

/-- The value of an FP32 word. -/
def exact32 (v : W32) : Exact := layoutFp32.exact v.toNat

/-- RoundFP32(x × y) (R155): a product that is exactly zero keeps the sign of the product. -/
def product32 (mode r : Nat) (x y : W32) : W32 × BitVec 7 :=
  match (exact32 x).times (exact32 y) with
  | .nan u => (0x7FC00000, if u then 1 else 0)
  | .inf n => (inf32 n, 0)
  | .num n a => round32 298 mode r n a

/-- RoundFP32(z ± x × y) with one rounding; 0 × ∞ sets NV even where z is NaN (R155). -/
def fused32 (negate : Bool) (mode r : Nat) (x y z : W32) : W32 × BitVec 7 :=
  let p := (exact32 x).times (exact32 y)
  sum32 298 mode r (if negate then p.negated else p) (exact32 z).finer

/-- The place of an FP32 word that is no NaN in the order of R132, which has −0 below +0. -/
def rank32 (v : W32) : Int := if v.msb then -(v.toNat % 2 ^ 31 : Nat) - 1 else (v.toNat : Int)

/-- FMax and FMin (R132). -/
def max32 (x y : W32) : W32 :=
  if x.toNat % 2 ^ 31 > 0x7F800000 ∨ y.toNat % 2 ^ 31 > 0x7F800000 then 0x7FC00000 else if rank32 x < rank32 y then y else x
def min32 (x y : W32) : W32 :=
  if x.toNat % 2 ^ 31 > 0x7F800000 ∨ y.toNat % 2 ^ 31 > 0x7F800000 then 0x7FC00000 else if rank32 y < rank32 x then y else x

/-- The FP32 condition c of `vcmp` and its NV flag (Table 6.4). -/
def compare32 (c : Nat) (x y : W32) : Bool × BitVec 7 :=
  let nan (v : W32) : Bool := v.toNat % 2 ^ 31 > 0x7F800000
  let snan (v : W32) : Bool := nan v && decide (v.toNat / 2 ^ 22 % 2 = 0)
  let key (v : W32) : Int := if v.msb then -(v.toNat % 2 ^ 31 : Nat) else (v.toNat : Int)
  let un := nan x || nan y
  let quiet : BitVec 7 := if snan x || snan y then 1 else 0
  let loud : BitVec 7 := if un then 1 else 0
  match c with
  | 0 => (!un && decide (key x = key y), quiet)
  | 1 => (un || decide (key x ≠ key y), quiet)
  | 2 => (!un && decide (key x < key y), loud)
  | 3 => (!un && decide (key x ≤ key y), loud)
  | 4 => (!un && decide (key y < key x), loud)
  | 5 => (!un && decide (key y ≤ key x), loud)
  | _ => (un, quiet)

/-- Tags with elements that convert and reduce: 1 to 7 and 9 (R162, R169). -/
def scalarTag (t : BitVec 4) : Prop := 1 ≤ t.toNat ∧ t.toNat ≤ 7 ∨ t = 9

/-- The union of the words of a list of active lanes as a two's complement sum. -/
def laneSum (v : Vec) (on : Nat → Bool) : Int := (((List.range 64).filter on).map (fun l => (lane v l).toInt)).sum

/-- The layout of a floating-point tag (Table 2.1). -/
def layoutOf (t : Nat) : Option Layout :=
  match t with
  | 1 => some layoutFp32
  | 2 => some layoutBf16
  | 3 => some layoutE4m3
  | 4 => some layoutE5m2
  | _ => none

/-- Canonical NaN, largest finite value and infinity of a floating-point tag, without sign (Table 2.2, R43). -/
def codesOf (t : Nat) : Nat × Nat × Nat :=
  match t with
  | 1 => (0x7FC00000, 0x7F7FFFFF, 0x7F800000)
  | 2 => (0x7FC0, 0x7F7F, 0x7F80)
  | 3 => (0x7F, 0x7E, 0)
  | _ => (0x7E, 0x7B, 0x7C)

/-- The width of a tag's elements, and the range of an integer one (Table 2.1, R45). -/
def widthOf (t : Nat) : Nat := if t = 2 ∨ t = 6 then 16 else if t = 3 ∨ t = 4 ∨ t = 7 then 8 else 32
def leastOf (t : Nat) : Int := if t = 9 then 0 else -2 ^ (widthOf t - 1)
def greatestOf (t : Nat) : Int := if t = 9 then 2 ^ widthOf t - 1 else 2 ^ (widthOf t - 1) - 1

/-- The value of an element of a tag, in units of 2^−149. -/
def exactOf (t bits : Nat) : Exact :=
  match layoutOf t with
  | some f => f.exact bits
  | none => if t = 9 then .num false (bits * 2 ^ 149)
    else .num (2 ^ (widthOf t - 1) ≤ bits) ((if 2 ^ (widthOf t - 1) ≤ bits then 2 ^ widthOf t - bits else bits) * 2 ^ 149)

/-- One element converted from tag s to tag t, by R163, R46, R48, R49 with Table 2.3, and R50. A value that rounds to zero in an
integer format sets NX alone (the model's choice, log entry 78). -/
def converted (s t bits mode r policy : Nat) : Delivered :=
  let (nan, most, infinity) := codesOf t
  match layoutOf t, exactOf s bits with
  | some f, x =>
    let sign (n : Bool) : Nat := if n then 2 ^ (widthOf t - 1) else 0
    let excess (n : Bool) : Delivered :=
      match policy with
      | 0 => { bits := sign n + most, flags := 0x54, trap := false }
      | 1 => if f.inf then { bits := sign n + (if staysFinite mode n then most else infinity), flags := 0x14, trap := false }
        else { bits := nan, flags := 0x34, trap := false }
      | 2 => { bits := nan, flags := 0x14, trap := false }
      | _ => { bits := 0, flags := 0, trap := true }
    match x with
    | .nan u => { bits := nan, flags := if u then 1 else 0, trap := false }
    | .inf n => if s = t then { bits := bits, flags := 0, trap := false } else if f.inf then { bits := sign n + infinity, flags := 0, trap := false } else excess n
    | .num n a =>
      if s = t then { bits := bits, flags := 0, trap := false }
      else
        let q := f.fit 149 mode r n a
        if q.2.2 then excess n else { bits := sign n + q.1, flags := q.2.1, trap := false }
  | none, x =>
    let wrap (z : Int) : Nat := (z % 2 ^ widthOf t).toNat
    let excess (limit other : Int) (invalid : BitVec 7) : Delivered :=
      match policy with
      | 0 => { bits := wrap limit, flags := 0x54 ||| invalid, trap := false }
      | 3 => { bits := 0, flags := 0, trap := true }
      | _ => { bits := wrap other, flags := 0x14 ||| invalid, trap := false }
    let indefinite : Int := if t = 9 then -1 else leastOf t
    match x with
    | .nan _ => excess 0 indefinite 1
    | .inf n => excess (if n then leastOf t else greatestOf t) indefinite 1
    | .num n a =>
      let q := neighbour mode r n (a / 2 ^ 149) (a % 2 ^ 149) (2 ^ 149)
      let z : Int := if n then -(q : Int) else q
      if leastOf t ≤ z ∧ z ≤ greatestOf t then { bits := wrap z, flags := if a % 2 ^ 149 = 0 then 0 else 0x10, trap := false }
      else excess (if n then leastOf t else greatestOf t) (if (layoutOf s).isNone then z else indefinite) 0

/-- A scale of exponent e and fraction f lets the largest mantissa of m bits reach a magnitude of a units of 2^−149 (R52, R55). -/
def reaches (m a e f : Nat) : Prop := a * 2 ^ (m - 1) ≤ (16 + f) * 2 ^ (e + 18) * (2 ^ (m - 1) - 1)

/-- The mantissas of m bits of the n elements x of a block under a scale (R55): each the neighbour that the mode chooses, at most P
where `clamp` says so, drawing once for each under SR; zeros after them. -/
def blockMantissas (m mode : Nat) (clamp : Bool) (e f n : Nat) (x : Nat → Nat × Bool) (seed : W32) (j : Nat) : Nat :=
  if n ≤ j then 0
  else
    let den := (16 + f) * 2 ^ (e + 18)
    let num := (x j).1 * 2 ^ (m - 1)
    let r := seedDraw (if mode = 4 then seedSteps (j + 1) seed else seed)
    let q := neighbour mode r (x j).2 (num / den) (num % den) den
    let q := if clamp then min q (2 ^ (m - 1) - 1) else q
    if (x j).2 ∧ q ≠ 0 then 2 ^ m - q else q

/-- What R55 and Table 2.6 say of the n valid elements `w` of a block, and R164 of an absent one: the quantised mantissas, scale word,
flags and trap, and the generator after. A NaN block sets NV alone or OF alone (Table 2.6). -/
def quantisedAs (m n mode policy : Nat) (w : Nat → W32) (seed : W32) (q : Quantised) : Prop :=
  let mag (j : Nat) : Nat × Bool := match exact32 (w j) with
    | .num neg a => (a, neg)
    | _ => (0, false)
  let most := ((List.range n).map (fun j => (mag j).1)).foldl max 0
  let fields := (m - 2) * 2 ^ 12 + (n - 1) * 2 ^ 15
  let drawn := if mode = 4 then seedSteps n seed else seed
  let zeros : Nat → Nat := fun _ => 0
  let is (mants : Nat → Nat) (scale : Nat) (flags : BitVec 7) : Prop :=
    q = { mants := (List.range 32).map mants, scale := BitVec.ofNat 32 (scale + fields), flags := flags, trap := false, seed := drawn }
  if n = 0 then is zeros 0 0
  else if (List.range n).any (fun j => match exact32 (w j) with | .num _ _ => false | _ => true) then is zeros 0xFF0 1
  else if most = 0 then is zeros 0 0
  else
    (reaches m most 254 15 → ∃ e f, 1 ≤ e ∧ e ≤ 254 ∧ f < 16 ∧ reaches m most e f ∧
      (∀ c < 16 * e + f, 16 ≤ c → ¬ reaches m most (c / 16) (c % 16)) ∧
      is (blockMantissas m mode false e f n mag seed) (16 * e + f)
        (if (List.range n).any (fun j => (mag j).1 * 2 ^ (m - 1) % ((16 + f) * 2 ^ (e + 18)) ≠ 0) then 0x10 else 0)) ∧
    (¬ reaches m most 254 15 →
      (policy = 0 → is (blockMantissas m mode true 254 15 n mag seed) 0xFEF 0x54) ∧
      (policy = 1 ∨ policy = 2 → is zeros 0xFF0 4) ∧ (policy = 3 → q.trap = true))

/-- Output i of the Hadamard form over a block of 32 words (R57, R166). -/
def hadamard32 (w : Nat → W32) (i : Nat) : W32 × BitVec 7 :=
  let minus (j : Nat) : Bool := ((List.range 5).filter (fun b => i.testBit b && j.testBit b)).length % 2 = 1
  let term (j : Nat) : Exact := if minus j then (exact32 (w j)).negated else exact32 (w j)
  let terms := (List.range 32).map term
  let units (x : Exact) : Int := match x with
    | .num n a => if n then -(a : Int) else a
    | _ => 0
  if terms.contains (.nan true) then (0x7FC00000, 1)
  else if terms.contains (.nan false) then (0x7FC00000, 0)
  else if terms.contains (.inf true) then if terms.contains (.inf false) then (0x7FC00000, 1) else (inf32 true, 0)
  else if terms.contains (.inf false) then (inf32 false, 0)
  else
    let z := (terms.map units).sum
    if z = 0 then (if terms.all (fun x => x = .num true 0) then 0x80000000 else 0, 0) else round32 149 0 0 (z < 0) z.natAbs

/-- A node of the pairwise tree of R63: its level and index there. -/
def treeNode (combine : W32 → W32 → W32 × BitVec 7) (leaf : Nat → W32) : Nat → Nat → W32 × BitVec 7
  | 0, i => (leaf i, 0)
  | n + 1, i =>
    let x := treeNode combine leaf n (2 * i)
    let y := treeNode combine leaf n (2 * i + 1)
    let c := combine x.1 y.1
    (c.1, x.2 ||| y.2 ||| c.2)

/-- A reduction (0 sum, 1 max, 2 min) of the elements of a tag of a vector's active lanes (R63, R169, Table 6.6). -/
def reduced (op t : Nat) (v : Vec) (on : Nat → Bool) : W32 × BitVec 7 :=
  let w := widthOf t
  let n := 2048 / w
  let element (i : Nat) : Nat := v.toNat / 2 ^ (w * i) % 2 ^ w
  let fp := (layoutOf t).isSome
  let nan (x : W32) : Bool := x.toNat % 2 ^ 31 > 0x7F800000
  let nv (x : W32) : BitVec 7 := if nan x && decide (x.toNat / 2 ^ 22 % 2 = 0) then 1 else 0
  let identity : W32 := match op with
    | 0 => if fp then 0x80000000 else 0
    | 1 => if fp then 0xFF800000 else if t = 9 then 0 else 0x80000000
    | _ => if fp then 0x7F800000 else if t = 9 then 0xFFFFFFFF else 0x7FFFFFFF
  let wide (bits : Nat) : W32 :=
    if t = 1 then BitVec.ofNat 32 bits
    else
      match exactOf t bits with
      | .nan _ => 0x7FC00000
      | .inf s => inf32 s
      | .num s a => if fp then (round32 149 0 0 s a).1
        else if s then BitVec.ofInt 32 (-((a / 2 ^ 149 : Nat) : Int)) else BitVec.ofNat 32 (a / 2 ^ 149)
  let leaf (i : Nat) : W32 := if on (w * i / 32) then wide (element i) else identity
  let combine (x y : W32) : W32 × BitVec 7 :=
    match op, fp with
    | 0, true => sum32 149 0 0 (exact32 x) (exact32 y)
    | 1, true => (max32 x y, nv x ||| nv y)
    | _, true => (min32 x y, nv x ||| nv y)
    | 0, false => (x + y, 0)
    | 1, false => (if t = 9 then (if x.toNat < y.toNat then y else x) else (if x.toInt < y.toInt then y else x), 0)
    | _, false => (if t = 9 then (if y.toNat < x.toNat then y else x) else (if y.toInt < x.toInt then y else x), 0)
  let root := treeNode combine leaf (Nat.log2 n) 0
  (root.1, root.2 ||| (if (List.range n).any (fun i => on (w * i / 32) && exactOf t (element i) = .nan true) then 1 else 0))

/-- Operands without mask, and cr.ctaint clear: no engine command is held (R172). -/
def untainted (s : State) (a b : BitVec 5) : Prop := (s.rg a).taint = 0 ∧ (s.rg b).taint = 0 ∧ s.src.ctaint = 0

/-- The 64-bit value of two g registers (R174). -/
def pairOf (s : State) (lo hi : BitVec 5) : W64 := BitVec.ofNat 64 ((s.rg hi).val.toNat * 2 ^ 32 + (s.rg lo).val.toNat)

/-- Word n of the job card of the executing sequencer, 0 without a job. -/
def cardWord (s : State) (n : Nat) : W64 := (s.jobOf s.ctx.job).elim 0 (fun j => j.word n)

/-- The class of staging registers that an en field names: 0 xc, 1 mx, 2 fd, 3 cl (R28). -/
def classOf (e : BitVec 3) : Nat := if e = 0 then 0 else e.toNat - 1

/-- What `mfe` reads: a staging register, or an assigned register; every other index reads zero (R28, R175, R209). -/
def engineRegister (s : State) (c i : Nat) : W64 :=
  if c = 3 ∧ 6 ≤ i ∧ i < 64 then 0
  else if i < 64 then s.src.stagingOf c i
  else if c = 0 ∧ i = 64 then cardWord s 11
  else if c = 0 ∧ i = 65 then cardWord s 12
  else if c = 1 ∧ i = 64 then BitVec.ofNat 64 (s.coreOf s.ctx.coreNo).freeWords
  else if c = 3 ∧ i = 64 then BitVec.ofNat 64 (s.wprog.toNat * 256 + s.wcoll.toNat)
  else if c = 3 ∧ i = 65 then BitVec.ofNat 64 ((cardWord s 13).toNat % 2 ^ 50)
  else 0

/-- The outcome writes two g registers, the second last, and nothing else. -/
def writesGG (s : State) (a b : BitVec 5) (x y : W32) (o : Out) : Prop :=
  ∃ t, o = .next t ∧
    (∀ n, t.ctx.rg n = if n = b ∧ b ≠ 0 then ⟨y, 0⟩ else if n = a ∧ a ≠ 0 then ⟨x, 0⟩ else s.ctx.rg n) ∧
    t = { s with ctx := { s.ctx with g := t.ctx.g } }

/-- The outcome changes copy channel c of die d as `f` says, and no other channel and nothing else. -/
def changesChannel (s : State) (d c : Nat) (f : Channel → Channel) (o : Out) : Prop :=
  ∃ t, o = .next t ∧ t.chan d c = f (s.chan d c) ∧ (∀ d' c', 128 * d' + c' ≠ 128 * d + c → t.chan d' c' = s.chan d' c') ∧
    t = { s with channels := t.channels }

/-- The outcome changes collective channel c. -/
def changesColl (s : State) (c : Nat) (x : Coll) (o : Out) : Prop :=
  ∃ t, o = .next t ∧ t.coll c = x ∧ (∀ n, n ≠ c → t.coll n = s.coll n) ∧ t = { s with colls := t.colls }

/-- The outcome appends a command to the matrix queue of the sequencer's core: the tiles that the queue still owes show
BUSY, and nothing else changes but what `f` says of the context (R188, R190). -/
def queuesMatrix (s : State) (op : MatOp) (f : Seqr → Seqr) (o : Out) : Prop :=
  let n := s.ctx.coreNo
  let m : MatCmd := { handle := s.ctx.handle, job := s.ctx.job, gaddr := s.src.pc, op := op, started := false, reg := none }
  ∃ t, o = .next t ∧
    t.coreOf n = { s.coreOf n with mq := (s.coreOf n).mq ++ [m], tiles := (t.coreOf n).tiles } ∧
    (∀ p < 8, t.tileAt n p = { s.tileAt n p with busy := t.owed n p }) ∧ (∀ k, k ≠ n → t.coreOf k = s.coreOf k) ∧
    t = { s with cores := t.cores, ctx := f s.ctx }

/-- The outcome appends a call that names the free footprint entry e, and registers it on the core's die (R241, R242). -/
def registersCall (s : State) (a : CallArgs) (e : Nat) (f : Seqr → Seqr) (o : Out) : Prop :=
  let n := s.ctx.coreNo
  let d := n / 48
  let m : MatCmd :=
    { handle := s.ctx.handle, job := s.ctx.job, gaddr := s.src.pc, op := .call a, started := false, reg := some s.orderNext }
  ∃ t, o = .next t ∧
    t.coreOf n = { s.coreOf n with mq := (s.coreOf n).mq ++ [m], tiles := (t.coreOf n).tiles } ∧
    (∀ p < 8, t.tileAt n p = { s.tileAt n p with busy := t.owed n p }) ∧ (∀ k, k ≠ n → t.coreOf k = s.coreOf k) ∧
    t.dieAt d = { s.dieAt d with
      live := (s.dieAt d).live ++ [{ who := .call n, job := s.ctx.job, entry := e, num := s.orderNext }] } ∧
    (∀ k, k ≠ d → t.dieAt k = s.dieAt k) ∧
    t = { s with cores := t.cores, dies := t.dies, orderNext := s.orderNext + 1, ctx := f s.ctx }

/-- A queued call that names a footprint entry and is not registered yet (R241). -/
def registersLater (m : MatCmd) : Bool :=
  match m.op with
  | .call x => x.mp[7].getLsbD 17 && m.reg.isNone
  | _ => false

/-- The words of a 256-byte job card at a place. -/
def cardAt (s : State) (place : Nat) : Vector W64 32 :=
  Vector.ofFn (fun i => BitVec.ofNat 64 (Memory.readLE s.mem (place + 8 * i.val) 8))

/-- The executing sequencer names a live crew of its own job by an operand without mask (R199). -/
def namesCrew (s : State) (a : BitVec 5) (c : Crew) : Prop :=
  untainted s a a ∧ s.crewOf (s.rg a).val = some c ∧ (s.rg a).val.toNat / 2 ^ 16 = s.ctx.job.toNat

/-- The crew with another entry for member i. -/
def withMember (c : Crew) (i : Nat) (m : Member) : Crew := { c with members := tset i m c.members }

/-- A registration that is not leaving (R204). -/
def isRegistered (m : Member) : Prop := m.mst = .active ∨ m.mst = .pending

/-- A crew changes from `c` to `c'` and Advance of R203 runs: where a signaller exists, every one has signalled and every
waiter has observed, one phase completes, and here none after it; otherwise no phase completes. -/
def advances (s : State) (c : Crew) (o : Out) : Prop :=
  let ready (x : Crew) : Prop := x.allSignalled = true ∧ x.allObserved = true
  (¬ ready c → o = .next (s.putCrew c.settle)) ∧
  (ready c → ¬ ready c.complete → (∀ j, s.jobOf (BitVec.ofNat 16 (c.handle.toNat / 2 ^ 16)) = some j → j.isSchedule c = false) →
    o = .next (s.putCrew c.complete.settle))

/-- The physical number of a vector register below 56 (R19). -/
def physicalV (vrot : BitVec 5) (n : Nat) : Nat := if n < 24 then n else 24 + (n - 24 + vrot.toNat) % 32

/-- The physical number of a predicate (R19). -/
def physicalK (krot : BitVec 2) (n : Nat) : Nat := if n < 4 then n else 4 + (n - 4 + krot.toNat) % 4

/-- The machine runs: it has power and its clocks run (R1, R387). -/
def running (s : State) : Prop := s.powered = true ∧ s.clockStopped = false

/-- The context held inline issues its next group in this step: nothing is on the agenda, it runs and is not leaving its
slot, no departure is due at this boundary, and no trap is held for it (R66, R110, R191, R342). -/
def issues (s : State) : Prop :=
  running s ∧ s.agenda = [] ∧ s.ctx.handle ≠ 0 ∧ s.ctx.st = .running ∧ s.ctx.depart = none ∧ s.issue.queue = [] ∧
    s.ctx.mustDepart = false ∧ s.ctx.heldDue = [] ∧ s.ctx.held = none

/-- The state once n words at the PC have been fetched: the translations are cached and far accesses counted (R333, R336). -/
def fetched (s : State) (n : Nat) : State :=
  s.noteAll s.me .exec ((List.range n).map (fun i => (s.ctx.pc + BitVec.ofNat 64 (4 * i), 4)))

/-- A group's own record: the registers from before the group (R65), its bank cycles (R75), its members; whether its queues lag is
free, but in a sync group (R67, R71). -/
def issued (s : State) (n cycles : Nat) (sync : Bool) : Issue :=
  { Issue.idle with pre := some s.ctx, since := some s.orderNext, late := !sync && Config.queueLags s.freeCtr, sync := sync
                    len := n, bankCycles := cycles }

/-- The state in which the one member of a group runs. -/
def memberState (s : State) (w : W32) (gw : GroupWord) : State :=
  let t := fetched s 1
  let n := bankCycles s.ctx [w] [gw.instr]
  { t with
    issue := { issued s 1 n (isSyncGroup [gw]) with slot := slotCode (slotClass w) 0 }
    ctx := { t.ctx with bankstall := BitVec.ofNat 32 (min (t.ctx.bankstall.toNat + n) 0xFFFFFFFF) } }

/-- How a group of one word ends, after its member has given `t` in `m`: it commits, an engine command whose queue lags too, which
waits behind it (R71, R173); or, from the state before the group, its trap is taken; or its wait is recorded, where it waits too
(R137, R261), and what the member asked of other packages in this pass has left (R74, R218, R252, R256). -/
def groupEnds (s m t : State) (i : Instr) : State :=
  let base := { fetched s 1 with issue := .idle }
  match t.issue.flow with
  | .ok => t.commit (isBrl i)
  | .trap x => { base.takeTrap x with issue := .idle }
  | .wait w =>
    if m.issue.late = true ∧ m.issue.slot = 6 ∧ (w = .engineRoom ∨ w = .engineDone) then
      State.commit { m with late := m.late ++ [{ handle := m.ctx.handle, groups := 0, work := .command m.src 0 6 i }] } (isBrl i)
    else
      let hard := !decide (m.ctx.askNext < t.ctx.askNext)
      let asks := madeAsks s.ctx.askNext hard t.ctx.asks
      let made := (asks.map Ask.tag).filter (fun n => decide (s.ctx.askNext ≤ n))
      State.waitAt
        { base with egress := base.egress ++ (t.egress.drop base.egress.length).filter (Packet.asksUnder made)
                    ctx := { base.ctx with asks := asks, askNext := t.ctx.askNext } } w

/-- A routine runs on the core that acts, called by the sequencer `q` (R188, R273). -/
def runsRoutine (s : State) (r : Routine) (m : MatCmd) (q : Seqr) : Prop :=
  (s.coreOf s.curCore).routine = some r ∧ (s.coreOf s.curCore).mq.head? = some m ∧ s.seqOf m.handle = some q ∧
    r.stopped = none ∧ r.done = false

/-- The outcome changes the running routine as `f` says, and the tile that `x` names, and nothing else. -/
def routineBecomes (s : State) (r : Routine) (x : Option (Nat × Tile)) (o : Out) : Prop :=
  let n := s.curCore
  ∃ t, o = .next t ∧
    t.coreOf n = { s.coreOf n with routine := some r, tiles := (t.coreOf n).tiles } ∧
    (∀ p < 8, t.tileAt n p = match x with | some (p', z) => if p = p' then z else s.tileAt n p | none => s.tileAt n p) ∧
    (∀ k, k ≠ n → t.coreOf k = s.coreOf k) ∧ t = { s with cores := t.cores }

/-- The routine at the word after a place, with `ls` its loops there: the innermost loop that ends before it starts its next
pass while passes are left, and is left after its last (R276); a LOADB there that has run ahead of its turn is passed over; after
its last word the routine is done (R273). -/
def atWord (s : State) (r : Routine) (p : Nat) (ls : List UopLoop) : Routine :=
  let (p', ls') := closeLoops p ls
  let (p', ls') := if r.ahead = some p' then closeLoops (p' + 1) ls' else (p', ls')
  { r with pos := p', loops := ls', rows := 0, begun := false
           ahead := if r.ahead = some (closeLoops p ls).1 then none else r.ahead
           done := decide (((s.coreOf s.curCore).entry r.args.routine).length.toNat ≤ p') }

/-- The micro-op is done: the routine, changed to `r'` by it, is at its next word (R273). -/
def uopEnds (s : State) (r' : Routine) (x : Option (Nat × Tile)) (o : Out) : Prop :=
  routineBecomes s (atWord s r' (r'.pos + 1) r'.loops) x o

/-- The tile of the caller that a selector names: z0 to z7, or the one in the captured mp6 (R274). -/
def selected (r : Routine) (q : Seqr) (ts : BitVec 4) : Option Nat :=
  q.tiles[if ts.toNat < 8 then ts.toNat else (r.args.mp[6]).toNat / 2 ^ (3 * (ts.toNat - 8)) % 8]?

/-- The call may write the tile that a selector names (WMASK), or read it (RMASK) (R191, Table 7.6). -/
def mayWrite (r : Routine) (ts : BitVec 4) : Prop := r.args.wmask (r.args.tileName ts) = true
def mayRead (r : Routine) (ts : BitVec 4) : Prop := mayWrite r ts ∨ r.args.rmask (r.args.tileName ts) = true

/-- Every contribution to a tile has landed (R273). -/
def landed (r : Routine) (p : Nat) : Prop := ∀ x ∈ r.pending, x.tile ≠ p

/-- The walks of a micro-op: DESC, and for BFP DESC + 1, with headers that match it (R271, R278, R291). -/
def walksMatch (r : Routine) (desc : BitVec 3) (swz : BitVec 8) (fmt : BitVec 4) (m : BitVec 3) (w : Walk) (w' : Option Walk) :
    Prop :=
  let fits (x : Walk) : Prop := x.swz = swz.toNat ∧ x.fmt = fmt.toNat ∧ (fmt = 8 → x.mm = m.toNat)
  r.walkOf desc.toNat = some w ∧ fits w ∧
    (fmt = 8 → ∃ x, w' = some x ∧ r.walkOf (desc.toNat + 1) = some x ∧ fits x) ∧ (fmt ≠ 8 → w' = none)

/-- The state once a drained row has left for its walk, for BFP its scale words for the walk DESC + 1 (R278). -/
def rowLeaves (s : State) (q : Seqr) (gaddr : W64) (desc : BitVec 3) (w : Walk) (w' : Option Walk) (x : DrainRow) : Option State :=
  match w' with
  | none => s.drainEntry q gaddr desc.toNat w x.bytes
  | some v => (s.drainEntry q gaddr desc.toNat w x.bytes).bind (fun u => u.drainEntry q gaddr (desc.toNat + 1) v x.scales)

/-- The walks kept after entries were taken. -/
def walksAfter (r : Routine) (desc : BitVec 3) (w : Walk) (w' : Option Walk) : Table Walk :=
  match w' with
  | some x => tset (desc.toNat + 1) x (tset desc.toNat w r.walks)
  | none => tset desc.toNat w r.walks

/-- The outcome sets port n to `x` and sends `out`; every other port and everything else is as before. -/
def portBecomes (s : State) (n : Nat) (x : Port) (out : List Packet) (o : Out) : Prop :=
  ∃ t, o = .next t ∧ t.port n = x ∧ (∀ k, k ≠ n → t.port k = s.port k) ∧
    t = { s with ports := t.ports, egress := s.egress ++ out }

/-- Memory once a record has gone to the queue of die d: the sync word that QSYNC names in this package has gained 64 (R339). -/
def postMem (s : State) (d : Nat) : List Host.Cell :=
  let a := (s.dieAt d).queue.qsync
  if paPkg a = s.pkg then (s.syncAdd (paLocal a) 64).mem else s.mem

/-- The trap queue of die d, which has room, has gained a record of this time and counted it; the other dies are as before
(R339). -/
def postsRecord (s t : State) (d : Nat) (r : TrapRec) : Prop :=
  let q := (s.dieAt d).queue
  t.dieAt d = { s.dieAt d with queue := { q with
    tail := q.tail + 1, recs := tset (q.tail.toNat % 1024) { r with pt := s.ptime } q.recs } } ∧
  (∀ k, k ≠ d → t.dieAt k = s.dieAt k) ∧ t.mem = postMem s d

/-- A record of a trap queue that names no parked request (Table 14.6). -/
def record (kind : BitVec 4) (code : BitVec 8) (master : W32) (job : BitVec 16) (addr info : W64) : TrapRec :=
  { kind := kind, code := code, master := master, job := job, addr := addr, pt := 0, info := info, parked := none }

/-- The trap queue of die d has room (R339). -/
def queueReady (s : State) (d : Nat) : Prop := (s.dieAt d).queue.pending < 1024

/-- The flits that an acknowledgment up to `a` leaves in a retry buffer, and those of a buffer from number e on (R306). -/
def unacked (l : List Flit) (a : BitVec 12) : List Flit := l.filter (fun f => decide (2048 ≤ (a - f.seq).toNat))
def fromSeq (l : List Flit) (e : BitVec 12) : List Flit := l.filter (fun f => decide ((f.seq - e).toNat < 2048))

/-- The port after an acknowledgment up to `a` and the sending again of every flit from `e` on. -/
def replayed (p : Port) (a e : BitVec 12) : Port :=
  { p with retry := unacked p.retry a, txflits := p.txflits + BitVec.ofNat 64 (fromSeq (unacked p.retry a) e).length }

/-- A flit that carries no data of a packet: an acknowledgment (kind 0), a NAK (2), totals (3) or time (4), with its CRC
(R304 to R306, R309). -/
def controlFlit (kind : BitVec 3) (a : BitVec 12) (payload : BitVec 448 := 0) : Flit :=
  let f : Flit := { seq := 0, ack := a, vc := 0, kind := kind, rsvd := 0, payload := payload, crc := 0 }
  { f with crc := crc32 (flitBytes f) }

/-- The package follows the lowest-numbered package that the last timing flit of a port that is up names, or itself if none is
lower (R304). -/
def followsLowest (s : State) : Prop :=
  (s.timeRef = s.pkg ∨ ∃ e ∈ s.timeRefs, (s.port e.1).state = 2 ∧ e.2 = s.timeRef) ∧ s.timeRef.toNat ≤ s.pkg.toNat ∧
    ∀ e ∈ s.timeRefs, (s.port e.1).state = 2 → s.timeRef.toNat ≤ e.2.toNat

/-- Port n, with nothing waiting to be sent, becomes `x`, and what its last timing flit named counts no more: the package follows the
lowest package that is left, and everything else is as before (R304, R310, R314). -/
def leavesService (s : State) (n : Nat) (x : Port) (o : Out) : Prop :=
  ∃ t, o = .next t ∧ t.port n = x ∧ (∀ k, k ≠ n → t.port k = s.port k) ∧ followsLowest t ∧
    t = { s with ports := t.ports, timeRefs := s.timeRefs.filter (fun e => e.1 ≠ n), timeRef := t.timeRef
                 slew := if t.timeRef = s.pkg then 0 else s.slew }

/-- A packet asks for a reply to the request with a number of a sequencer (R227). -/
def asksUnder (h : BitVec 24) (tag : Nat) : Packet → Prop
  | .read _ _ _ x t _ _ _ _ _ => x = h ∧ t = tag
  | .catRead _ x t _ => x = h ∧ t = tag
  | _ => False

/-- The sequencer with the reply `r` to its unanswered request `tag`. -/
def repliedTo (q : Seqr) (tag : Nat) (r : Reply) : Seqr :=
  { q with asks := q.asks.map (fun a => if a.tag = tag ∧ a.reply = none then { a with reply := some r } else a) }

/-- The wavelengths of the other circuits from die i, and to die j (R303). -/
def otherWavelengths (s : State) (i j : Nat) : Nat × Nat :=
  let ks := (List.range 5).filter (fun k => k ≠ i ∧ k ≠ j)
  ((ks.map (fun k => (s.circuit i k).wl.toNat)).sum, (ks.map (fun k => (s.circuit k j).wl.toNat)).sum)

/-- The Curb of die d holds one released entry of one part, and the other Curbs nothing. -/
def lone (s : State) (d : Nat) (e : CurbEntry) (p : Part) : Prop :=
  d < 4 ∧ (∀ k < 4, (s.dieAt k).curb = if k = d then [e] else []) ∧ e.parts = [p] ∧ e.group = none ∧ e.released.isSome = true

/-- The Curb of die d becomes `l`; no other die changes. -/
def curbBecomes (s t : State) (d : Nat) (l : List CurbEntry) : Prop :=
  t.dieAt d = { s.dieAt d with curb := l } ∧ ∀ k, k ≠ d → t.dieAt k = s.dieAt k

/-- The entry with its one part in a state. -/
def withPart (e : CurbEntry) (p : Part) (st : PartState) : CurbEntry := { e with parts := [{ p with st := st }] }

/-- The outcome writes the bytes that `stored` gives, and the part is committed; a store to the die it comes from is acknowledged
with that. Counts of remote accesses, cached translations and poison marks may change, nothing else (R125, R126, R336, R344). -/
def commitsBytes (s : State) (d : Nat) (e : CurbEntry) (p : Part) (stored : Nat → Option Byte) (o : Out) : Prop :=
  ∃ t, o = .next t ∧ (∀ y, Memory.read t.mem y = (stored y).getD (Memory.read s.mem y)) ∧
    curbBecomes s t d (if p.die = d then [] else [withPart e p .committed]) ∧
    t = { s with mem := t.mem, poison := t.poison, trans := t.trans, dies := t.dies, freeCtr := t.freeCtr }

/-- No die of the package is migrating a page. -/
def settled (s : State) : Prop := ∀ k < 5, (s.tu k).migration = none

/-- The part can be applied at the home of its address: its lease holds, the home is memory, no migration is under way. -/
def landsAt (s : State) (d : Nat) (e : CurbEntry) (p : Part) (h : Home) : Prop :=
  p.pkg = s.pkg ∧ s.homeOf d e.sup .store p.via p.addr = .ok h ∧ isSession h.place = false ∧ settled s ∧
    s.ptime.toNat ≤ p.exp.toNat

/-- The n bytes from a place that a number gives, least significant first (R4). -/
def leStored (place n v : Nat) (y : Nat) : Option Byte :=
  if place ≤ y ∧ y < place + n then some (BitVec.ofNat 8 (v / 256 ^ (y - place))) else none

/-- No sequencer holds a tag or counts a held stream. -/
def untagged (s : State) : Prop := ∀ q ∈ s.allSeqs, q.tags = Vector.replicate 16 none ∧ q.heldStreams = []

/-- The port of die d passes traffic (R302, R312, R343). -/
def passes (s : State) (d : Nat) : Prop := (s.port (64 + d)).state = 2 ∧ (s.port (64 + d)).frozen = false

/-- What a Piazza sends die d over its port has left: n flits of a virtual channel, whose payload is free (R302, R305, R312). -/
def overPort (s t : State) (d : Nat) (vc : BitVec 3) (n : Nat) : Prop :=
  ∃ xs : List (BitVec 448), xs.length = n ∧ t.egress = s.egress ++ xs.map (Packet.toDie d vc) ∧ t.freeCtr = s.freeCtr + 1

/-- The events of a group's issue and of accesses on their way (R66, R125 to R127, R185, R227, R334, R341, R342), for a Curb of
one entry: a store commits its bytes at its home, an `xrmw` its new word, an acknowledged entry is free and a dropped one is a
loss of its issuer, a held one is counted and, at cr.holdmax, due at the next boundary; a stale request is translated again; what comes from another package reaches a die over that die's port;
RETRY applies a parked store, DROP acknowledges another package's as dropped. -/
def storeEvents : Prop :=
  ∀ (s : State) (h : BitVec 24) (r : Reply) (q : Seqr) (ws : List W32) (gs : List GroupWord) (d n v slot : Nat) (e : CurbEntry)
    (p : Part) (home : Home) (o : BitVec 4) (x c : W32) (a : W64) (y : Xlat) (rec : TrapRec) (pk : Parked) (ext : ExtRequest) (tag : Nat),
    let cycle := (s.dieAt d).cycle
    let old := BitVec.ofNat 32 (Memory.readLE s.mem home.place 4)
    let who : Who := (e.issuer d s.pkg).who
    let key := (ext.srcPkg, ext.handle, ext.stream)
    (issues { s with agenda := [] } → (∀ k < 4, (s.dieAt k).curb = []) → s.fetchGroup 7 s.ctx.pc = .ok ws →
      checkGroup s.ctx ws = .ok gs →
      exec (.groupIssue s.ctx.handle) s =
        .next { fetched s ws.length with
          issue := { issued s ws.length (bankCycles s.ctx ws (gs.map GroupWord.instr)) (isSyncGroup gs) with
            queue := memberQueue ws (gs.map GroupWord.instr) } }) ∧
    (s.seqOf h = some q → tag < 2 ^ 40 → passes s q.cdie.toNat →
      ∃ t, exec (.loadReturn h ⟨tag, r⟩) s = .next t ∧ t.seqOf h = some (repliedTo q tag r) ∧ (∀ k, k ≠ h → t.seqOf k = s.seqOf k) ∧
        overPort s t q.cdie.toNat 6 (packetFlits (.readReply s.pkg h tag r)) ∧
        t = { s with ctx := t.ctx, seqs := t.seqs, egress := t.egress, freeCtr := t.freeCtr }) ∧
    (lone s d e p → untagged s → p.st = .waiting → landsAt s d e p home → p.effects = bytesFrom p.addr n v → 1 ≤ n → n ≤ 128 →
      commitsBytes s d e p (leStored home.place n v) (exec (.storeArrive (.curb d e.num 0)) s)) ∧
    (lone s d e p → untagged s → p.st = .waiting → landsAt s d e p home → p.effects = [.rmw p.addr o x c 0] →
      s.poisoned home.place 4 = false →
      commitsBytes s d e p (leStored home.place 4 (rmwOp o.toNat old x c).toNat) (exec (.xrmwApply (.curb d e.num 0)) s)) ∧
    (lone s d e p → untagged s → passes s d → p.st = .committed ∨ p.st = .waiting ∧ p.pkg ≠ s.pkg →
      ∃ t, exec (.storeAck d ⟨e.num, 0⟩ .committed) s = .next t ∧ curbBecomes s t d [] ∧ overPort s t d 6 1 ∧
        t = { s with dies := t.dies, egress := t.egress, freeCtr := t.freeCtr }) ∧
    (lone s d e p → untagged s → passes s d → p.st = .waiting → p.pkg ≠ s.pkg → p.effects = bytesFrom p.addr n v →
      s.seqOf e.handle = some q →
      ∃ t, exec (.storeAck d ⟨e.num, 0⟩ (.dropped a)) s = .next t ∧ curbBecomes s t d [] ∧ overPort s t d 6 1 ∧
        t.seqOf e.handle = some { q with
          losses := q.losses ++ [{ stream := e.stream, dests := [{ pkg := p.pkg, die := s.partDie d e p, core := none }], addr := a }] } ∧
        (∀ k, k ≠ e.handle → t.seqOf k = s.seqOf k) ∧
        t = { s with dies := t.dies, ctx := t.ctx, seqs := t.seqs, egress := t.egress, freeCtr := t.freeCtr }) ∧
    (lone s d e p → passes s d → p.st = .waiting → p.pkg ≠ s.pkg → e.stream ≠ 0 → s.seqOf e.handle = some q → q.heldStreams = [] →
      ∃ t, exec (.heldNotice d ⟨e.num, 0⟩) s = .next t ∧ curbBecomes s t d [withPart e p .parked] ∧ overPort s t d 6 1 ∧
        t.seqOf e.handle = some { q with heldStreams := [(d, e.num, 0, cycle, p.va)] } ∧
        (∀ k, k ≠ e.handle → t.seqOf k = s.seqOf k) ∧
        t = { s with dies := t.dies, ctx := t.ctx, seqs := t.seqs, egress := t.egress, freeCtr := t.freeCtr }) ∧
    (lone s d e p → p.st = .parked → s.seqOf e.handle = some q → q.heldStreams = [(d, e.num, v, n, a)] →
      q.holdmax.toNat ≤ cycle - n →
      changesSeq s e.handle (fun z => { z with heldDue := z.heldDue ++ [a], heldStreams := [] }) (exec (.streamHeld d e.num) s)) ∧
    (lone s d e p → p.st = .waiting → p.pkg = s.pkg → p.exp.toNat + 2000 < s.ptime.toNat → e.kind ≠ .mark →
      p.effects = bytesFrom p.addr n v → 1 ≤ n → n ≤ 128 → s.translate who .store p.va n = .ok y → y.pkg = s.pkg → y.via = .phys →
      s.homeOf d e.sup .store .phys y.addr = .ok home →
      ∃ t, exec (.staleReturn d (.store e.num 0)) s = .next t ∧
        curbBecomes (s.touch who p.va) t d [{ e with parts := [{ p with
          die := dieOf home.place, via := .phys, addr := y.addr, exp := y.exp, effects := bytesFrom y.addr n v }] }] ∧
        t = { s.touch who p.va with dies := t.dies }) ∧
    (s.parkedAt d slot = some (rec, pk) → pk.work = .store d e.num 0 → lone s d e p → untagged s → p.st = .parked → p.exp ≠ 0 →
      landsAt s d e p home → p.effects = bytesFrom p.addr n v → 1 ≤ n → n ≤ 128 →
      commitsBytes { s with parked := s.parked.filter (fun z => z.num ≠ pk.num) } d e p (leStored home.place n v)
        (exec (.recordRetry d slot) s)) ∧
    (s.parkedAt d slot = some (rec, pk) → pk.work = .outside ext → ext.unit = none → s.reorder = [] →
      exec (.recordDrop d slot) s = .next { s with
        parked := s.parked.filter (fun z => z.num ≠ pk.num)
        streamsDone := if ext.stream = 0 then s.streamsDone else
          (key, ext.seqno, match s.streamsDone.find? (fun z => z.1 = key ∧ z.2.1 = ext.seqno) with
            | some z => z.2.2 - 1
            | none => ext.of - 1) :: s.streamsDone.filter (fun z => z.1 ≠ key)
        egress := s.egress ++ [.storeAck ext.srcPkg ext.handle ext.stream ext.seqno (.dropped rec.addr)] }) ∧
    (s.parkedAt d slot = none →
      exec (.recordRetry d slot) s = .next s.refuse ∧ exec (.recordDrop d slot) s = .next s.refuse)

/-- The outcome changes the translation unit of die d as `f` says, and nothing else. -/
def changesUnit (s : State) (d : Nat) (f : TransUnit → TransUnit) (o : Out) : Prop :=
  ∃ t, o = .next t ∧ t.tu d = f (s.tu d) ∧ (∀ k, k ≠ d → t.tu k = s.tu k) ∧ t = { s with trans := t.trans }

/-- As `changesUnit`, and a record goes to the queue of die d. -/
def changesUnitPosts (s : State) (d : Nat) (f : TransUnit → TransUnit) (r : TrapRec) (o : Out) : Prop :=
  ∃ t, o = .next t ∧ t.tu d = f (s.tu d) ∧ (∀ k, k ≠ d → t.tu k = s.tu k) ∧ postsRecord s t d r ∧
    t = { s with trans := t.trans, dies := t.dies, mem := t.mem }

/-- The place that a byte of 2 MiB frame f has in frame g. -/
def movedTo (f g y : Nat) : Nat := if y / 2 ^ 21 = f then y % 2 ^ 21 + 2 ^ 21 * g else y

/-- The frame of an HBM address of this package: its number among the package's 2 MiB frames. -/
def frameHere (s : State) (a : W64) (f : Nat) : Prop :=
  paPkg a = s.pkg ∧ isHbm (paLocal a) = true ∧ paLocal a = 2 ^ 21 * f

/-- Nothing that a migration has kept waiting is due to be tried again (R337). -/
def nothingWaits (s : State) : Prop :=
  (∀ c, (s.coll c).heldMsgs = []) ∧ (∀ e ∈ s.conns, e.2.ahead = []) ∧ (∀ j ∈ s.jobs, j.ended = none) ∧
    (∀ n, (s.session n).state ≠ 2) ∧ ∀ q ∈ s.allSeqs, q.imaged = false

/-- The events of translation, migration and the trap queues (R333, R336, R337, R339, R340, R343): a flush empties the cache of a
die; a window of remote accesses ends, a count at MIGTHR posts its candidate; a migration starts for a leaf that it may move, or is
refused with MIGST 4; its switch copies the frame and rewrites the leaf; its end, once every lease has run out, applies the
held writes at the new frame and posts its record; a write of HEAD consumes records; ACT 3 releases a connection. -/
def translationEvents : Prop :=
  ∀ (s : State) (d g n rdie slot : Nat) (rpkg : BitVec 15) (frame : W64) (m : Migration) (f f' : Nat) (t0 : W64)
    (olds news : List (Nat × Byte)) (v : BitVec 11) (r : TrapRec), d < 4 →
    let u := s.tu d
    let q := (s.dieAt d).queue
    let leaf := Memory.readLE s.mem (paLocal m.leaf) 8
    let moved (w : Nat × Byte) : HeldWrite := .bytes [w] none
    (∀ k ≤ 4, changesUnit s k (fun z => { z with cache := [] }) (exec (.flush k) s)) ∧
    (∀ k, changesUnit s k (fun z => if z.window = s.ptime.toNat / 2 ^ 20 then z
      else { z with remote := [], posted := [], window := s.ptime.toNat / 2 ^ 20 }) (exec (.remoteAccessWindowEnd k) s)) ∧
    (u.migthr ≠ 0 → u.remote.find? (fun e => e.1 = g) = some (g, n, rpkg, rdie) → u.migthr.toNat ≤ n → g ∉ u.posted →
      queueReady s d →
      changesUnitPosts s d (fun z => { z with posted := g :: z.posted })
        (record 6 0 0 0 (BitVec.ofNat 64 (2 ^ 49 * s.pkg.toNat + 2 ^ 46 * d + 2 ^ 21 * g)) (BitVec.ofNat 64 (rpkg.toNat + 2 ^ 15 * rdie)))
        (exec (.migrationCandidate d g) s)) ∧
    (u.migration = none → s.migratable u.migpte frame = true →
      changesUnit s d (fun z => { z with
        mignew := frame, migst := 1
        migration := some { old := frameAddr (s.physLE z.migpte 8) 0, fresh := frame, leaf := z.migpte, switched := none
                            heldOld := [], heldNew := [] } }) (exec (.migrationStart d frame) s)) ∧
    (u.migration.isSome = true ∨ s.migratable u.migpte frame = false →
      changesUnit { s with refusedWrites := s.refusedWrites + 1 } d (fun z => { z with migst := 4 })
        (exec (.migrationStart d frame) s)) ∧
    (u.migration = some m → m.switched = none → Memory.wf s.mem = true → frameHere s m.old f → frameHere s m.fresh f' → f ≠ f' →
      paPkg m.leaf = s.pkg → paLocal m.leaf % 8 = 0 → paLocal m.leaf / 2 ^ 21 ≠ f' →
      ∃ t, exec (.migrationSwitch d) s = .next t ∧
        (∀ y, Memory.read t.mem y =
          (leStored (paLocal m.leaf) 8 (leaf % 2 ^ 21 + 2 ^ 21 * (m.fresh.toNat / 2 ^ 21)) y).getD
            (Memory.read s.mem (movedTo f' f y))) ∧
        t.tu d = { u with migst := 2, migration := some { m with switched := some s.ptime } } ∧
        (∀ k, k ≠ d → t.tu k = s.tu k) ∧ t = { s with mem := t.mem, poison := t.poison, trans := t.trans }) ∧
    (u.migration = some m → m.switched = some t0 → t0.toNat + 1002020 ≤ s.ptime.toNat →
      (∀ k < 5, (s.tu k).lease.toNat ≤ 1000000) → (∀ l ∈ s.leases, l.2.1 ≤ 1000000) → (∀ k < 5, k ≠ d → (s.tu k).migration = none) →
      frameHere s m.old f → frameHere s m.fresh f' → m.heldOld = olds.map moved → m.heldNew = news.map moved →
      (∀ w ∈ olds ++ news, w.1 < 2 ^ 49) → nothingWaits s → queueReady s d → paPkg q.qsync ≠ s.pkg →
      ∃ t, exec (.migrationApply d) s = .next t ∧
        (∀ y, Memory.read t.mem y =
          (((olds ++ news).reverse.find? (fun w => movedTo f f' w.1 = y)).map Prod.snd).getD (Memory.read s.mem y)) ∧
        t.tu d = { u with migration := none, migst := 3 } ∧ (∀ k, k ≠ d → t.tu k = s.tu k) ∧
        postsRecord { s with mem := t.mem } t d (record 7 0 0 0 m.fresh 0) ∧
        t = { s with mem := t.mem, poison := t.poison, trans := t.trans, dies := t.dies }) ∧
    ((q.tail - v).toNat ≤ q.pending → q.holding = [] → (∀ e ∈ q.recs, e.2.parked = none ∧ e.2.kind ≠ 2) →
      ∃ t, exec (.headWrite d v) s = .next t ∧ t.dieAt d = { s.dieAt d with queue := { q with head := v } } ∧
        (∀ k, k ≠ d → t.dieAt k = s.dieAt k) ∧ t = { s with dies := t.dies }) ∧
    (q.pending < (q.tail - v).toNat → exec (.headWrite d v) s = .next { s with refusedWrites := s.refusedWrites + 1 }) ∧
    (s.recordAt d slot = some r → r.kind = 3 → r.master.toNat / 2 ^ 28 = 4 →
      ∃ t, exec (.connectionThaw d slot) s = .next t ∧
        (∀ k, t.conn k = if k = r.master.toNat % 64 then { s.conn k with frozen := false } else s.conn k) ∧
        t = { s with conns := t.conns }) ∧
    (s.recordAt d slot = none → exec (.connectionThaw d slot) s = .next { s with refusedWrites := s.refusedWrites + 1 })

/-- The outcome sets the error counters of die d, and with them its trap queue, and nothing else of the dies. -/
def countsErrors (s t : State) (d : Nat) (e : Errors) : Prop :=
  t.dieAt d = { s.dieAt d with errors := e } ∧ ∀ k, k ≠ d → t.dieAt k = s.dieAt k

/-- The events of memory errors (R344, R345): an uncorrectable error is counted and poisons its granule; a corrected one is
counted, and at CETHR posts the one record of its window; scrub finds both, a poisoned granule at each visit of its first word (the
model's choice, log entries 39 and 75); in a new window of 2^20 ticks the count starts anew. -/
def errorEvents : Prop :=
  ∀ (s : State) (d : Nat) (a : W64) (up : Bool), d < 4 → paPkg a = s.pkg → dieOf (paLocal a) = d →
    let was := (s.dieAt d).errors
    let window := s.ptime.toNat / 2 ^ 20
    let e : Errors := if was.window = window then was else { was with window := window, cecnt := 0, posted := false }
    let q := (s.dieAt d).queue
    let key := BitVec.ofNat 64 (2 ^ 49 * s.pkg.toNat + 2 ^ 46 * d + 2 ^ 40 * 0x17 + 2 ^ 16 * (0x100 + d))
    let r : TrapRec := { record 5 0 0 0 key ((e.cecnt + 1).zeroExtend 64) with pt := s.ptime }
    let corrects (o : Out) : Prop := ∃ t, o = .next t ∧
      (e.cethr = 0 ∨ e.posted = true ∨ (e.cecnt + 1).toNat < e.cethr.toNat →
        countsErrors s t d { e with cecnt := e.cecnt + 1 } ∧ t = { s with dies := t.dies }) ∧
      (e.cethr ≠ 0 → e.posted = false → e.cethr.toNat ≤ (e.cecnt + 1).toNat → queueReady s d →
        t.dieAt d = { s.dieAt d with
          errors := { e with cecnt := e.cecnt + 1, posted := true }
          queue := { q with tail := q.tail + 1, recs := tset (q.tail.toNat % 1024) r q.recs } } ∧
        (∀ k, k ≠ d → t.dieAt k = s.dieAt k) ∧ t.mem = postMem s d ∧ t = { s with dies := t.dies, mem := t.mem })
    (hasMemory (paLocal a) = true →
      corrects (exec (.memoryError (.memory d a true)) s) ∧
      ∃ t, exec (.memoryError (.memory d a false)) s = .next t ∧ countsErrors s t d { was with uecnt := was.uecnt + 1 } ∧
        (∀ x, x ∈ t.poison ↔ x = paLocal a / 32 ∨ x ∈ s.poison) ∧ t = { s with dies := t.dies, poison := t.poison }) ∧
    (isHbm (paLocal a) = true →
      (s.poisoned (paLocal a) 8 = false → corrects (exec (.patrolScrub d a true) s) ∧ exec (.patrolScrub d a false) s = .next s) ∧
      (s.poisoned (paLocal a) 8 = true → paLocal a % 32 = 0 → queueReady s d →
        ∃ t, exec (.patrolScrub d a up) s = .next t ∧ postsRecord s t d (record 9 cPoison 0 0 a 0) ∧
          t = { s with dies := t.dies, mem := t.mem })) ∧
    (∃ t, exec (.errorWindowEnd d) s = .next t ∧ countsErrors s t d e ∧
      t = { s with dies := t.dies })

/-- In `t` channel c of die d is `x` and every other channel is as in `s`. -/
def channelIs (s t : State) (d c : Nat) (x : Channel) : Prop :=
  t.chan d c = x ∧ ∀ d' c', 128 * d' + c' ≠ 128 * d + c → t.chan d' c' = s.chan d' c'

/-- The record is one contiguous copy of L0 bytes (Table 7.3): no list, no addition, no footprint, one row. -/
def contiguous (r : XRec) : Prop :=
  r.idx = 0 ∧ r.acc = false ∧ r.fpv = false ∧ r.l1 = 1 ∧ r.l2 = 1 ∧ r.l0 ≠ 0 ∧ r.ok = true

/-- The units of a contiguous record: 64-byte pieces of its destination (R284). -/
def unitsOf (r : XRec) : Nat := ((r.word 2).toNat % 64 + r.l0 + 63) / 64

/-- The first byte of unit u within the record, and the byte after its last (R284). -/
def unitFrom (r : XRec) (u : Nat) : Nat := if u = 0 then 0 else 64 * u - (r.word 2).toNat % 64
def unitTo (r : XRec) (u : Nat) : Nat := min r.l0 (64 * (u + 1) - (r.word 2).toNat % 64)

/-- The master that a copy channel is (R329). -/
def channelWho (s : State) (d : Nat) (c : Channel) : Who := { die := d, asid := s.asidOf c.job, job := c.job, sup := false }

/-- n bytes at a virtual address that a channel's job can store to in this package's memory, before and after the translation is
cached, with no migration under way. -/
def storable (s : State) (d : Nat) (c : Channel) (va : W64) (n : Nat) (y : Xlat) (h : Home) : Prop :=
  let w := channelWho s d c
  s.translate w .store va n = .ok y ∧ y.pkg = s.pkg ∧ hasMemory h.place = true ∧ isSession h.place = false ∧
    (s.note w .store va).homeOf d false .store y.via y.addr = .ok h ∧ s.homeOf d false .store y.via y.addr = .ok h ∧ settled s

/-- Memory differs from that of `s` in the bytes that `stored` gives alone. -/
def memoryIs (s t : State) (stored : Nat → Option Byte) : Prop :=
  ∀ y, Memory.read t.mem y = (stored y).getD (Memory.read s.mem y)

/-- A channel that is done with its claim, returned with a status or not (R178, R184, R289); one that is left with nothing to do
belongs to no job once its own has ended (R222). -/
def released (s : State) (c : Channel) (status : Option (BitVec 5)) (next : W64) (pend : List W64) : Channel :=
  { c with
    last := status.getD c.last, retcnt := if status.isSome then c.retcnt + 1 else c.retcnt, claimed := false, started := false
    cur := if next = 0 then pend.head? else some next, pend := if next = 0 then pend.drop 1 else pend, wmark := 0, sent := 0
    acked := [], applied := [], stopping := none, fkind := 0, faultSlot := none
    state := if next = 0 ∧ pend = [] then 0 else 1
    job := if next = 0 ∧ pend = [] ∧ s.jobLive c.job = false then 0 else c.job }

/-- The outcome returns the record of a channel with a status at its home and goes on to its NEXT (R178, R242). -/
def returnsRecord (s : State) (d c : Nat) (h : Home) (status : BitVec 5) (o : Out) : Prop :=
  let ch := s.chan d c
  let r : XRec := ch.snap
  ∃ t, o = .next t ∧ memoryIs s t (leStored h.place 8 ((r.word 0).toNat / 64 * 64 + 2 * status.toNat)) ∧
    channelIs s t d c (released s ch (some status) r.next ch.pend) ∧
    t.dieAt d = { s.dieAt d with live := (s.dieAt d).live.filter (fun f => f.who ≠ .channel c) } ∧
    (∀ k, k ≠ d → t.dieAt k = s.dieAt k) ∧
    t = { s with mem := t.mem, poison := t.poison, channels := t.channels, dies := t.dies, trans := t.trans, freeCtr := t.freeCtr }

/-- The events of a copy channel (R178, R179, R184, R241, R284 to R289), whose record is one contiguous copy in this package's
memory: it claims the record by setting OWN, registers on its footprint, sends its units, passes its watermark and marks the
lines that are done, returns the record DONE and follows NEXT; it stops with a fault and posts its record; ACT 1 resumes it,
ACT 2 returns the record DROPPED, a kill leaves it IDLE. -/
def channelEvents : Prop :=
  ∀ (s : State) (d c u : Nat) (y : Xlat) (h : Home) (bs : List Byte) (st kind : BitVec 3) (va : W64) (code : BitVec 8),
    d < 4 → c < 128 →
    let ch := s.chan d c
    let r : XRec := ch.snap
    let who := channelWho s d ch
    let head := ch.cur.getD 0
    let m1 := Memory.write h.place (Memory.read s.mem h.place ||| 1) s.mem
    let snap : XRec := Vector.ofFn (fun i => BitVec.ofNat 64 (Memory.readLE m1 (h.place + 8 * i.val) 8))
    let runs := ch.claimed = true ∧ ch.started = true ∧ ch.state = 1 ∧ ch.stopping = none
    let dstOf (v : Nat) : W64 := r.word 2 + BitVec.ofNat 64 (unitFrom r v)
    let dst := dstOf u
    let n := unitTo r u - unitFrom r u
    let src := r.word 1 + BitVec.ofNat 64 (unitFrom r u)
    let read := s.noteAll who .load (linePieces (n / 128 + 3) src n)
    let line := dst.toNat / 128
    let lineDone := line ∉ ch.marked ∧ ∀ v < unitsOf r, u < v → (dstOf v).toNat / 128 ≠ line
    let rest (t : State) (f : Nat → Option Byte) (x : Channel) : Prop :=
      memoryIs s t f ∧ channelIs s t d c x ∧ t = { s with mem := t.mem, poison := t.poison, channels := t.channels, trans := t.trans, freeCtr := t.freeCtr }
    (ch.mayClaim = true → storable s d ch head 8 y h → s.poisoned h.place 64 = false →
      (Memory.read s.mem h.place).getLsbD 0 = false → snap.ok = true → snap.fpv = false →
      ∃ t, exec (.recordClaim d c) s = .next t ∧
        rest t (leStored h.place 1 (Memory.read s.mem h.place ||| 1).toNat)
          { ch with snap := snap, claimed := true, started := true, claim := ch.claim + 1, wmark := 0, sent := 0, acked := []
                    applied := [], idxs := [], marked := [], state := 1 }) ∧
    (ch.claimed = true → ch.started = false → ch.stopping = none → ch.state = 2 → r.fpv = true → (s.dieAt d).live = [] →
      ∃ t, exec (.footprintRegister d (.channel c)) s = .next t ∧ channelIs s t d c { ch with started := true, state := 1 } ∧
        t.dieAt d = { s.dieAt d with live := [{ who := .channel c, job := ch.job, entry := r.foot, num := s.orderNext }] } ∧
        (∀ k, k ≠ d → t.dieAt k = s.dieAt k) ∧
        t = { s with channels := t.channels, dies := t.dies, orderNext := s.orderNext + 1 }) ∧
    (runs → contiguous r → ch.killing = false → ch.wmark ≤ u → u < ch.wmark + 1024 → u ∉ ch.applied → u ≤ ch.sent →
      u < unitsOf r → s.unitParked d c u = false → storable read d ch dst n y h →
      s.unitSource who { src := src, dst := dst, n := n } = .bytes bs → bs.length = n →
      ∃ t, exec (.unitArrive d c u) s = .next t ∧
        rest t (fun z => if h.place ≤ z ∧ z < h.place + n then bs[z - h.place]? else none)
          { ch with applied := ch.applied ++ [u], sent := max ch.sent (u + 1) }) ∧
    (ch.claimed = true → contiguous r → r.sync = 0 → u < unitsOf r → u ∈ ch.applied → ch.wmark = u → ch.acked = [] →
      storable s d ch (BitVec.ofNat 64 (128 * line)) 1 y h → (∀ x, s.translate who .store dst n = .ok x → x.pkg = s.pkg) →
      (∀ p i, h.fe ≠ some (.bit p i)) →
      ∃ t, exec (.unitAck d c u) s = .next t ∧
        channelIs s t d c { ch with wmark := u + 1, acked := [], applied := ch.applied.filter (fun z => z ≠ u)
                                    marked := if lineDone then line :: ch.marked else ch.marked } ∧
        (∀ l, l ∈ t.empties ↔ l ∈ s.empties ∧ ¬ (lineDone ∧ h.fe = some (.line l))) ∧
        t = { s with channels := t.channels, empties := t.empties }) ∧
    (runs → contiguous r → ch.killing = false → ch.wmark = unitsOf r → storable s d ch head 8 y h →
      returnsRecord s d c h 1 (exec (.recordReturn d c) s)) ∧
    (ch.stopping = some (st, kind, va, code) → (∀ v ∈ ch.applied, v < ch.wmark ∨ v ∈ ch.acked) → queueReady s d →
      ∃ t, exec (.channelFault d c) s = .next t ∧
        channelIs s t d c { ch with state := st, fkind := kind, faddr := va, stopping := none
                                    faultSlot := if st = 3 then some ((s.dieAt d).queue.tail.toNat % 1024) else none } ∧
        postsRecord s t d (record (if st = 3 then 2 else 3) code (BitVec.ofNat 32 (2 ^ 28 + 2 ^ 24 * d + c)) ch.job va 0) ∧
        t = { s with channels := t.channels, dies := t.dies, mem := t.mem }) ∧
    (ch.state = 3 → ch.claimed = true → ch.started = true → ch.cur.isSome = true → contiguous r → ch.idxs = [] →
      (∀ v < unitsOf r, v < ch.wmark ∨ v ∈ ch.acked → (dstOf v).toNat / 128 ∈ ch.marked ∨
        ∃ x < unitsOf r, ¬ (x < ch.wmark ∨ x ∈ ch.acked) ∧ (dstOf x).toNat / 128 = (dstOf v).toNat / 128) →
      changesChannel s d c (fun x => { x with
        state := 1, fkind := 0, stopping := none, faultSlot := none
        applied := x.applied.filter (fun z => decide (z < x.wmark) || x.acked.contains z) }) (exec (.channelResume d c) s)) ∧
    (ch.state ≠ 3 → exec (.channelResume d c) s = .next s.refuse) ∧
    (ch.state = 3 ∨ ch.state = 4 → ch.claimed = true → storable s d ch head 8 y h →
      returnsRecord s d c h 3 (exec (.channelDrop d c) s)) ∧
    (ch.claimed = false → (∀ x ∈ (s.dieAt d).live, x.who ≠ .channel c) →
      (ch.killing = true → ch.state ≠ 3 → ∃ t, exec (.killComplete d c) s = .next t ∧
        channelIs s t d c { released s ch none 0 [] with killed := true, killing := false } ∧ t.dieAt d = s.dieAt d ∧
        (∀ k, k ≠ d → t.dieAt k = s.dieAt k) ∧ t = { s with channels := t.channels, dies := t.dies }) ∧
      (ch.state = 4 → ∃ t, exec (.channelKill d c) s = .next t ∧
        channelIs s t d c { released s ch none 0 [] with killed := true, killing := false } ∧ t.dieAt d = s.dieAt d ∧
        (∀ k, k ≠ d → t.dieAt k = s.dieAt k) ∧ t = { s with channels := t.channels, dies := t.dies })) ∧
    (ch.state ≠ 3 → ch.state ≠ 4 → exec (.channelDrop d c) s = .next s.refuse ∧ exec (.channelKill d c) s = .next s.refuse)

/-- The events of a feed port (R141, R291, R292): a fill walk delivers an entry, a drain walk writes one to a scratchpad line pair
and marks lines that it does not return to. -/
def feedEvents : Prop :=
  ∀ (s : State) (h : BitVec 24) (p : BitVec 3) (q : Seqr) (w : Walk) (bs : List Byte) (e : Vec) (es : List Vec)
    (y y' : Xlat) (b b' : Home),
    let f := q.port p.toNat
    let a := w.addr w.place
    let who := s.masterOf q
    let chunks := w.chunks 256 w.place 256
    let noted := s.noteAll who .store chunks
    let ported (g : FeedPort) : Seqr := { q with ports := q.ports.setIfInBounds p.toNat g }
    s.seqOf h = some q → q.st = .resident ∨ q.st = .running → q.depart = none → f.walk = some w → w.failed = none →
    w.place + 256 ≤ w.length →
    (f.bind = 1 → f.entries.length < 4 → s.walkRead who w 256 = .bytes bs →
      ∃ t, exec (.feedFill h p) s = .next t ∧
        t.seqOf h = some (ported { f with entries := f.entries ++ [BitVec.ofNat 2048 (ofBytes bs)], walk := some (w.advance 256) }) ∧
        (∀ k, k ≠ h → t.seqOf k = s.seqOf k) ∧ t = { s with ctx := t.ctx, seqs := t.seqs, trans := t.trans, freeCtr := t.freeCtr }) ∧
    (f.bind = 2 → (∀ l ∈ s.landings, ¬ (l.handle = h ∧ l.port = some p.toNat)) → f.closing = false → f.entries = e :: es → w.sync = 0 → settled s →
      s.walkWritable who chunks = .ok [(a, 128, y), (a + 128, 128, y')] → y.pkg = s.pkg → y'.pkg = s.pkg →
      noted.homeOf q.cdie.toNat q.sup .store y.via y.addr = .ok b →
      noted.homeOf q.cdie.toNat q.sup .store y'.via y'.addr = .ok b' → isScratch b.place = true → isScratch b'.place = true →
      b.place + 128 = b'.place → b.fe = some (.line (b.place / 128)) → b'.fe = some (.line (b'.place / 128)) →
      ∃ t, exec (.feedDrainWrite h p) s = .next t ∧ memoryIs s t (leStored b.place 256 e.toNat) ∧
        t.seqOf h = some (ported { f with entries := es, walk := some (w.advance 256) }) ∧
        (∀ k, k ≠ h → t.seqOf k = s.seqOf k) ∧
        (∀ l, l ∈ t.empties ↔ l ∈ s.empties ∧
          ¬ (l = b.place / 128 ∧ w.returnsTo 256 (w.place + 256) a = false) ∧
          ¬ (l = b'.place / 128 ∧ w.returnsTo 256 (w.place + 256) (a + 128) = false)) ∧
        t = { s with mem := t.mem, poison := t.poison, empties := t.empties, ctx := t.ctx, seqs := t.seqs, trans := t.trans, freeCtr := t.freeCtr })

/-- The outcome changes core n as `f` says, and nothing else. -/
def changesCore (s : State) (n : Nat) (f : Core → Core) (o : Out) : Prop :=
  ∃ t, o = .next t ∧ t.coreOf n = f (s.coreOf n) ∧ (∀ k, k ≠ n → t.coreOf k = s.coreOf k) ∧ t = { s with cores := t.cores }

/-- The outcome changes tile p of core n as `z` says and its head command to `m`, and nothing else. -/
def turnsTile (s : State) (n p : Nat) (z : Tile → Tile) (m : MatCmd) (o : Out) : Prop :=
  ∃ t, o = .next t ∧
    t.coreOf n = { s.coreOf n with mq := m :: (s.coreOf n).mq.drop 1, tiles := (t.coreOf n).tiles } ∧
    (∀ k < 8, t.tileAt n k = if k = p then z (s.tileAt n p) else s.tileAt n k) ∧ (∀ k, k ≠ n → t.coreOf k = s.coreOf k) ∧
    t = { s with cores := t.cores }

/-- The outcome takes the head command, which has no registration, out of the queue of core n, and changes sequencer h as `f`
says; a tile is BUSY as the queue then stands (R188, R190). -/
def leavesQueue (s : State) (n : Nat) (h : BitVec 24) (f : Seqr → Seqr) (o : Out) : Prop :=
  ∃ t, o = .next t ∧
    t.coreOf n = { s.coreOf n with mq := (s.coreOf n).mq.drop 1, routine := none, tiles := (t.coreOf n).tiles } ∧
    (∀ p < 8, t.tileAt n p = { s.tileAt n p with busy := t.owed n p }) ∧ (∀ k, k ≠ n → t.coreOf k = s.coreOf k) ∧
    (∀ k, t.seqOf k = if k = h then (s.seqOf h).map f else s.seqOf k) ∧
    t = { s with cores := t.cores, ctx := t.ctx, seqs := t.seqs }

/-- Byte k of a row of 768 bytes, in the six lines whose homes are `ls` (R193). -/
def rowByte (s : State) (ls : List (W64 × Xlat × Home)) (k : Nat) : Byte :=
  match ls[k / 128]? with
  | some l => Memory.read s.mem (l.2.2.place + k % 128)
  | none => 0

/-- The 48-bit cell j of such a row: six bytes, least significant first. -/
def rowCell (s : State) (ls : List (W64 × Xlat × Home)) (j : Nat) : BitVec 48 :=
  BitVec.ofNat 48 ((List.range 6).map (fun i => (rowByte s ls (6 * j + i)).toNat * 256 ^ i)).sum

/-- Byte k of row r of a tile. -/
def tileByte (z : Tile) (r k : Nat) : Byte := BitVec.ofNat 8 ((tget 0 z.cells (128 * r + k / 6)).toNat / 256 ^ (k % 6))

/-- The contributions of a streamed row, added to its tile in column order (R59, R267): the tile and whether NV is set. -/
def rowAdded (z : Tile) (x : PassRow) : Tile × Bool :=
  (List.range 128).foldl (fun a j =>
    let (y, v) := a.1.addTo (128 * x.row + j) (x.contribs j)
    (y, a.2 || v)) (z, false)

/-- The events of a core's matrix queue (R188, R190 to R194, R241, R267, R273, R278, R280, R281): the head command's turn zeroes or
re-anchors a tile, moves one row between a tile and memory, or loads a routine; a finished command leaves the queue; an accepted
call starts with what it captured; a streamed row's contributions land; a routine that is done adds its flags and its call to
its sequencer, one that a deadline stopped adds nothing; past 65,536 cycles it stops; copy traffic lands at its home, counts
in no sync word and marks the lines it completes; an entry of a drain port is written once its bytes have landed (R291). -/
def matrixEvents : Prop :=
  ∀ (s : State) (n p first count k : Nat) (m : MatCmd) (q : Seqr) (f48 : Bool) (anchor : BitVec 10) (addr stride sync : W64)
    (ls : List (W64 × Xlat × Home)) (bs : List Byte) (a : CallArgs) (r : Routine) (x : PassRow) (xs : List PassRow)
    (l : Landing) (e : LandPiece) (h : Home) (o : Nat),
    let c := s.coreOf n
    let z := s.tileAt n p
    let started : MatCmd := { m with started := true }
    let words := (List.range count).map (fun i => ((List.range 8).map (fun j => (bs[8 * i + j]?.getD 0).toNat * 256 ^ j)).sum)
    (c.mq.head? = some m → s.seqOf m.handle = some q →
      (m.started = false → p < 8 →
        (m.op = .zero p f48 anchor → turnsTile s n p (fun y => { y with
          kind := if f48 then 2 else 1, anchor := if f48 then 0 else anchor, o := false, x := false, nan := false, cells := []
          poisoned := [] }) started (exec (.matrixCommandTurn n) s)) ∧
        (m.op = .anch p anchor → z.poisoned = [] →
          turnsTile s n p (fun y => y.reanchor anchor) started (exec (.matrixCommandTurn n) s))) ∧
      (p < 8 → m.op = .load p first count addr stride → count ≠ 0 → s.rowHomes q .load (rowLines addr) = .ok ls →
        (∀ y ∈ ls, s.feFull y.2.2.fe = true ∧ s.poisoned y.2.2.place 128 = false) →
        ∃ t, exec (.matrixCommandTurn n) s = .next t ∧
          t.coreOf n = { c with
            mq := { m with op := .load p (first + 1) (count - 1) (addr + stride) stride } :: c.mq.drop 1
            tiles := (t.coreOf n).tiles } ∧
          t.tileAt n p = { z with
            cells := (t.tileAt n p).cells
            poisoned := z.poisoned.filter (fun i => decide (i < 128 * first ∨ 128 * first + 128 ≤ i)) } ∧
          (∀ i < 16384, tget 0 (t.tileAt n p).cells i =
            if 128 * first ≤ i ∧ i < 128 * first + 128 then rowCell s ls (i - 128 * first) else tget 0 z.cells i) ∧
          (∀ i < 8, i ≠ p → t.tileAt n i = s.tileAt n i) ∧ (∀ i, i ≠ n → t.coreOf i = s.coreOf i) ∧
          t = { s with cores := t.cores, trans := t.trans, freeCtr := t.freeCtr }) ∧
      (m.op = .store p first count addr stride sync → count ≠ 0 → (s.tileAt n p).poisonIn first 1 = false →
        s.rowHomes q .store (rowLines addr) = .ok ls →
        let u := s.touchAll (s.masterOf q) (rowLines addr)
        ∃ t, exec (.matrixCommandTurn n) s = .next t ∧
          t.coreOf n = { c with mq :=
            { m with op := .store p (first + 1) (count - 1) (addr + stride) stride sync } :: c.mq.drop 1 } ∧
          (∀ i, i ≠ n → t.coreOf i = s.coreOf i) ∧
          t.landings.take s.landings.length = s.landings ∧ t.landings.length = s.landings.length + 1 ∧
          (∀ land ∈ t.landings.drop s.landings.length,
            land.num = s.landNext ∧ land.core = n ∧ land.port = none ∧ land.handle = m.handle ∧ land.sync = sync ∧ land.count = 768 ∧
            land.pieces.map (fun y => (y.va, y.addr)) = ls.map (fun y => (y.1, y.2.1.addr)) ∧
            ∀ i < 6, ∀ j < 128, ((land.pieces[i]?).bind (fun y => y.bytes[j]?)) = some (tileByte z first (128 * i + j))) ∧
          t = { u with cores := t.cores, landNext := s.landNext + 1, landings := t.landings }) ∧
      (m.op = .rload p count o addr → m.started = false → count ≠ 0 → o + count ≤ 16384 → p < 256 →
        s.engReadAll (s.masterOf q) false (linePieces (8 * count / 128 + 2) addr (8 * count)) = .bytes bs →
        routineOk words = true →
        ∃ t, exec (.matrixCommandTurn n) s = .next t ∧ (t.coreOf n).mq = started :: c.mq.drop 1 ∧
          (∀ i < 256, (t.coreOf n).entry i = if i = p then
            { valid := true, offset := BitVec.ofNat 14 o, length := BitVec.ofNat 15 count
              owner := BitVec.ofNat 17 (m.job.toNat + 1) } else c.entry i) ∧
          (∀ i < 16384, (t.coreOf n).uopWord i =
            if o ≤ i ∧ i < o + count then BitVec.ofNat 64 (words[i - o]?.getD 0) else c.uopWord i) ∧
          t.coreOf n = { c with mq := (t.coreOf n).mq, store := (t.coreOf n).store, dir := (t.coreOf n).dir } ∧
          (∀ i, i ≠ n → t.coreOf i = s.coreOf i) ∧ t = { s with cores := t.cores, trans := t.trans, freeCtr := t.freeCtr }) ∧
      (m.op = .call a → (a.mp[7]).getLsbD 17 = false → c.routine = none → c.callable a.routine m.job = true →
        (c.entry a.routine).length ≠ 0 →
        changesCore s n (fun y => { y with
          mq := started :: y.mq.drop 1
          routine := some { args := a, pos := 0, loops := [], t := false, active := none, shadow := none, walks := [], flags := 0
                            gen := a.gen, pending := [], rows := 0, begun := false, ahead := none, rowFrom := s.landNext
                            began := (s.dieAt (n / 48)).cycle, stopped := none, done := false } })
          (exec (.routineStart n) s)) ∧
      (m.reg = none →
        (m.started = true ∧ (m.op = .zero p f48 anchor ∨ m.op = .anch p anchor ∨ m.op = .rload p count o addr) ∨
            m.op = .load p first 0 addr stride ∨ m.op = .store p first 0 addr stride sync ∧ s.coreTraffic n = false →
          leavesQueue s n m.handle id (exec (.matrixCommandComplete n) s)) ∧
        (c.routine = some r → r.pending = [] → s.coreTraffic n = false →
          (r.stopped = none → r.done = true →
            leavesQueue s n m.handle (fun y => { y with fstat := y.fstat ||| r.flags.zeroExtend 32, calls := y.calls + 1 })
              (exec (.routineComplete n) s)) ∧
          (r.stopped = some cDeadline → leavesQueue s n m.handle id (exec (.routineComplete n) s))))) ∧
    (c.routine = some r → r.pending = x :: xs → (s.tileAt n x.tile).poisoned = [] → x.tile < 8 →
      ∃ t, exec (.contributionLand n) s = .next t ∧
        t.coreOf n = { c with
          routine := some { r with pending := xs, flags := r.flags ||| if (rowAdded (s.tileAt n x.tile) x).2 then 1 else 0 }
          tiles := (t.coreOf n).tiles } ∧
        (∀ i < 8, t.tileAt n i = if i = x.tile then (rowAdded (s.tileAt n i) x).1 else s.tileAt n i) ∧
        (∀ i, i ≠ n → t.coreOf i = s.coreOf i) ∧ t = { s with cores := t.cores }) ∧
    (c.routine = some r → 65536 < (s.dieAt (n / 48)).cycle - r.began → r.stopped = none →
      changesCore s n (fun y => { y with routine := some { r with stopped := some cMatrix } }) (exec (.routineLimit n) s)) ∧
    (c.routine = some r → (s.dieAt (n / 48)).cycle - r.began ≤ 65536 → exec (.routineLimit n) s = .next s) ∧
    (s.landings.find? (fun y => y.num = k) = some l → l.pieces = [e] → e.pkg = s.pkg → s.ptime.toNat ≤ e.exp.toNat → l.sync = 0 →
      settled s → s.homeOf (s.landWho l).die (s.landWho l).sup .store e.via e.addr = .ok h → (∀ y i, h.fe ≠ some (.bit y i)) →
      let others := s.landings.filter (fun y => y.num ≠ k)
      let done := e.va.toNat / 128 ∈ l.lines ∧ ∀ y ∈ others, y.core = l.core → y.port = l.port →
        l.port = none ∨ y.handle = l.handle → e.va.toNat / 128 ∉ y.lines
      let written (i : Nat) : FeedPort :=
        let f := q.port i
        if f.entries.drop 1 = [] ∧ f.closing = true then .zero
        else { f with entries := f.entries.drop 1, walk := f.walk.map (fun w => w.advance 256) }
      let lands (t : State) : Prop :=
        memoryIs s t (fun y => if h.place ≤ y ∧ y < h.place + e.bytes.length then e.bytes[y - h.place]? else none) ∧
          ∀ y, y ∈ t.empties ↔ y ∈ s.empties ∧ ¬ (done ∧ h.fe = some (.line y))
      (l.port = none → ∃ t, exec (.copyTrafficLand k) s = .next t ∧ lands t ∧
        t = { s with mem := t.mem, poison := t.poison, empties := t.empties, trans := t.trans, freeCtr := t.freeCtr
                     landings := others }) ∧
      (∀ i < 8, l.port = some i → s.seqOf l.handle = some q → ∃ t, exec (.copyTrafficLand k) s = .next t ∧ lands t ∧
        t.seqOf l.handle = some { q with ports := q.ports.setIfInBounds i (written i) } ∧
        (∀ x, x ≠ l.handle → t.seqOf x = s.seqOf x) ∧
        t = { s with mem := t.mem, poison := t.poison, empties := t.empties, trans := t.trans, freeCtr := t.freeCtr
                     landings := others, ctx := t.ctx, seqs := t.seqs }))

/-- In `t` collective channel ch is `x` and every other channel is as in `s`. -/
def collIs (s t : State) (ch : Nat) (x : Coll) : Prop := t.coll ch = x ∧ ∀ k, k ≠ ch → t.coll k = s.coll k

/-- A master can store n bytes of one line at a virtual address of this package's memory, before and after the translation is
cached, with no migration under way. -/
def writable (s : State) (w : Who) (va : W64) (n : Nat) (y : Xlat) (h : Home) : Prop :=
  s.translate w .store va n = .ok y ∧ y.pkg = s.pkg ∧ s.homeOf w.die w.sup .store y.via y.addr = .ok h ∧
    (s.note w .store va).homeOf w.die w.sup .store y.via y.addr = .ok h ∧ (∀ p i, h.fe ≠ some (.bit p i)) ∧ settled s

/-- The events of the collective engine (R212, R213, R215, R295 to R299): a send end that holds a credit sends its next message
from the slot at HEAD; a message whose turn it is lands at the HEAD slot of its receive end, which marks the lines, counts the
message in the trigger counter it names and acknowledges (the messages of a new setting count from 0, log entry 41); the acknowledgment frees the slot at the send end, or, marked
discarded, puts it into STATE 3; COUNT is written as `ctrig` sets it; credits return. -/
def collectiveEvents : Prop :=
  ∀ (s : State) (ch : Nat) (q : QueuedMsg) (qs : List QueuedMsg) (bs : List Byte) (m : Message) (y : Xlat) (h : Home)
    (acked : W32) (disc : BitVec 2) (v : W32) (pkg : BitVec 15) (n : BitVec 12) (entry : Nat),
    let c := s.coll ch
    let slotOf (c : Coll) : W64 := c.buf + BitVec.ofNat 64 (c.head.toNat * c.stride)
    let pieces := linePieces (c.size / 128 + 2) (slotOf c) c.size
    let r := s.coll m.dstCh.toNat
    let who (c : Coll) : Who := { die := 4, asid := s.asidOf c.job, job := c.job, sup := false }
    let mseq : W32 := match r.heard with
      | some (p, h, e, _) => if p = m.srcPkg ∧ h = m.srcCh ∧ e = m.setting then r.mseq else 0
      | none => r.mseq
    let next (c : Coll) : BitVec 12 := BitVec.ofNat 12 ((c.head.toNat + 1) % c.depth)
    (c.state = 1 → c.frozen = false → c.mc = false → c.peerPkg ≠ s.pkg → c.topk = 0 → c.queued = q :: qs →
      tget 0 c.credits c.peerPkg.toNat ≠ 0 → (∀ l ∈ s.lifts, ∀ x ∈ l.2.waiting, lcmdCh x.1 ≠ ch) →
      s.collRead (who c) pieces = .ok bs →
      ∃ t, exec (.messageSend ch) s = .next t ∧
        collIs s t ch { c with queued := qs, mseq := c.mseq + 1, head := next c, unacked := c.unacked ++ [c.mseq]
                               credits := (t.coll ch).credits } ∧
        (∀ k, tget 0 (t.coll ch).credits k = if k = c.peerPkg.toNat then tget 0 c.credits k - 1 else tget 0 c.credits k) ∧
        t = { s with colls := t.colls, trans := t.trans, freeCtr := t.freeCtr, egress := s.egress ++ [.message c.peerPkg
          { srcPkg := s.pkg, srcCh := BitVec.ofNat 12 ch, dstCh := BitVec.ofNat 12 c.peerCh, bcast := false, reduce := q.reduce
            fmt := BitVec.ofNat 4 c.fmt, elems := BitVec.ofNat 24 c.elems, topk := 0, mseq := c.mseq, setting := c.setting, nv := q.nv, nctr := q.nctr
            payload := bs }] }) ∧
    (r.state = 2 → r.fmt = m.fmt.toNat → r.elems = m.elems.toNat → r.mc = false → r.peerPkg = m.srcPkg →
      r.peerCh = m.srcCh.toNat → r.heard ≠ some (m.srcPkg, m.srcCh, m.setting, true) → mseq = m.mseq → r.frozen = false → r.heldMsgs = [] → r.sync = 0 → m.reduce = false →
      m.topk = 0 → m.bcast = false → m.srcPkg ≠ s.pkg → m.payload.length = r.size → r.size ≠ 0 → (slotOf r).toNat % 128 + r.size ≤ 128 →
      (∀ l ∈ s.lifts, l.2.state ≠ 1) → writable s (who r) (slotOf r) r.size y h →
      ∃ t, exec (.messageLand m) s = .next t ∧
        memoryIs s t (fun a => if h.place ≤ a ∧ a < h.place + r.size then m.payload[a - h.place]? else none) ∧
        (∀ l, l ∈ t.empties ↔ l ∈ s.empties ∧ h.fe ≠ some (.line l)) ∧
        collIs s t m.dstCh.toNat
          { r with head := next r, cred := r.cred - 1, mseq := mseq + 1, heard := some (m.srcPkg, m.srcCh, m.setting, false) } ∧
        (∀ k, t.lift k = if m.nv = true ∧ k = m.nctr.toNat then { s.lift k with count := (s.lift k).count + 1 } else s.lift k) ∧
        t = { s with mem := t.mem, poison := t.poison, empties := t.empties, colls := t.colls, lifts := t.lifts, trans := t.trans
                     freeCtr := t.freeCtr, egress := s.egress ++ [.messageAck m.srcPkg m.srcCh m.mseq 0] }) ∧
    (acked ∈ c.unacked →
      let freed : Coll := { c with unacked := c.unacked.erase acked, tail := BitVec.ofNat 12 ((c.tail.toNat + 1) % c.depth) }
      (c.sync = 0 → c.heldAcks = 0 → changesColl s ch freed (exec (.messageAck ch acked 0) s)) ∧
      (disc ≠ 0 → ∃ t, exec (.messageAck ch acked disc) s = .next t ∧
        collIs s t ch { freed with state := 3, errk := disc, queued := [] } ∧
        (∀ k, t.lift k =
          let l := s.lift k
          if ∃ x ∈ l.waiting, lcmdCh x.1 = ch then
            { l with owed := l.owed.filter (fun x => lcmdCh x.1 ≠ ch), pend := l.pend && lcmdCh l.cmd ≠ ch, err := true }
          else l) ∧
        t = { s with colls := t.colls, lifts := t.lifts })) ∧
    (entry < 8192 →
      ∃ t, exec (.countWrite entry v) s = .next t ∧
        (∀ k, t.lift k =
          let l := if k = entry then { s.lift k with count := v } else s.lift k
          if l.state = 1 ∧ lcmdWatch l.cmd = entry then { l with state := 3 } else l) ∧
        t = { s with lifts := t.lifts }) ∧
    (8192 ≤ entry → exec (.countWrite entry v) s = .next { s with refusedWrites := s.refusedWrites + 1 }) ∧
    (∃ t, exec (.creditReturn ch pkg n) s = .next t ∧ collIs s t ch { c with credits := (t.coll ch).credits } ∧
      (∀ k, tget 0 (t.coll ch).credits k = if k = pkg.toNat then tget 0 c.credits k + n.toNat else tget 0 c.credits k) ∧
      t = { s with colls := t.colls })

/-- The outcome changes multicast group g to `x`, and adds packets and work to do. -/
def changesGroup (s : State) (g : Nat) (x : McGroup) (out : List Packet) (todo : List Action) (o : Out) : Prop :=
  ∃ t, o = .next t ∧ t.group g = x ∧ (∀ k, k ≠ g → t.group k = s.group k) ∧
    t = { s with groups := t.groups, egress := s.egress ++ out, agenda := s.agenda ++ todo }

/-- The events of a multicast tree (R315, R316): a packet that does not fit the group is discarded, counted and acknowledged; one
for a member die is written there, one for a child port leaves on it; the node that has all acknowledgments sends its own to its
parent. -/
def multicastEvents : Prop :=
  ∀ (s : State) (p : McPacket) (port d k id src : Nat) (f : McFlight) (lost : Option W64) (e : CurbEntry) (q : Seqr),
    let g := p.group.toNat
    let x := s.group g
    let a := x.memberPlace d p
    let flight (br : Nat) : McFlight := { id := p.key, src := port, packet := p, owing := [br], back := [], lost := none }
    let fits := x.valid = true ∧ x.job = p.job ∧ (x.root = s.pkg ∨ x.parent ≠ 127)
    let takes := fits ∧ (port < 64 → (s.port port).frozen = false) ∧ ∀ y ∈ x.flight, ¬ (y.id = p.key ∧ y.src = port)
    (port < 64 → (s.port port).frozen = true → exec (.multicastArrive p port) s = .next s) ∧
    (¬ fits → (port < 64 → (s.port port).frozen = false) → port ≠ 127 → p.down = true →
      changesGroup s g { x with discarded := x.discarded + 1 } [.multicastAck port g p.key none] []
        (exec (.multicastArrive p port) s)) ∧
    (takes → p.msg = none → p.copy = false → p.count = 0 → d < 4 → x.dies = 1#4 <<< d → x.child = 0 → p.data ≠ [] →
      paPkg ((x.base[d]?.getD 0) + p.offset) = s.pkg → dieOf a = d → hasMemory a = true → hasMemory (a + p.data.length - 1) = true →
      settled s → passes s d →
      ∃ t, exec (.multicastArrive p port) s = .next t ∧
        memoryIs s t (fun y => if a ≤ y ∧ y < a + p.data.length then p.data[y - a]? else none) ∧
        t.group g = { x with flight := x.flight ++ [flight (64 + d)] } ∧ (∀ j, j ≠ g → t.group j = s.group j) ∧
        overPort s t d (BitVec.ofNat 3 (Nat.min 5 p.hops)) (1 + (p.data.length + 55) / 56) ∧
        t = { s with mem := t.mem, poison := t.poison, trans := t.trans, groups := t.groups, egress := t.egress, freeCtr := t.freeCtr
                     agenda := s.agenda ++ [.acked g p.key (64 + d) none] }) ∧
    (takes → x.dies = 0 → k < 64 → x.child = 1#64 <<< k → (s.port k).state = 2 →
      changesGroup s g { x with flight := x.flight ++ [flight k] } [.multicast k { p with down := true, hops := p.hops + 1 }] []
        (exec (.multicastArrive p port) s)) ∧
    ((s.group id).flight.find? (fun y => y.id = k ∧ src ∈ y.owing) = some f →
      let l := s.group id
      let lost' := if f.lost.isSome then f.lost else lost
      f.packet.srcPkg ≠ s.pkg ∨ f.packet.copy = true ∨ f.packet.msg ≠ none →
      (f.owing ≠ [src] → changesGroup s id
        { l with flight := l.flight.map (fun y => if y.id = k then { f with owing := f.owing.erase src, lost := lost' } else y) }
        [] [] (exec (.multicastAck id k src lost) s)) ∧
      (f.owing = [src] → f.src ≠ 127 → f.packet.down = true →
        changesGroup s id { l with flight := l.flight.filter (fun y => y.id ≠ k) }
          [.multicastAck f.src id f.packet.key lost'] [] (exec (.multicastAck id k src lost) s))) ∧
    ((s.group id).flight.find? (fun y => y.id = k ∧ src ∈ y.owing) = some f → f.owing ≠ [src] →
      f.packet.srcPkg = s.pkg → f.packet.copy = false → f.packet.msg = none →
      s.curbEntry (f.packet.id / 4096) (f.packet.id % 4096) = some e → s.seqOf e.handle = some q →
      let lost' := if f.lost.isSome then f.lost else lost
      ∃ t, exec (.multicastAck id k src lost) s = .next t ∧
        t.group id = { s.group id with
          flight := (s.group id).flight.map (fun y => if y.id = k then { f with owing := f.owing.erase src, lost := lost' } else y) } ∧
        (∀ j, j ≠ id → t.group j = s.group j) ∧
        t.seqOf e.handle = some { q with
          heldStreams := q.heldStreams.filter (fun y => ¬ (y.1 = f.packet.id / 4096 ∧ y.2.1 = e.num ∧ y.2.2.1 = src)) } ∧
        (∀ h, h ≠ e.handle → t.seqOf h = s.seqOf h) ∧ t = { s with groups := t.groups, ctx := t.ctx, seqs := t.seqs })

/-- The outcome changes session n to `x`, with the slots that `slot` gives, and adds packets and work to do. -/
def changesSession (s : State) (n : Nat) (x : Session) (slot : Nat → Slot) (out : List Packet) (todo : List Action) (o : Out) : Prop :=
  ∃ t, o = .next t ∧ t.session n = { x with slots := (t.session n).slots } ∧ (∀ k, (t.session n).slot k = slot k) ∧
    (∀ m, m ≠ n → t.session m = s.session m) ∧
    t = { s with sessions := t.sessions, egress := s.egress ++ out, agenda := s.agenda ++ todo }

/-- The values of slot k of session n, now FULL, are to go toward the root after the work `before`: in the order of their leaves, or,
with MODE ARRIVAL, in any (R323, R363). -/
def releases (t : State) (n k : Nat) (before : List Action) : Prop :=
  let all := (t.session n).slotValues k
  ∃ vs : List SessionValue, vs.Perm all ∧ ((t.session n).mode ≠ 1 → vs = all) ∧ t.agenda = before ++ vs.map (.value n)

/-- What a session holds of its round, cleared, with GEN one more (R324). -/
def roundOver (x : Session) : Session :=
  { x with
    gen := x.gen + 1, nodes := [], marks := [], sums := [], present := [], withdrawn := [], flags := 0, started := none
    busy := false, timedOut := false, wd := false, noret := false, recon := false, emit := 0, emitStep := 0 }

/-- The outcome starts an emission of session n, which is `y`, by sending its result to its group (R324, R325). -/
def emitsResult (s : State) (n kind : Nat) (y : Session) (o : Out) : Prop :=
  let p : McPacket :=
    { group := y.outgrp, job := y.job, srcPkg := s.pkg, handle := 0, stream := 0, seqno := 0, id := n, offset := y.outa
      data := y.result.1, msg := none, copy := true, count := 0, down := false, hops := 0 }
  let g := s.group y.outgrp.toNat
  let far := g.valid = true ∧ g.root ≠ s.pkg
  changesSession s n { y with state := 2, emit := kind, emitStep := 12, noret := y.noret || (kind = 2 && y.tooMany) } y.slot
    (if far then [.multicast 127 p] else []) (if far then [] else [.packet p 127]) o

/-- The events of a reduction session (R317 to R327): it opens and closes; stores fill a slot, which then releases its leaves;
values travel to the root, which keeps them, counts duplicates, and emits when all are there or the timeout expires; ROUNDEND,
CLOSE and markers go down or up the tree; slots are withdrawn and opened again; the root in RECOVER takes contributions again or
excludes what is missing. -/
def sessionEvents : Prop :=
  ∀ (s : State) (n k leaf lvl : Nat) (v : SessionValue) (job : BitVec 16) (checkJob : Bool) (a : W64) (b : Byte) (fields shape : W64)
    (flits : List (BitVec 3 × BitVec 448)),
    let x := s.session n
    let c := x.slot k
    let linked (p : Nat) : Bool := (s.port p).state = 1 ∨ (s.port p).state = 2 ∨ (s.port p).state = 3
    let children := (List.range 64).filter (fun p => x.child.getLsbD p)
    let ports := children.filter linked
    let cut := BitVec.ofNat 32 (children.length - ports.length)
    let quiet := ∀ p < 64, (s.port p).outq = []
    let refused := { s with refusedWrites := s.refusedWrites + 1 }
    let up := x.root = false ∧ x.parent.toNat < 64 ∧ (s.port x.parent.toNat).state = 2
    let fits := fields = x.wireFields ∧ shape = x.wireShape
    let mine := v.fields = x.wireFields ∧ v.shape = x.wireShape
    let busy : Session := { x with busy := true }
    let off := a.toNat % 2 ^ 16
    let written : Slot := { c with bytes := tset off b c.bytes }
    let full : Bool := x.slotSize k ≤ written.bytes.length
    let ended (i : Nat) : Slot := { x.slot i with full := (x.slot i).full && (x.slot i).closed, bytes := [], stale := (x.slot i).closed }
    let cleared (i : Nat) : Slot := { x.slot i with closed := false, full := false, bytes := [], stale := false }
    let joined : Session := { busy with
      present := x.present ++ [v.idx], withdrawn := x.withdrawn.filter (fun i => i ≠ v.idx), flags := x.flags ||| v.flags
      nodes := x.nodes ++ [{ lvl := 0, idx := v.idx, elems := v.elems, flags := 0 }], started := some (x.started.getD s.ptime) }
    (x.state = 0 → x.ok = true →
      changesSession s n { roundOver x with state := 1, gen := 0, disc := 0, dup := 0 } cleared [] [] (exec (.sessionOpen n) s)) ∧
    (¬ (x.state = 0 ∧ x.ok = true) → exec (.sessionOpen n) s = .next refused) ∧
    (x.state = 2 → changesSession s n { x with closing := true } x.slot [] [] (exec (.sessionClose n) s)) ∧
    (x.state ≠ 0 → x.state ≠ 2 → x.heldStores = [] →
      changesSession s n { roundOver x with state := 0, gen := x.gen, closing := false } cleared [] [] (exec (.sessionClose n) s)) ∧
    (x.state ≠ 0 → c.valid = true → checkJob = false ∨ job = x.job →
      (c.closed = true → changesSession s n { x with disc := x.disc + 1 } x.slot [] []
        (exec (.slotStore n k job checkJob [.byte a b]) s)) ∧
      (c.closed = false → c.full = true → changesSession s n
        { x with heldStores := x.heldStores ++ [.arrive (.outside (s.slotRequest n k job checkJob [.byte a b]))] } x.slot [] []
        (exec (.slotStore n k job checkJob [.byte a b]) s)) ∧
      (c.closed = false → c.full = false → off < x.slotSize k →
        ∃ t, exec (.slotStore n k job checkJob [.byte a b]) s = .next t ∧
          t.session n = { busy with slots := (t.session n).slots } ∧
          (∀ i, (t.session n).slot i = if i = k then { written with full := full } else x.slot i) ∧
          (∀ m, m ≠ n → t.session m = s.session m) ∧
          t = { s with sessions := t.sessions, agenda := t.agenda, freeCtr := t.freeCtr } ∧
          (full = false → t.agenda = s.agenda ∧ t.freeCtr = s.freeCtr) ∧
          (full = true → releases t n k s.agenda ∧ t.freeCtr = s.freeCtr + 1))) ∧
    (x.state ≠ 0 → mine → up → changesSession s n busy x.slot [.sessionValue x.parent.toNat n v] [] (exec (.sessionValue n v) s)) ∧
    (x.state = 1 → mine → x.root = true → v.lvl = 0 → v.idx < x.nleaf.toNat →
      (v.idx ∈ x.present → changesSession s n { busy with dup := x.dup + 1 } x.slot [] [] (exec (.sessionValue n v) s)) ∧
      (x.mode = 0 → v.idx ∉ x.present → x.withdrawn = [] →
        (x.present.length + 1 < x.nleaf.toNat → changesSession s n joined x.slot [] [] (exec (.sessionValue n v) s)) ∧
        (x.present.length + 1 = x.nleaf.toNat → x.outmc = true → emitsResult s n 1 joined (exec (.sessionValue n v) s)))) ∧
    (x.state = 2 → x.emit = 2 → x.mode = 0 → mine → x.root = true → v.lvl = 0 → v.idx < x.nleaf.toNat → v.idx ∉ x.present →
      changesSession s n { joined with noret := x.noret || joined.tooMany } x.slot [] [] (exec (.sessionValue n v) s)) ∧
    (x.root = false → quiet → (x.parent.toNat < 64 → (s.port x.parent.toNat).state ≠ 2) → changesSession s n
      { x with nodes := [], marks := [], disc := x.disc + BitVec.ofNat 32 (x.nodes.length + x.marks.length) } x.slot [] []
      (exec (.sessionForwardTimeout n) s)) ∧
    (x.root = false → k < 64 → (s.port k).state ≠ 2 → x.parent.toNat = k → x.nodes = [] → x.marks = [] →
      (s.port k).outq = flits.map (fun y => (.sessionValue k n v, y)) → flits.length = 1 + (4 * v.elems.length + 55) / 56 →
      (∀ p < 64, p ≠ k → (s.port p).outq = []) →
      ∃ t, exec (.sessionForwardTimeout n) s = .next t ∧ t.session n = { x with disc := x.disc + 1 } ∧
        (∀ m, m ≠ n → t.session m = s.session m) ∧ t.port k = { s.port k with outq := [] } ∧ (∀ p, p ≠ k → t.port p = s.port p) ∧
        t = { s with sessions := t.sessions, ports := t.ports }) ∧
    (x.state ≠ 0 → fits →
      (x.heldStores = [] → x.closing = false →
        changesSession s n { roundOver x with state := 1, disc := x.disc + cut } ended (ports.map (fun p => .roundend p n fields shape)) []
          (exec (.roundend ⟨n, fields, shape⟩) s)) ∧
      changesSession s n { busy with disc := x.disc + cut } (fun i => let y := x.slot i; if y.valid = true ∧ y.full = false then { y with closed := true } else y)
        (ports.map (fun p => .closeSlots p n fields shape)) [] (exec (.closePacket ⟨n, fields, shape⟩) s) ∧
      (up → changesSession s n busy x.slot [.sessionMark x.parent.toNat n leaf lvl fields shape] []
        (exec (.withdrawMarker ⟨n, fields, shape⟩ leaf lvl) s)) ∧
      (x.root = true → x.state = 1 → x.present.length < x.nleaf.toNat → leaf ∉ x.withdrawn → leaf ∉ x.present →
        leaf < x.nleaf.toNat → (∃ i, i < x.nleaf.toNat ∧ i ≠ leaf ∧ i ∉ x.present ∧ i ∉ x.withdrawn) →
        changesSession s n { busy with withdrawn := x.withdrawn ++ [leaf], wd := true } x.slot [] []
          (exec (.withdrawMarker ⟨n, fields, shape⟩ leaf 0) s)) ∧
      (x.root = false → changesSession s n { x with disc := x.disc + cut }
        (fun i => let y := x.slot i; if y.closed = true ∧ y.stale = false then { y with closed := false } else y)
        (ports.map (fun p => .reopenSlots p n fields shape)) [] (exec (.recontrib ⟨n, fields, shape⟩) s))) ∧
    (x.state ≠ 0 → ¬ fits →
      let odd : Session := { x with disc := x.disc + 1, err := true }
      changesSession s n odd x.slot [] [] (exec (.roundend ⟨n, fields, shape⟩) s) ∧
      changesSession s n odd x.slot [] [] (exec (.closePacket ⟨n, fields, shape⟩) s) ∧
      changesSession s n odd x.slot [] [] (exec (.withdrawMarker ⟨n, fields, shape⟩ leaf lvl) s)) ∧
    (x.root = true → x.state = 1 → x.outmc = true → x.timeout ≠ 0 → x.present.length < x.nleaf.toNat →
      (∀ st, x.started = some st → st.toNat + x.timeout.toNat ≤ s.ptime.toNat →
        emitsResult s n 2 { x with timedOut := true } (exec (.sessionTimeout n) s))) ∧
    (x.state ≠ 0 → c.valid = true → c.closed = false →
      changesSession s n x (fun i => if i = k then { c with closed := true } else x.slot i) []
        [.mark n c.leaf.toNat c.lvl.toNat] (exec (.withdraw n k) s)) ∧
    (x.state ≠ 0 → c.closed = true →
      changesSession s n x (fun i => if i = k then
        { c with closed := false, stale := false, full := c.full && !c.bytes.isEmpty } else x.slot i) [] [] (exec (.reopen n k) s)) ∧
    (x.state = 0 ∨ c.closed = false → exec (.reopen n k) s = .next s) ∧
    (x.root = true → x.state = 3 →
      (x.noret = false → x.present.length < x.nleaf.toNat →
        changesSession s n { x with recon := true, withdrawn := [], started := some s.ptime, disc := x.disc + cut }
          (fun i => let y := x.slot i; if y.closed = true ∧ y.stale = false then { y with closed := false } else y)
          (ports.map (fun p => .reopenSlots p n x.wireFields x.wireShape)) [] (exec (.recontrib ⟨n, fields, shape⟩) s)) ∧
      (x.noret = true → exec (.recontrib ⟨n, fields, shape⟩) s = .next refused) ∧
      (x.heldStores = [] → x.closing = false →
        changesSession s n { roundOver x with state := 1, disc := x.disc + cut } ended
          (ports.map (fun p => .roundend p n x.wireFields x.wireShape)) [] (exec (.exclude n) s))) ∧
    (¬ (x.root = true ∧ x.state = 3) → exec (.exclude n) s = .next refused)

/-- No crew exists, and no sequencer that a request of the scheduler's could fall on for one of class c (R249). -/
def outranked (s : State) (c : Nat) : Prop := s.crews = [] ∧ ∀ x ∈ s.allSeqs, x.cls.toNat ≤ c

/-- The outcome re-queues sequencer h, which is q, at the tail of the queue, and writes its state word into its image at place
`home` (R247, R254, R257). -/
def requeues (s : State) (h : BitVec 24) (q : Seqr) (home : Home) (o : Out) : Prop :=
  let q' : Seqr := { q with st := .queued }
  ∃ t, o = .next t ∧ (∀ k, t.seqOf k = if k = h then some q' else s.seqOf k) ∧
    t.runQueue = s.runQueue.filter (fun x => x ≠ h) ++ [h] ∧
    memoryIs s t (leStored home.place 8 (q'.imageWord (s.tileDesc q') 1).toNat) ∧
    t = { s with mem := t.mem, poison := t.poison, trans := t.trans, freeCtr := t.freeCtr, ctx := t.ctx, seqs := t.seqs
                 runQueue := t.runQueue }

/-- A parked sequencer whose save area is in this package's memory, so that it can be re-queued. -/
def parkedAway (s : State) (h : BitVec 24) (q : Seqr) (j : Job) (y : Xlat) (home : Home) : Prop :=
  s.seqOf h = some q ∧ q.st = .parked ∧ q.depart = none ∧ q.imaged = true ∧ s.jobOf q.job = some j ∧ outranked s q.cls.toNat ∧
    writable s { die := q.cdie.toNat, asid := j.asid, job := q.job, sup := true }
      (j.saveBase q.index.toNat + 8) 8 y home

/-- The deadline record of job num names sequencer h and is posted in die d's queue (R265, Table 14.6; that the job's first sequencer is
named is the model's choice, log entry 68). -/
def overrunPosted (s t : State) (d : Nat) (num : BitVec 16) (h : BitVec 24) : Prop :=
  let q := (s.dieAt d).queue
  (t.dieAt d).queue = { q with
    tail := q.tail + 1
    recs := tset (q.tail.toNat % 1024) { (record 8 cDeadline (h.zeroExtend 32) num 0 0) with pt := s.ptime } q.recs }

/-- The events of cards and of placement (R197, R198, R245, R247, R251 to R253, R255): the first card is taken with its
declarations or refused; a taken card of one sequencer that asks for nothing else is admitted under the next number; a queued
sequencer is placed on the core chosen for it; a core with one resident selects it; a departing context is saved and leaves its
slot, and with the last of an overrun job the job ends. -/
def placementEvents : Prop :=
  ∀ (s u : State) (n core slot die : Nat) (x : Submission) (ds : List (List W64)) (h : BitVec 24) (q : Seqr) (j : Job) (num : BitVec 16)
    (dep : Depart),
    let e := s.launchEntry n
    let away : SeqState := if dep = .freeze then .frozen else .parked
    let c : Job := .ofCard e.card e.asid
    let d : Job := .ofCard x.card x.asid
    let first (j : Job) (order : Nat) : Prop :=
      ∀ y ∈ s.waitingCards, j.cls < y.job.cls ∨ j.cls = y.job.cls ∧ order ≤ y.order
    let accepted (j : Job) (parent : Option (BitVec 16)) : Prop :=
      j.fieldsOk = true ∧ s.launchOk j parent = true ∧ s.areasOk j = true ∧ s.readDecls j = some (true, ds) ∧ declsOk ds = true
    let entryBecomes (e' : LaunchEntry) (t : State) : Prop :=
      t.launchEntry n = e' ∧ ∀ k, k ≠ n → t.launchEntry k = s.launchEntry k
    (s.recovery = false → e.occupied = true → e.taken = none → first c e.order →
      (accepted c (some e.parent) → ∃ t, exec (.cardTake (.launched n)) s = .next t ∧ entryBecomes { e with taken := some ds } t ∧
        t = { s with launches := t.launches }) ∧
      (c.fieldsOk = false → c.word 20 = 0 → ∃ t, exec (.cardTake (.launched n)) s = .next t ∧
        entryBecomes { e with state := 3, occupied := false } t ∧ t = { s with launches := t.launches })) ∧
    (s.recovery = false → s.submissions.find? (fun y => y.num = n) = some x → x.taken = none → first d x.order → accepted d none →
      exec (.cardTake (.submitted n)) s = .next { s with
        submissions := s.submissions.map (fun y => if y.num = n then { y with taken := some ds } else y) }) ∧
    (e.occupied = true → e.taken = some [] → num = s.jobNext → num ≠ 0 → (∀ y ∈ s.jobs, y.num ≠ num) →
      c.nseq = 1 → c.ncrew = 0 → c.lots = 0 → c.word 11 = 0 → c.word 12 = 0 → fieldOf (c.word 13) 12 12 = 0 →
      s.runQueue = [] → outranked s c.cls → s.handleNext ≠ 0 →
      let id := s.handleNext
      let seed := BitVec.ofNat 32 (fieldOf (c.word 4) 0 32)
      ∃ t, exec (.jobAdmit (.launched n)) s = .next t ∧ entryBecomes { e with state := 1, job := num, occupied := false } t ∧
        t = { s with
          launches := t.launches, jobs := { c with num := num, left := 1, lastDone := s.ptime } :: s.jobs, jobNext := num + 1
          handleNext := if id + 1 = 0 then 1 else id + 1, runQueue := [id]
          seqs := s.seqs ++ [{ Seqr.blank with
            handle := id, index := 0, job := num, st := .queued, cls := BitVec.ofNat 3 c.cls, pc := c.word 0
            g := (Seqr.blank.g.setIfInBounds 1 ⟨0, 0⟩).setIfInBounds 2 ⟨1, 0⟩, seed := if seed = 0 then 1 else seed
            parkLimit := if (c.word 1).getLsbD 40 then BitVec.ofNat 32 (fieldOf (c.word 3) 32 32) else 20000
            joined := [], tileWords := List.replicate 8 0 }] }) ∧
    (s.seqOf h = some q → s.jobOf q.job = some j → j.lots = 0 → j.tiles = 0 → settled s →
      (s.runQueue = [h] → s.crews = [] → q.st = .queued → q.depart = none → q.imaged = false → q.wait = none → q.cls.toNat ≤ 4 →
        j.ended = none →
        q.restoring = none → (q.cls.toNat < 4 ∨ s.power.mode = 1 ∨ s.power.mode = 2) → s.saveParked h = false → s.chooseCore q = some core → (s.freeSlots core).head? = some slot →
        ∃ t, exec (.place h) s = .next t ∧
          (∀ k, t.seqOf k = if k = h then some { q.reconcile with
            st := .resident, core := BitVec.ofNat 6 (core % 48), cdie := BitVec.ofNat 2 (core / 48), lots := [], tiles := []
            residentSince := s.freeCtr + 2, resumed := true, preempt := none, target := none, asks := []
            svDue := false, stuck := false, wakeLine := none, wakeDue := false } else s.seqOf k) ∧
          t.coreOf core = { s.coreOf core with slots := (s.coreOf core).slots.setIfInBounds slot (some h) } ∧
          (∀ k, k ≠ core → t.coreOf k = s.coreOf k) ∧
          t = { s with ctx := t.ctx, seqs := t.seqs, cores := t.cores, runQueue := [], freeCtr := s.freeCtr + 2 }) ∧
      (s.runQueue = [] → s.crews = [] → q.depart = some dep → dep ≠ .requeue → q.lots = [] → q.tiles = [] →
        (∀ a ∈ q.asks, a.effect = false) → (∀ l ∈ s.late, l.handle ≠ h) →
        (∀ p < 8, (q.port p).walk = none) → q.savedParts = 0 → q.savedLots = 0 → s.saveParked h = false →
        s.matrixOwes q = false → (∀ l ∈ s.landings, l.handle ≠ h) →
        s.masterWrite { die := q.cdie.toNat, asid := j.asid, job := q.job, sup := true } (j.saveBase q.index.toNat)
          ((List.range imageWords).flatMap (fun i => leBytes (s.imageOf { q with st := away } i).toNat 8)) false = .ok u →
        ∃ t, exec (.contextSave h) s = .next t ∧
          (∀ k, t.seqOf k = if k = h then some { q with
            st := away, depart := none, tileWords := (List.range 8).map (fun i => q.tileWords[i]?.getD 0), imaged := true, preempt := none
            gangPark := false } else s.seqOf k) ∧
          t.coreOf q.coreNo = { s.coreOf q.coreNo with
            slots := (s.coreOf q.coreNo).slots.map (fun y => if y = some h then none else y)
            parks := (s.coreOf q.coreNo).parks + if dep = .park then 1 else 0 } ∧
          (∀ k, k ≠ q.coreNo → t.coreOf k = s.coreOf k) ∧
          (j.overrun = false → t = { u with ctx := t.ctx, seqs := t.seqs, cores := t.cores
                                            ldfeQueue := s.ldfeQueue.filter (fun y => y.2 ≠ (s.pkg, h)) }) ∧
          (j.overrun = true → j.ended = none → j.word 20 = 0 → s.sessions = [] → q.job = num → num ≠ 0 → j.dies = [die] →
            queueReady s die → u.dies = s.dies → (∀ x ∈ s.allSeqs, x.handle ≠ h → x.job ≠ num) →
            t.jobOf num = some { j with ended := some 1, doneWritten := true } ∧ overrunPosted s t die num h))) ∧
    (let k := s.coreOf core;
      s.seqOf h = some q → slot < 4 → (∀ i < 4, (k.slots[i]?.getD none) = if i = slot then some h else none) → k.run = none →
      q.st = .resident → q.depart = none → q.stuck = false →
      ∃ t, exec (.contextSwitch core slot) s = .next t ∧ (∀ i, t.seqOf i = if i = h then some { q with st := .running } else s.seqOf i) ∧
        t.coreOf core = { k with run := some slot, lastIssue := (s.dieAt (core / 48)).cycle, switches := k.switches + 1 } ∧
        (∀ i, i ≠ core → t.coreOf i = s.coreOf i) ∧ t = { s with ctx := t.ctx, seqs := t.seqs, cores := t.cores })

/-- The events of waiting, waking and ending (R198, R222, R223, R250, R256 to R258, R260, R265, R266): a waiting context parks
after cr.park cycles and is re-queued by its wake condition, its sleep time or its gang; a request not met within LONGITER ends
the job's time; an overrun freezes its sequencers and channels, and once its residents are saved ends the job and posts its record; RET asks the residents of a core to leave; a job that
system software ends is retired; a catalogue write sets a register. -/
def waitingEvents : Prop :=
  ∀ (s : State) (h : BitVec 24) (q : Seqr) (j : Job) (va : W64) (y far : Xlat) (home : Home) (r since core d : Nat) (crew : W32) (c : Crew)
    (num : BitVec 16) (key v : W64),
    let cycle := (s.dieAt q.cdie.toNat).cycle
    let retired (q : Seqr) : Seqr := { q with
      st := .retired, wait := none, asks := [], tags := Vector.replicate 16 none }
    let stopped (q : Seqr) : Seqr := { q with
      depart := some .freeze, wait := none, asks := [], preempt := none, gangPark := false, savedParts := 0
      cause := Trap.causeWord { code := cDeadline, slot := 7, whole := false, word := 0, bad := 0 }, epc := q.pc, badaddr := 0 }
    (s.seqOf h = some q → s.crews = [] → q.sup = false → q.st = .resident ∨ q.st = .running → q.depart = none →
      q.wait = some (.emptyLine va, since) → (∀ a ∈ q.asks, a.effect = false) → q.parkLimit ≠ 0 → since + q.parkLimit.toNat < cycle →
      s.translate { die := q.cdie.toNat, asid := s.asidOf q.job, job := q.job, sup := q.sup } .load va = .ok y →
      (y.pkg = s.pkg ∧ s.homeOf q.cdie.toNat q.sup .load y.via y.addr = .ok home ∧ s.feFull home.fe = false ∨
        y.pkg ≠ s.pkg ∧ ∃ a ∈ q.asks, a.reply = none) →
      changesSeq s h (fun x => { x with depart := some .park, preempt := none, gangPark := false, wakeLine := none
                                        wakeDue := false }) (exec (.park h) s)) ∧
    (parkedAway s h q j y home →
      (q.wakeDue = true → requeues s h q home (exec (.wake h) s)) ∧
      (q.wakeDue = false → q.wait = some (.emptyLine va, since) →
        s.translate { die := q.cdie.toNat, asid := s.asidOf q.job, job := q.job, sup := q.sup } .load va = .ok far → far.pkg ≠ s.pkg →
        ((∃ a ∈ q.asks, a.reply = none) → exec (.wake h) s = .next s) ∧
        ((∀ a ∈ q.asks, a.reply ≠ none) → requeues s h q home (exec (.wake h) s))) ∧
      (q.wait = some (.sleepUntil r, since) → q.wakeAt.toNat ≤ s.ptime.toNat → requeues s h q home (exec (.sleepExpiry h) s))) ∧
    (s.crewOf crew = some c → c.gpark = true → s.seqOf h = some q → q.index = c.parker → q.st = .parked → q.depart = none →
      q.wakeDue = true → s.jobOf q.job = some j → crew.toNat / 2 ^ 16 = q.job.toNat → q.index.toNat < j.nseq →
      j.nseq ≤ 65536 →
      s.allSeqs.filter (fun x => x.handle ≠ 0 && x.job = q.job && (c.member x.index.toNat).joined) = [q] →
      (∀ x ∈ s.allSeqs, x.cls.toNat ≤ q.cls.toNat) → s.runQueue = [] →
      ∃ t z, exec (.gangWake crew) s = .next t ∧ t.crewOf crew = some z ∧ z.gpark = false ∧ z.woken = true ∧ z.members = c.members ∧
        (∀ k, t.seqOf k = if k = h then some { q with st := .queued } else s.seqOf k) ∧ t.runQueue = [h]) ∧
    (s.seqOf h = some q → s.jobOf q.job = some j → q.preempt = some r → q.isResident = true → q.depart = none → j.longiter ≠ 0 →
      r + j.longiter ≤ cycle → exec (.longiterExpiry h) s = .next { s with
        jobs := s.jobs.map (fun x => if x.num = q.job ∧ x.retired = false then { x with deadline := 0 } else x) }) ∧
    (s.jobOf num = some j → j.ended = none → j.word 20 = 0 → s.crews = [] → s.sessions = [] → num ≠ 0 →
      (j.deadline = 0 → j.overrun = false → j.dies = [d] → queueReady s d → (∀ k ∈ s.cores, k.2.mq = []) → s.seqOf h = some q →
        q.job = num → (∀ x ∈ s.allSeqs, x.handle ≠ h → x.job ≠ num) →
        ∃ t, exec (.deadlineOverrun num) s = .next t ∧
          (∀ d' c', let x := s.chan d' c'
            t.chan d' c' = if x.job = num ∧ (x.state = 1 ∨ x.state = 2) then { x with state := 4, stopping := none } else x) ∧
          (∀ c', (∃ i < fieldOf (j.word 13) 12 12, c' = fieldOf (j.word 13) 0 12 + i) → (s.coll c').job = num →
            t.coll c' = { s.coll c' with frozen := true }) ∧
          (q.st = .resident ∨ q.st = .running → (∀ a ∈ q.asks, a.effect = false) →
            (∀ k, t.seqOf k = if k = h then some (stopped q) else s.seqOf k) ∧
            t.jobOf num = some { j with overrun := true } ∧ ∀ d', (t.dieAt d').queue = (s.dieAt d').queue) ∧
          (q.st = .frozen → q.depart = none →
            (∀ k, t.seqOf k = s.seqOf k) ∧ t.jobOf num = some { j with overrun := true, ended := some 1, doneWritten := true } ∧
            overrunPosted s t d num h)) ∧
      ((∀ x ∈ s.allSeqs, x.job = num → x.isResident = false ∧ x.restoring = none) →
        ∃ t, exec (.jobEndBySystemSoftware num) s = .next t ∧ t.jobOf num = none ∧
          (∀ k, t.seqOf k = (s.seqOf k).map (fun x => if x.job = num then retired x else x)) ∧
          (∀ k ∈ t.runQueue, ∀ x, s.seqOf k = some x → x.job ≠ num) ∧
          { j with left := 0, ended := some 2, doneWritten := true, retired := true } ∈ t.jobs)) ∧
    (s.crews = [] → s.runQueue = [] →
      (∃ t, exec (.coreRetire core true) s = .next t ∧ t.coreOf core = { s.coreOf core with ret := true } ∧
        (∀ k, k ≠ core → t.coreOf k = s.coreOf k) ∧ t = { s with cores := t.cores, ctx := t.ctx, seqs := t.seqs } ∧
        (((s.allSeqs.filter (fun x => x.handle ≠ 0)).map Seqr.handle).Nodup →
          ∀ k, t.seqOf k = (s.seqOf k).map (fun x =>
            if x.isResident = true ∧ x.coreNo = core ∧ x.preempt = none then
              { x with preempt := some (s.dieAt x.cdie.toNat).cycle }
            else x))) ∧
      (∃ t, exec (.coreRetire core false) s = .next t ∧ t.coreOf core = { s.coreOf core with ret := false } ∧
        (∀ k, k ≠ core → t.coreOf k = s.coreOf k) ∧ t = { s with cores := t.cores })) ∧
    (let w := keyOf key
      let target := fieldOf v 0 12
      let cap := fieldOf v 12 12
      let mode := fieldOf v 24 2
      (w.pkg ≠ s.pkg ∨ s.keyWord key = none → exec (.registerWrite key v) s = .next { s with refusedWrites := s.refusedWrites + 1 }) ∧
      (w.pkg = s.pkg → (s.keyWord key).isSome = true → w.cls = 0x17 → w.inst = 0x20 → w.word = 0 →
        target = 0 ∨ 500 ≤ target ∧ target ≤ 2800 → 500 ≤ cap → cap ≤ 2800 → mode ≠ 3 →
        exec (.registerWrite key v) s = .next { s with power := { s.power with
          target := BitVec.ofNat 12 target, cap := BitVec.ofNat 12 cap, mode := BitVec.ofNat 2 mode } }))

/-- The REPLY that connection n, which is c, sends (R380, R381). -/
def replyOf (c : Conn) (n : Nat) (status : Byte) (tag : W64) (payload : List Byte) : Datagram :=
  { srcAddr := c.ownAddr, srcPort := 47480, dstAddr := c.srcAddr, dstPort := c.srcPort, udpLen := 32 + payload.length, ver := 1, op := 10, conn := BitVec.ofNat 6 n, rsvd0 := 0
    seq := c.own, ackseq := c.expect, len := BitVec.ofNat 14 payload.length, status := status, rsvd1 := 0, sack := 0, tag := tag
    payload := payload }

/-- Connection n has sent a REPLY and keeps it until the host has received it; the machine is otherwise `u` (R380). -/
def replies (u : State) (n : Nat) (c : Conn) (status : Byte) (tag : W64) (payload : List Byte) (o : Out) : Prop :=
  let d := replyOf c n status tag payload
  ∃ t, o = .next t ∧ t.conn n = { c with own := c.own + 1, ackDue := false, unacked := c.unacked ++ [(c.own, 0, d)] } ∧
    (∀ k, k ≠ n → t.conn k = u.conn k) ∧ t = { u with conns := t.conns, egress := u.egress ++ [.host d] }

/-- The connection after it has taken a datagram that is the next one it expects (R380). -/
def received (c : Conn) : Conn := { c with expect := c.expect + 1, ackDue := true }

/-- A datagram goes to UDP port 47,480 of an address at which the device listens (R379). -/
def addressed (s : State) (d : Datagram) : Prop := d.dstPort = 47480 ∧ d.dstAddr ∈ s.listen

/-- The fields of a datagram are those that R379 accepts, from an allowed source; in recovery without an accepted configuration
every source is (log entry 52). -/
def admitted (s : State) (d : Datagram) : Prop :=
  (s.allowAll = true ∨ d.srcAddr ∈ s.allow) ∧ d.ver = 1 ∧ d.len.toNat = d.payload.length ∧ d.udpLen = 32 + d.payload.length ∧
    d.rsvd0 = 0 ∧ d.rsvd1 = 0

/-- A datagram for the device, which it does not drop (R379). -/
def heard (s : State) (d : Datagram) : Prop := addressed s d ∧ admitted s d

/-- The events of the host port (R37, R38, R245, R379 to R385), for a connection that owes nothing and a datagram that it expects:
each operation has its effect and is answered; an ACK ends the keeping of what it acknowledges; timers send again or acknowledge;
a datagram that R379 rejects is counted. -/
def hostEvents : Prop :=
  ∀ (s : State) (d : Datagram) (x : Xlat) (h : Home) (v : W64) (num : BitVec 6) (seq : W32) (k : Nat) (e : Datagram)
    (part : HostPart),
    let n := d.conn.toNat
    let c := s.conn n
    let r := received c
    let served := heard s d ∧ d.payload.length ≤ 8192 ∧ c.isOpen = true ∧ c.closing = false ∧ c.srcAddr = d.srcAddr ∧ c.srcPort = d.srcPort ∧ d.seq = c.expect ∧ c.ahead = [] ∧
      c.unacked = [] ∧ c.orders = [] ∧ c.writing = none ∧ c.frozen = false
    let normal := served ∧ s.recovery = false
    let word (i : Nat) : W64 := BitVec.ofNat 64 (((List.range 8).map (fun j => (d.payload[8 * i + j]?.getD 0).toNat * 256 ^ j)).sum)
    let bytes (v : W64) : List Byte := (List.range 8).map (fun i => BitVec.ofNat 8 (v.toNat / 256 ^ i))
    let who : Who := { die := 4, asid := c.asid, job := 0, sup := true }
    let va := word 0
    let opened : Conn := { Conn.reset with
      isOpen := true, asid := BitVec.ofNat 8 (d.payload[0]?.getD 0).toNat, sup := (d.payload[1]?.getD 0).getLsbD 0, srcAddr := d.srcAddr
      srcPort := d.srcPort, ownAddr := d.dstAddr, openSeq := d.seq, expect := d.seq + 1, own := 1 }
    (d.op = 1 → heard s d → c.isOpen = false → 2 ≤ d.payload.length →
      replies s n opened 0 d.tag [] (exec (.hostOpen d) s)) ∧
    (d.op = 2 → served → ∃ t, exec (.hostClose d) s = .next t ∧
      t.conn n = { Conn.reset with
        closing := true, srcAddr := c.srcAddr, srcPort := c.srcPort, ownAddr := c.ownAddr, openSeq := c.openSeq, expect := r.expect
        own := c.own + 1, unacked := [(c.own, 0, replyOf r n 0 d.tag [])] } ∧ (∀ k, k ≠ n → t.conn k = s.conn k) ∧
      t = { s with conns := t.conns, egress := s.egress ++ [.host (replyOf r n 0 d.tag [])]
                   submissions := s.submissions.map (fun y => if y.conn = n then { y with conn := 64 } else y) }) ∧
    (d.op = 3 → normal → d.payload.length = 264 → (d.payload[256]?.getD 0).getLsbD 0 = true → c.sup = true →
      ∃ t, exec (.hostSubmit d) s = .next t ∧ t.conn n = r ∧ (∀ k, k ≠ n → t.conn k = s.conn k) ∧
        t = { s with conns := t.conns, orderNext := s.orderNext + 2, submissions := s.submissions ++
          [{ num := s.orderNext + 1, order := s.orderNext, conn := n, tag := d.tag, asid := c.asid
             card := Vector.ofFn (fun i => word i.val), restore := true, taken := none }] }) ∧
    (d.op = 3 → normal → d.payload.length ≠ 264 → replies { s with orderNext := s.orderNext + 1 } n
      { r with orders := [(d.seq, s.orderNext)] } 1 d.tag [3, 0] (exec (.hostSubmit d) s)) ∧
    (d.op = 11 → heard s d → c.closing = true → c.srcAddr = d.srcAddr → c.srcPort = d.srcPort → c.unacked = [(seq, k, e)] →
      seq + 1 = d.ackseq → ∃ t, exec (.hostAck d) s = .next t ∧ t.conn n = Conn.reset ∧ (∀ k, k ≠ n → t.conn k = s.conn k) ∧
        t = { s with conns := t.conns }) ∧
    (d.op = 7 → heard s d → s.recovery = false → c.isOpen = true → c.closing = false → c.srcAddr = d.srcAddr → c.srcPort = d.srcPort →
      d.seq = c.expect → c.ahead = [] → c.unacked = [] → c.writing = none → c.frozen = false → 8192 < d.payload.length →
      replies s n r 5 d.tag [] (exec (.hostCatwrite d) s)) ∧
    (d.op = 4 → normal → d.payload.length = 12 → (word 1).toNat = k → k ≤ 8192 → s.translateRange who .load va k = .ok [(va, k, x)] →
      let read := s.noteAll who .load (linePieces (k / 128 + 2) va k)
      x.pkg = s.pkg → read.homeOf 4 true .load x.via x.addr = .ok h → isSession h.place = false →
      s.poisoned h.place k = false →
      replies read n r 0 d.tag ((List.range k).map (fun i => Memory.read s.mem (h.place + i))) (exec (.hostMread d) s)) ∧
    (d.op = 5 → normal → 9 ≤ d.payload.length → va.toNat % 128 + (d.payload.length - 8) ≤ 128 →
      s.translateRange who .store va (d.payload.length - 8) = .ok [(va, d.payload.length - 8, x)] →
      (s.touch who va).translate who .store va (d.payload.length - 8) = .ok x → x.pkg = s.pkg →
      ((s.touch who va).note who .store va).homeOf 4 true .store x.via x.addr = .ok h →
      (s.touch who va).homeOf 4 true .store x.via x.addr = .ok h → isSession h.place = false → settled s →
      ∃ t, exec (.hostMwrite d) s = .next t ∧
        memoryIs s t (fun y => if h.place ≤ y ∧ y < h.place + (d.payload.length - 8) then d.payload[y - h.place + 8]? else none) ∧
        t.conn n = { r with own := c.own + 1, ackDue := false, unacked := [(c.own, 0, replyOf r n 0 d.tag [])] } ∧
        (∀ k, k ≠ n → t.conn k = s.conn k) ∧
        t = { s with mem := t.mem, poison := t.poison, trans := t.trans, freeCtr := t.freeCtr, conns := t.conns
                     orderNext := s.orderNext + 1, egress := s.egress ++ [.host (replyOf r n 0 d.tag [])] }) ∧
    (d.op = 5 → normal → 9 ≤ d.payload.length → va.toNat % 128 + (d.payload.length - 8) ≤ 128 →
      s.translateRange who .store va (d.payload.length - 8) = .ok [(va, d.payload.length - 8, x)] →
      (s.touch who va).translate who .store va (d.payload.length - 8) = .ok x → x.pkg ≠ s.pkg →
      let part : HostPart :=
        { conn := n, req := s.orderNext, asid := c.asid
          bytes := (List.range (d.payload.length - 8)).map (fun i => (va + BitVec.ofNat 64 i, d.payload[8 + i]?.getD 0)) }
      ∃ t, exec (.hostMwrite d) s = .next t ∧ t.conn n = { r with writing := some (s.orderNext, d.tag, 1, false) } ∧
        (∀ k, k ≠ n → t.conn k = s.conn k) ∧
        t = { s with trans := t.trans, freeCtr := t.freeCtr, conns := t.conns, orderNext := s.orderNext + 1
                     proxyNext := s.proxyNext + 1, hostFar := s.hostFar ++ [(s.proxyNext, part)]
                     egress := s.egress ++ [.store x.pkg 4 0 0 0 0 none 1
                       (some ({ die := 4, ch := 129, claim := 0, unit := s.proxyNext }, 0)) x.via x.exp
                       ((List.range (d.payload.length - 8)).map (fun i =>
                         .byte (x.addr + BitVec.ofNat 64 i) (d.payload[8 + i]?.getD 0)))] }) ∧
    (s.hostFar = [(k, part)] → s.proxies = [] → exec (.storeAck 4 ⟨k, 0⟩ .committed) s = .next { s with
        hostFar := [], freeCtr := s.freeCtr + 1, agenda := s.agenda ++ [.hostWrite { part with bytes := [] }] }) ∧
    (d.op = 6 → normal → d.payload.length = 8 → (keyOf va).pkg = s.pkg →
      (let u := s.modConn n (fun _ => r);
        (u.keyWord va = some v → replies s n r 0 d.tag (bytes v ++ bytes 0) (exec (.hostCatread d) s)) ∧
        (u.keyWord va = none → replies { s with absentReads := s.absentReads + 1 } n r 0 d.tag (bytes 0 ++ bytes 1)
          (exec (.hostCatread d) s)))) ∧
    (d.op = 7 → normal → c.sup = true → d.payload.length = 16 →
      (let u := s.modConn n (fun _ => r);
        let t := u.catWrite va (word 1);
        t.conn n = r → (t.refusedWrites = s.refusedWrites → replies t n r 0 d.tag (bytes 1) (exec (.hostCatwrite d) s)) ∧
          (t.refusedWrites ≠ s.refusedWrites → replies t n r 0 d.tag (bytes 0) (exec (.hostCatwrite d) s)))) ∧
    (d.op = 8 → served → c.sup = true → 8 ≤ d.payload.length → d.payload.length < 72 → s.upload = [] →
      ∃ t, exec (.hostImage d) s = .next t ∧ (∀ i, tget 0 t.upload i = if va.toNat ≤ i ∧ i < va.toNat + (d.payload.length - 8) then
          d.payload[i - va.toNat + 8]?.getD 0 else 0) ∧
        replies { s with upload := t.upload } n r 0 d.tag [] (.next t)) ∧
    (d.op = 9 → served → d.payload.length = 32 →
      (let report := Config.attestReport d.payload Config.deviceIdentity (s.images.map (fun i => (i.digest, i.svn)))
          ((List.range 4).map (fun t => Config.fusedMinSvn (t + 1))) s.ptime s.recovery;
        replies s n r 0 d.tag (report ++ Config.attestSignatures report) (exec (.hostAttest d) s))) ∧
    (d.op = 11 → heard s d → c.isOpen = true → c.closing = false → c.srcAddr = d.srcAddr → c.srcPort = d.srcPort → c.unacked.length ≤ 64 → d.sack = 0 →
      c.ahead = [] →
      ∃ t, exec (.hostAck d) s = .next t ∧
        t.conn n = { c with unacked := c.unacked.filter (fun u => !(decide (0 < (d.ackseq - u.1).toNat ∧ (d.ackseq - u.1).toNat < 2 ^ 31))) } ∧
        (∀ k, k ≠ n → t.conn k = s.conn k) ∧ t = { s with conns := t.conns }) ∧
    (let z := s.conn num.toNat;
      (((z.unacked.take 64).find? (fun u => u.1 = seq)) = some (seq, k, e) →
        (k < 16 → ∃ t, exec (.retransmitTimeout num seq) s = .next t ∧
          t.conn num.toNat = { z with unacked := z.unacked.map (fun u => if u.1 = seq then (u.1, u.2.1 + 1, u.2.2) else u) } ∧
          (∀ i, i ≠ num.toNat → t.conn i = s.conn i) ∧
          t = { s with conns := t.conns, egress := s.egress ++ [.host { e with ackseq := z.expect, sack := z.sack }] }) ∧
        (16 ≤ k → ∃ t, exec (.retransmitTimeout num seq) s = .next t ∧ t.conn num.toNat = Conn.reset ∧
          (∀ i, i ≠ num.toNat → t.conn i = s.conn i) ∧
          t = { s with conns := t.conns
                       submissions := s.submissions.map (fun y => if y.conn = num.toNat then { y with conn := 64 } else y) })) ∧
      (z.isOpen = true ∨ z.closing = true → z.ackDue = true → ∃ t, exec (.ackTimer num) s = .next t ∧ t.conn num.toNat = { z with ackDue := false } ∧
        (∀ i, i ≠ num.toNat → t.conn i = s.conn i) ∧
        t = { s with conns := t.conns
                     egress := s.egress ++ [.host { replyOf z num.toNat 0 0 [] with op := 11, seq := 0, sack := z.sack }] })) ∧
    (addressed s d → ¬ admitted s d → exec (.datagramDrop d) s = .next { s with dropped := s.dropped + 1 }) ∧
    (¬ addressed s d → exec (.datagramDrop d) s = .next s)

/-- A threshold holds: at once at its point, and from then on until the temperature has been 2 °C below it, at `fall` or less, for
1 ms (R387, R388). -/
def above (point fall temp : Int) (was below : Prop) : Prop := point ≤ temp ∨ was ∧ ¬ (below ∧ temp ≤ fall)

/-- The level of two rising points, p and q, each with what it has been below for 1 ms (R387, R388). -/
def levelGoes (p q temp : Int) (old : Nat) (belowP belowQ : Bool) (l : Nat) : Prop :=
  (above q (q - 32) temp (2 ≤ old) belowQ → l = 2) ∧
    (¬ above q (q - 32) temp (2 ≤ old) belowQ → above p (p - 32) temp (1 ≤ old) belowP → l = 1) ∧
    (¬ above q (q - 32) temp (2 ≤ old) belowQ → ¬ above p (p - 32) temp (1 ≤ old) belowP → l = 0)

/-- n changes are counted in the sync word that EVSYNC names, here or in another package (R389). -/
def countsChanges (u t : State) (n : Nat) : Prop :=
  let a := u.power.evsync
  (n = 0 ∨ a = 0 → t = u) ∧
    (n ≠ 0 → a ≠ 0 → paPkg a = u.pkg → settled u → t = u.syncAdd (paLocal a) n) ∧
    (n ≠ 0 → a ≠ 0 → paPkg a ≠ u.pkg → t = { u with egress := u.egress ++ [.syncAdd (paPkg a) .phys (BitVec.allOnes 64) a n] })

/-- The events of boot, heat and power (R1, R35, R384, R386 to R390). -/
def platformEvents : Prop :=
  ∀ (s : State) (provisioned : List BootImage) (die k core : Nat) (temp : BitVec 16) (low mid high : Bool) (power : BitVec 12),
    let z := s.therm die
    let b := s.hbmOf die k
    let steps := z.level = 2 ∨ die ≠ 5 ∧ (s.therm 5).level = 2 ∨
      die < 4 ∧ s.power.cap.toNat < s.power.power.toNat ∧ s.power.rate = 0
    let bursts (p : Power) := p.mode = 2 ∧ (∀ d < 6, (s.therm d).level = 0) ∧ p.power.toNat ≤ p.cap.toNat
    let target := min s.power.target.toNat s.power.cap.toNat
    let images := (List.range 4).filterMap (fun i =>
      match s.flash.find? (fun x => x.type.toNat = i + 1) with
      | some x => some x
      | none => provisioned[i]?)
    let accepted := images.map (fun i => i.type) = [1, 2, 3, 4] ∧ ∀ i ∈ images, imageOk i = true
    let config := images.head?.filter (fun i => i.type = 1 ∧ imageOk i = true)
    (¬ accepted → exec (.pkgReset provisioned) s = .next { State.reset with
      pkg := s.pkg, freeCtr := s.freeCtr, flash := s.flash, recovery := true, images := images
      listen := Config.linkLocal :: (config.map (fun i => Config.listenAddress i.body)).toList
      allow := (config.map (fun i => Config.allowTable i.body)).getD [], allowAll := config.isNone }) ∧
    (accepted → ∃ t, exec (.pkgReset provisioned) s = .next t ∧
      t = { State.reset with
        pkg := s.pkg, freeCtr := s.freeCtr, flash := s.flash, recovery := false, images := images
        listen := Config.linkLocal :: (images.head?.map (fun i => Config.listenAddress i.body)).toList
        allow := (images.head?.map (fun i => Config.allowTable i.body)).getD [], allowAll := false, cores := t.cores, handleNext := 9
        seqs := (List.range 8).map (fun i => { Seqr.blank with
          handle := BitVec.ofNat 24 (i + 1), index := BitVec.ofNat 16 i, st := .running, sup := true
          core := BitVec.ofNat 6 (48 + i % 2), cdie := BitVec.ofNat 2 (i / 2), pc := Config.firmwareStart i
          trapBase := Config.firmwareTrap i }) } ∧
      (∀ i, t.coreOf i = if 192 ≤ i ∧ i < 200 then
        { (State.reset.coreOf i) with
          slots := (State.reset.coreOf i).slots.setIfInBounds 0 (some (BitVec.ofNat 24 (i - 191))), run := some 0 }
        else State.reset.coreOf i)) ∧
    exec .powerLoss s = .next { State.reset with powered := false, pkg := s.pkg, freeCtr := s.freeCtr, flash := s.flash } ∧
    (die ≤ 5 → ∃ t l, exec (.tempSample die temp ⟨low, high⟩) s = .next t ∧
      levelGoes z.warn.toInt 1728 temp.toInt z.level.toNat low high l ∧
      t.therm die = { z with temp := temp, level := BitVec.ofNat 2 l, events := if l ≠ z.level.toNat then z.events + 1 else z.events } ∧
      (∀ i, i ≠ die → t.therm i = s.therm i) ∧
      countsChanges { s with thermal := t.thermal } t (if l ≠ z.level.toNat then 1 else 0)) ∧
    (die ≤ 5 →
      (steps → z.stepNo.toNat < 8 → ∃ t, exec (.stepDown die) s = .next t ∧ t.therm die = { z with stepNo := z.stepNo + 1 } ∧
        (∀ i, i ≠ die → t.therm i = s.therm i) ∧ t = { s with thermal := t.thermal }) ∧
      (¬ steps → z.stepNo ≠ 0 → ∃ t, exec (.stepUp die) s = .next t ∧ t.therm die = { z with stepNo := z.stepNo - 1 } ∧
        (∀ i, i ≠ die → t.therm i = s.therm i) ∧ t = { s with thermal := t.thermal }) ∧
      (1888 ≤ z.temp.toInt → exec (.trip die) s = .next { s with clockStopped := true, powerFault := true }) ∧
      (z.temp.toInt < 1888 → exec (.trip die) s = .next s)) ∧
    (die < 4 → k < 3 → ∃ t r l, exec (.hbmTempChange die k temp ⟨low, mid, high⟩) s = .next t ∧
      levelGoes 1360 1520 temp.toInt b.refx.toNat low mid r ∧ (l = true ↔ above 1681 1648 temp.toInt b.throt high) ∧
      t.hbmOf die k = { temp := temp, refx := BitVec.ofNat 2 r, throt := l } ∧
      (∀ i, i ≠ k → t.hbmOf die i = s.hbmOf die i) ∧ t.dieAt die = { s.dieAt die with hbm := (t.dieAt die).hbm } ∧
      (∀ i, i ≠ die → t.dieAt i = s.dieAt i) ∧
      countsChanges { s with dies := t.dies } t ((if r ≠ b.refx.toNat then 1 else 0) + (if l ≠ b.throt then 1 else 0))) ∧
    (let p : Power := { s.power with power := power };
      (¬ bursts p → exec (.powerControl power) s = .next { s with power := { p with rate := 0 } }) ∧
      (bursts p → 100 * power.toNat < 98 * target → exec (.powerControl power) s = .next { s with power := { p with rate := p.rate + 1 } }) ∧
      (bursts p → 102 * target < 100 * power.toNat → exec (.powerControl power) s = .next { s with power := { p with rate := p.rate - 1 } }) ∧
      (bursts p → 98 * target ≤ 100 * power.toNat → 100 * power.toNat ≤ 102 * target → exec (.powerControl power) s = .next { s with power := p })) ∧
    (core < 192 → bursts s.power → s.power.rate ≠ 0 → (s.coreOf core).mq = [] → (s.coreOf core).routine = none →
      exec (.burst core) s = .next { s with power := { s.power with bursts := s.power.bursts + 1 } })

end Sys2Proof.Claims
end

