-- ==== Sys2Proof/Certificates/Slice0/Obligations.lean ====
section
/-! DEFINITION. The statements for the provers, by family. -/

open Sys2Proof Sys2Proof.Machine Sys2Proof.Claims

/-- R91. -/
def Obligations.DivisionResults : Prop :=
  ∀ (s : State) (d a b : BitVec 5),
    let x := (s.rg a).val
    let y := (s.rg b).val
    let m := (s.rg a).taint ||| (s.rg b).taint
    let qs : W32 := if y = 0 then 0xFFFFFFFF else if x = 0x80000000 ∧ y = 0xFFFFFFFF then 0x80000000
      else BitVec.ofInt 32 (x.toInt.tdiv y.toInt)
    let rs : W32 := if y = 0 then x else if x = 0x80000000 ∧ y = 0xFFFFFFFF then 0
      else BitVec.ofInt 32 (x.toInt - qs.toInt * y.toInt)
    let qu : W32 := if y = 0 then 0xFFFFFFFF else BitVec.ofNat 32 (x.toNat / y.toNat)
    let ru : W32 := if y = 0 then x else BitVec.ofInt 32 (x.toNat - qu.toNat * y.toNat)
    writesG s d ⟨qs, m⟩ (exec (.div d a b) s) ∧ writesG s d ⟨qu, m⟩ (exec (.divn d a b) s) ∧
    writesG s d ⟨rs, m⟩ (exec (.rem d a b) s) ∧ writesG s d ⟨ru, m⟩ (exec (.remn d a b) s)

/-- R90: every form of Table 4.1 but division (R91) and comparison (R92). -/
def Obligations.AluResults : Prop :=
  ∀ (s : State) (d a b : BitVec 5) (p : BitVec 3),
    let x := (s.rg a).val
    let y := (s.rg b).val
    let n := y.toNat % 32
    let m := (s.rg a).taint ||| (s.rg b).taint
    writesG s d ⟨BitVec.ofNat 32 (x.toNat + y.toNat), m⟩ (exec (.add d a b) s) ∧
    writesG s d ⟨BitVec.ofInt 32 (x.toInt - y.toInt), m⟩ (exec (.sub d a b) s) ∧
    writesG s d ⟨BitVec.ofInt 32 (x.toInt * y.toInt), m⟩ (exec (.mul d a b) s) ∧
    writesG s d ⟨(BitVec.ofInt 64 (x.toInt * y.toInt)).extractLsb' 32 32, m⟩ (exec (.mulh d a b) s) ∧
    writesG s d ⟨(BitVec.ofNat 64 (x.toNat * y.toNat)).extractLsb' 32 32, m⟩ (exec (.mulhn d a b) s) ∧
    writesG s d ⟨x &&& y, m⟩ (exec (.and d a b) s) ∧
    writesG s d ⟨x ||| y, m⟩ (exec (.or d a b) s) ∧
    writesG s d ⟨x ^^^ y, m⟩ (exec (.xor d a b) s) ∧
    writesG s d ⟨BitVec.ofNat 32 (x.toNat * 2 ^ n), m⟩ (exec (.shl d a b) s) ∧
    writesG s d ⟨BitVec.ofNat 32 (x.toNat / 2 ^ n), m⟩ (exec (.shr d a b) s) ∧
    writesG s d ⟨BitVec.ofInt 32 (x.toInt / 2 ^ n), m⟩ (exec (.sra d a b) s) ∧
    writesG s d ⟨(x <<< n) ||| (x >>> (32 - n)), m⟩ (exec (.rotl d a b) s) ∧
    writesG s d ⟨BitVec.ofInt 32 (min x.toInt y.toInt), m⟩ (exec (.min d a b) s) ∧
    writesG s d ⟨BitVec.ofInt 32 (max x.toInt y.toInt), m⟩ (exec (.max d a b) s) ∧
    writesG s d ⟨BitVec.ofNat 32 (min x.toNat y.toNat), m⟩ (exec (.minn d a b) s) ∧
    writesG s d ⟨BitVec.ofNat 32 (max x.toNat y.toNat), m⟩ (exec (.maxn d a b) s) ∧
    writesG s d ⟨if (s.rk p).val.getLsbD 0 then x else y, m ||| (s.rk p).taint⟩ (exec (.sel d a b p) s) ∧
    (∃ c ≤ 32, writesG s d ⟨BitVec.ofNat 32 c, (s.rg a).taint⟩ (exec (.clz d a) s) ∧
      (∀ i < c, x.getMsbD i = false) ∧ (c < 32 → x.getMsbD c = true)) ∧
    (∃ c ≤ 32, writesG s d ⟨BitVec.ofNat 32 c, (s.rg a).taint⟩ (exec (.ctz d a) s) ∧
      (∀ i < c, x.getLsbD i = false) ∧ (c < 32 → x.getLsbD c = true)) ∧
    writesG s d ⟨BitVec.ofNat 32 ((List.range 32).filter x.getLsbD).length, (s.rg a).taint⟩ (exec (.popc d a) s) ∧
    writesG s d ⟨x, (s.rg a).taint⟩ (exec (.mov d a) s)


/-- R92. -/
def Obligations.CompareResults : Prop :=
  ∀ (s : State) (d : BitVec 3) (a b : BitVec 5),
    let x := (s.rg a).val
    let y := (s.rg b).val
    let r (c : Prop) [Decidable c] : TReg 64 := ⟨if c then BitVec.allOnes 64 else 0, (s.rg a).taint ||| (s.rg b).taint⟩
    writesK s d (r (x = y)) (exec (.cmpEq d a b) s) ∧ writesK s d (r (x ≠ y)) (exec (.cmpNe d a b) s) ∧
    writesK s d (r (x.toInt < y.toInt)) (exec (.cmpLt d a b) s) ∧
    writesK s d (r (x.toInt ≤ y.toInt)) (exec (.cmpLe d a b) s) ∧
    writesK s d (r (x.toNat < y.toNat)) (exec (.cmpLtn d a b) s) ∧
    writesK s d (r (x.toNat ≤ y.toNat)) (exec (.cmpLen d a b) s)

/-- R93. -/
def Obligations.ImmediateResults : Prop :=
  ∀ (s : State) (d a n : BitVec 5) (i : BitVec 14) (j : BitVec 19),
    let x := (s.rg a).val
    let m := (s.rg a).taint
    writesG s d ⟨BitVec.ofInt 32 (x.toInt + i.toInt), m⟩ (exec (.addi d a i) s) ∧
    writesG s d ⟨x &&& BitVec.ofNat 32 i.toNat, m⟩ (exec (.andi d a i) s) ∧
    writesG s d ⟨x ||| BitVec.ofNat 32 i.toNat, m⟩ (exec (.ori d a i) s) ∧
    writesG s d ⟨x ^^^ BitVec.ofNat 32 i.toNat, m⟩ (exec (.xori d a i) s) ∧
    writesG s d ⟨BitVec.ofNat 32 (x.toNat * 2 ^ n.toNat), m⟩ (exec (.shli d a n) s) ∧
    writesG s d ⟨BitVec.ofNat 32 (x.toNat / 2 ^ n.toNat), m⟩ (exec (.shri d a n) s) ∧
    writesG s d ⟨BitVec.ofInt 32 (x.toInt / 2 ^ n.toNat), m⟩ (exec (.srai d a n) s) ∧
    writesG s d ⟨BitVec.ofNat 32 (j.toNat * 2 ^ 13), 0⟩ (exec (.lhi d j) s)

/-- R94, R96; R111: `nop` has no effect. -/
def Obligations.AddressAndPredicateResults : Prop :=
  ∀ (s : State) (d a b : BitVec 5) (p q r : BitVec 3),
    let ga := s.rg a
    let gb := s.rg b
    let kp := s.rk p
    let kq := s.rk q
    writesB s r ⟨BitVec.ofInt 64 ((s.rb p).val.toNat + gb.val.toInt), (s.rb p).taint ||| gb.taint⟩ (exec (.addb r p b) s) ∧
    writesB s r ⟨BitVec.ofNat 64 (gb.val.toNat * 2 ^ 32 + ga.val.toNat), ga.taint ||| gb.taint⟩ (exec (.movb r a b) s) ∧
    writesG s d ⟨BitVec.ofNat 32 (s.rb p).val.toNat, (s.rb p).taint⟩ (exec (.movbLo d p) s) ∧
    writesG s d ⟨BitVec.ofNat 32 ((s.rb p).val.toNat / 2 ^ 32), (s.rb p).taint⟩ (exec (.movbHi d p) s) ∧
    writesK s r ⟨kp.val &&& kq.val, kp.taint ||| kq.taint⟩ (exec (.kand r p q) s) ∧
    writesK s r ⟨kp.val ||| kq.val, kp.taint ||| kq.taint⟩ (exec (.kor r p q) s) ∧
    writesK s r ⟨kp.val ^^^ kq.val, kp.taint ||| kq.taint⟩ (exec (.kxor r p q) s) ∧
    writesK s r ⟨~~~kp.val, kp.taint⟩ (exec (.knot r p) s) ∧
    writesK s r kp (exec (.kmov r p) s) ∧
    writesK s r ⟨BitVec.ofNat 64 (gb.val.toNat * 2 ^ 32 + ga.val.toNat), ga.taint ||| gb.taint⟩ (exec (.kfrom r a b) s) ∧
    writesG s d ⟨BitVec.ofNat 32 kp.val.toNat, kp.taint⟩ (exec (.ktoLo d p) s) ∧
    writesG s d ⟨BitVec.ofNat 32 (kp.val.toNat / 2 ^ 32), kp.taint⟩ (exec (.ktoHi d p) s) ∧
    exec .nop s = .next s

/-- R95, R330: `spb` of a lot of the sequencer's own allocation gives the lot's window; another lot raises PERM. -/
def Obligations.LotWindowBase : Prop :=
  ∀ (s : State) (d : BitVec 3) (a : BitVec 5) (j : Job), s.jobOf s.ctx.job = some j →
    let n := (s.rg a).val.toNat
    (n < j.lots → writesB s d ⟨BitVec.ofNat 64 (0xFFFF000000000000 + s.ctx.index.toNat * 0x4000000 + n * 0x10000),
      (s.rg a).taint⟩ (exec (.spb d a) s)) ∧
    (j.lots ≤ n → exec (.spb d a) s = .next (s.raise cPerm 0))

/-- R99: `br` tests bit 0 of its predicate, `bra` all 64 bits; a taken branch goes to W + 4 × sext(off); cr.ctaint gains the
predicate's mask, taken or not (R104). A taken `call` also writes W + 4 with no mask to b7. R101: `jr` and `ret` go to a
multiple of 4 held in a base register; another target raises ALIGN with it. -/
def Obligations.ControlTransfers : Prop :=
  ∀ (s : State) (n : BitVec 1) (k a : BitVec 3) (off : BitVec 20),
    let p := s.rk k
    let w := s.src.pc + BitVec.ofNat 64 (4 * s.issue.pos)
    let target := w + 4 * off.signExtend 64
    transfers s p.taint (if xor (p.val.getLsbD 0) (n = 1) then some target else none) (exec (.br n k off) s) ∧
    transfers s p.taint (if xor (decide (p.val ≠ 0)) (n = 1) then some target else none) (exec (.bra n k off) s) ∧
    (xor (p.val.getLsbD 0) (n = 1) = false → transfers s p.taint none (exec (.call n k off) s)) ∧
    (xor (p.val.getLsbD 0) (n = 1) = true →
      ∃ t, exec (.call n k off) s = .next t ∧ (∀ r, t.ctx.rb r = if r = 7 then ⟨w + 4, 0⟩ else s.ctx.rb r) ∧
        t = { s with
          ctx := { s.ctx with b := t.ctx.b, ctaint := s.ctx.ctaint ||| p.taint }
          issue := { s.issue with npc := some (w + 4 * off.signExtend 64) } }) ∧
    ((s.rb a).val.toNat % 4 = 0 → transfers s (s.rb a).taint (some (s.rb a).val) (exec (.jr a) s)) ∧
    ((s.rb 7).val.toNat % 4 = 0 → transfers s (s.rb 7).taint (some (s.rb 7).val) (exec .ret s)) ∧
    ((s.rb a).val.toNat % 4 ≠ 0 → exec (.jr a) s = .next (s.raise cAlign (s.rb a).val)) ∧
    ((s.rb 7).val.toNat % 4 ≠ 0 → exec .ret s = .next (s.raise cAlign (s.rb 7).val))

/-- R105: `loop` at the level that is next opens it, or, with a zero count, leaves for the exit address; any other level
raises LOOP_DEPTH. R20, R106: `brl` of the innermost level goes back to the start while iterations are left, and closes the
level after the last; `brl.rot` steps both rotation bases where it goes back. -/
def Obligations.LoopResults : Prop :=
  ∀ (s : State) (c : BitVec 5) (l : BitVec 3) (len : BitVec 15) (x : W64),
    let n := s.src.levels
    let w := s.src.pc + BitVec.ofNat 64 (4 * s.issue.pos)
    let lv := s.src.level l.toNat
    let i := lv.index + 1
    let stop := w + BitVec.ofNat 64 (4 * len.toNat)
    (l.toNat = n → l.toNat ≤ 5 → (s.rg c).val ≠ 0 →
      loops s (s.rg c).taint n
        { valid := true, count := (s.rg c).val, index := 0
          start := s.src.pc + BitVec.ofNat 64 (4 * s.issue.len), stop := stop } none (exec (.loop c l len) s)) ∧
    (l.toNat = n → l.toNat ≤ 5 → (s.rg c).val = 0 → exitsTo s stop x →
      transfers s (s.rg c).taint (some x) (exec (.loop c l len) s)) ∧
    (l.toNat ≠ n ∨ 6 ≤ l.toNat → exec (.loop c l len) s = .next (s.raise cLoopDepth 0)) ∧
    (s.src.levels = l.toNat + 1 → lv.index.toNat + 1 < lv.count.toNat →
      loops s 0 l.toNat { lv with index := i } (some lv.start) (exec (.brl l) s) ∧
      loops { s with ctx := { s.ctx with vrot := s.src.vrot - 1, krot := s.src.krot - 1 } } 0 l.toNat { lv with index := i }
        (some lv.start) (exec (.brlRot l) s)) ∧
    (s.src.levels = l.toNat + 1 → lv.count.toNat ≤ lv.index.toNat + 1 →
      loops s 0 l.toNat { lv with index := i, valid := false } none (exec (.brl l) s) ∧
      loops s 0 l.toNat { lv with index := i, valid := false } none (exec (.brlRot l) s)) ∧
    (s.src.levels ≠ l.toNat + 1 →
      exec (.brl l) s = .next (s.raise cLoopDepth 0) ∧ exec (.brlRot l) s = .next (s.raise cLoopDepth 0))

/-- R107, R108: `lbrk` closes the innermost level and leaves for its exit address where its predicate says so; `lidx` reads
the index of the innermost level. With no valid level, and for `lidx` with another level, LOOP_DEPTH is raised. -/
def Obligations.LoopBreakResults : Prop :=
  ∀ (s : State) (n : BitVec 1) (k : BitVec 3) (d l : BitVec 5) (x : W64),
    let p := s.rk k
    let i := s.src.levels - 1
    let lv := s.src.level i
    (s.src.levels ≠ 0 → xor (p.val.getLsbD 0) (n = 1) = true → exitsTo s lv.stop x →
      loops s p.taint i { lv with valid := false } (some x) (exec (.lbrk n k) s)) ∧
    (s.src.levels ≠ 0 → xor (p.val.getLsbD 0) (n = 1) = false → transfers s p.taint none (exec (.lbrk n k) s)) ∧
    (s.src.levels = 0 → exec (.lbrk n k) s = .next (s.raise cLoopDepth 0)) ∧
    (s.src.levels = l.toNat + 1 → writesG s d ⟨(s.src.level l.toNat).index, 0⟩ (exec (.lidx d l) s)) ∧
    (s.src.levels ≠ l.toNat + 1 → exec (.lidx d l) s = .next (s.raise cLoopDepth 0))

/-- R218, R32: `trap` in a user context stops the sequencer, which departs from its slot to STATE frozen (R250, R253), with
cr.cause, cr.epc and cr.badaddr written, and posts a kind-1 record to the queue of its die: where the queue has room the record is
written and the sync word that QSYNC names gains 64 bytes, or holds them while its page migrates (R339, R337), else the record
waits. In a supervisor context the next group is the one at cr.trap. What the group waited for is given up (R252). Registers, the
loop stack and the other state are as before. The slot kept until the save, a QSYNC that names no word of this package and the low
bits of cr.trap are the model's choices (log entries 21, 7 and 70). -/
def Obligations.TrapInstruction : Prop :=
  ∀ (s : State) (imm : BitVec 8), s.issue.slot ≠ 7 →
    let cause : W32 := 0x12 ||| (s.issue.slot.zeroExtend 32 <<< 8) ||| (BitVec.ofNat 32 (s.issue.pos % 16) <<< 12)
    let issue := { s.issue with
      flow := .trap { code := 0x12, slot := s.issue.slot, whole := false, word := BitVec.ofNat 4 s.issue.pos, bad := 0 } }
    let waiting := s.ldfeQueue.filter (fun e => e.2.1 ≠ s.pkg ∨ e.2.2 ≠ s.ctx.handle)
    let q := (s.dieAt s.ctx.cdie.toNat).queue
    let r : TrapRec := { kind := 1, code := 0x12, master := s.ctx.handle.zeroExtend 32, job := s.ctx.job, addr := 0
                         pt := s.ptime, info := s.ctx.pc, parked := none }
    (s.ctx.sup = false → ∃ t, exec (.trap imm) s = .next t ∧
      t.ctx = { s.ctx with
        depart := some .freeze, preempt := none, cause := cause, epc := s.ctx.pc, badaddr := 0
        wait := none, asks := [], resumed := false } ∧
      (q.pending < 1024 →
        (t.dieAt s.ctx.cdie.toNat).queue =
          { q with tail := q.tail + 1, recs := tset (q.tail.toNat % 1024) r q.recs }) ∧
      (q.pending < 1024 → paPkg q.qsync = s.pkg → s.migrationAt (paLocal q.qsync) = none →
        t.mem = (s.syncAdd (paLocal q.qsync) 64).mem ∧ t.trans = s.trans) ∧
      (q.pending < 1024 → paPkg q.qsync = s.pkg → (s.migrationAt (paLocal q.qsync)).isSome →
        t.mem = s.mem ∧ t.trans = (s.migrationHold (paLocal q.qsync) (.count (paLocal q.qsync) 64)).trans) ∧
      (1024 ≤ q.pending → (t.dieAt s.ctx.cdie.toNat).queue = { q with holding := q.holding ++ [{ r with pt := 0 }] }) ∧
      (1024 ≤ q.pending ∨ paPkg q.qsync ≠ s.pkg → t.mem = s.mem ∧ t.trans = s.trans) ∧
      (∀ d, d ≠ s.ctx.cdie.toNat → t.dieAt d = s.dieAt d) ∧
      t = { s with
        ctx := t.ctx, issue := issue, ldfeQueue := waiting, egress := s.egress ++ withdrawals s.ctx, dies := t.dies
        mem := t.mem, trans := t.trans }) ∧
    (s.ctx.sup = true → exec (.trap imm) s = .next { s with
      ctx := { s.ctx with
        pc := s.ctx.trapBase, cause := cause, epc := s.ctx.pc, badaddr := 0, wait := none, asks := [], resumed := false }
      ldfeQueue := waiting
      egress := s.egress ++ withdrawals s.ctx
      issue := issue })

/-- R219: `eret` of a supervisor continues at cr.epc and changes no other state; a user takes PRIV. -/
def Obligations.TrapReturn : Prop :=
  ∀ s : State,
    (s.src.sup = true → exec .eret s = .next { s with issue := { s.issue with npc := some s.src.epc } }) ∧
    (s.src.sup = false → exec .eret s = .next (s.raise cPriv 0))

/-- R29, R220: `mfc` gives the value of a control register from before the group in two g registers; cr.trap is a
supervisor's alone. That both halves named alike keep the high one is the model's choice (log entry 25). -/
def Obligations.ControlRegisterRead : Prop :=
  ∀ (s : State) (l h : BitVec 5) (n : BitVec 8), n.toNat ≤ 19 →
    let v := ((controlRegisters s.src)[n.toNat]?).getD 0
    (n ≠ 18 ∨ s.src.sup = true → ∃ t, exec (.mfc l h n) s = .next t ∧
      (∀ r, t.ctx.rg r = if r = h ∧ h ≠ 0 then ⟨BitVec.ofNat 32 (v.toNat / 2 ^ 32), 0⟩
        else if r = l ∧ l ≠ 0 then ⟨BitVec.ofNat 32 v.toNat, 0⟩ else s.ctx.rg r) ∧
      t = { s with ctx := { s.ctx with g := t.ctx.g } }) ∧
    (n = 18 → s.src.sup = false → exec (.mfc l h n) s = .next (s.raise cPriv 0))

/-- R29, R30, R220, R394: `mtc` with operands without mask. -/
def Obligations.ControlRegisterWrite : Prop :=
  ∀ (s : State) (l h : BitVec 5) (n : BitVec 8), n.toNat ≤ 19 → (s.rg l).taint = 0 → (s.rg h).taint = 0 →
    let v : W64 := BitVec.ofNat 64 ((s.rg h).val.toNat * 2 ^ 32 + (s.rg l).val.toNat)
    let readOnly := n.toNat ∈ [6, 7, 13, 14, 19]
    let supOnly := n.toNat ∈ [8, 10, 11, 15, 16, 17, 18]
    let reserved := n = 2 ∧ 5 ≤ v.toNat % 8 ∨ n = 5 ∧ v.toNat % 2 ^ 32 / 2 ^ 7 ≠ 0 ∨ n = 15 ∧ v.toNat % 2 ^ 32 / 2 ^ 16 ≠ 0
    let low := v.toNat % 2 ^ (controlWidths[n.toNat]?.getD 0)
    let result : Nat := match n.toNat with
      | 4 => if low = 0 then 1 else low
      | 5 => (low ||| s.issue.raised.toNat)
      | 9 => min (low + s.issue.bankCycles) 0xFFFFFFFF
      | 12 => min (low + s.issue.roerrs) 0xFFFFFFFF
      | _ => low
    (readOnly → ignoredWrite s (exec (.mtc l h n) s)) ∧
    (supOnly → s.src.sup = false → exec (.mtc l h n) s = .next (s.raise cPriv 0)) ∧
    (¬ readOnly → (supOnly → s.src.sup = true) → reserved → ignoredWrite s (exec (.mtc l h n) s)) ∧
    (¬ readOnly → (supOnly → s.src.sup = true) → ¬ reserved → ∃ t, exec (.mtc l h n) s = .next t ∧
      (∀ k < 20, (controlRegisters t.ctx)[k]? =
        if k = n.toNat then some (BitVec.ofNat 64 result) else (controlRegisters s.ctx)[k]?) ∧
      t.ctx.g = s.ctx.g ∧ t.ctx.b = s.ctx.b ∧ t.ctx.v = s.ctx.v ∧ t.ctx.k = s.ctx.k ∧ t.ctx.pc = s.ctx.pc ∧
      t.ctx.ls = s.ctx.ls ∧ t.ctx.mp = s.ctx.mp ∧ t.ctx.staging = s.ctx.staging ∧ t.ctx.ports = s.ctx.ports ∧
      t = { s with ctx := t.ctx })

/-- R206, R221, R224: `ptime` writes package time, never less than the sequencer last read; `svget` the variant in force;
`rdst` of a supervisor the catalogue word that its key names: of this package at once, an absent one as zero and counted
(R37), of another package from the reply, for which it asks once. A user's `rdst` takes PRIV. -/
def Obligations.SystemReads : Prop :=
  ∀ (s : State) (d a : BitVec 3) (e : BitVec 5) (v : W64) (w : BitVec 2048), (s.rb a).taint = 0 →
    let now := if s.ctx.lastPtime.toNat < s.ptime.toNat then s.ptime else s.ctx.lastPtime
    let key := (s.rb a).val
    (∃ t, exec (.ptime d) s = .next t ∧ (∀ r, t.ctx.rb r = if r = d then ⟨now, 0⟩ else s.ctx.rb r) ∧
      t = { s with ctx := { s.ctx with b := t.ctx.b, lastPtime := now } }) ∧
    writesG s e ⟨s.src.sv.zeroExtend 32, 0⟩ (exec (.svget e) s) ∧
    (s.src.sup = true → key.toNat / 2 ^ 49 = s.pkg.toNat → s.keyWord key = some v →
      writesB s d ⟨v, 0⟩ (exec (.rdst d a) s)) ∧
    (s.src.sup = true → key.toNat / 2 ^ 49 = s.pkg.toNat → s.keyWord key = none →
      writesB { s with absentReads := s.absentReads + 1 } d ⟨0, 0⟩ (exec (.rdst d a) s)) ∧
    (s.src.sup = true → key.toNat / 2 ^ 49 ≠ s.pkg.toNat → request s = none →
      asksFor s false .reply (fun n => .catRead (BitVec.ofNat 15 (key.toNat / 2 ^ 49)) s.ctx.handle n key) (exec (.rdst d a) s)) ∧
    (s.src.sup = true → key.toNat / 2 ^ 49 ≠ s.pkg.toNat → (request s).bind Ask.reply = some (.value w) →
      writesB { s with issue := { s.issue with taken := s.issue.taken + 1 } } d ⟨w.extractLsb' 0 64, 0⟩ (exec (.rdst d a) s)) ∧
    (s.src.sup = false → exec (.rdst d a) s = .next (s.raise cPriv 0))

/-- R223: `yield` of a sequencer leaves its slot for the queue where one of the same or a higher class is queued that the core
may take (it is queued once it is saved, R253; log entry 21), and otherwise has no effect; `sleep` of 0 does not wait; one of n waits n cycles of the die and then takes effect,
which changes no register. -/
def Obligations.YieldAndSleep : Prop :=
  ∀ (s : State) (a : BitVec 5) (c since : Nat), (s.rg a).taint = 0 →
    let cycle := (s.dieAt s.ctx.cdie.toNat).cycle
    (s.queuedForCore = true →
      exec .yield s = .next { s with ctx := { s.ctx with depart := some .requeue, preempt := none } }) ∧
    (s.queuedForCore = false → exec .yield s = .next s) ∧
    ((s.rg a).val = 0 → exec (.sleep a) s = .next s) ∧
    ((s.rg a).val ≠ 0 → s.ctx.wait = none → s.ctx.held = none →
      exec (.sleep a) s =
        .next { s with issue := { s.issue with flow := .wait (.sleepUntil (cycle + (s.rg a).val.toNat)) } }) ∧
    ((s.rg a).val ≠ 0 → s.ctx.wait = some (.sleepUntil c, since) → s.ctx.wakeAt = 0 → c ≤ cycle → exec (.sleep a) s = .next s)

/-- R222: `freeze` stops a master that is not stopped and `thaw` releases one that is frozen, whose job has not ended; a
word that names no master, and a `thaw` of a master whose job has ended, have no effect and are counted in cr.roerr; a user takes
PRIV. A supervisor context is never frozen (Table 14.7). The kinds here: a sequencer that holds its slot, which departs at the
boundary it has reached or, where its group has had an effect elsewhere, the next one (R252), giving up what it waits for; a copy
channel that is not frozen, in FAULT too (the model's choice, log entry 53); a collective channel for which nothing is held; a port
to which no tree packet is owed; a host connection. That the slot is kept until the save is log entry 21's choice. -/
def Obligations.FreezeAndThaw : Prop :=
  ∀ (s : State) (a : BitVec 5) (q : Seqr), (s.rg a).taint = 0 →
    let m := (s.rg a).val
    let id := m.toNat % 2 ^ 28
    let kind := m.toNat / 2 ^ 28
    (s.src.sup = true → kind = 0 → id < 2 ^ 24 → s.seqOf (BitVec.ofNat 24 id) = some q →
      (q.sup = true → exec (.freeze a) s = .next s) ∧
      (q.sup = false → (q.st = .resident ∨ q.st = .running) → (∀ x ∈ q.asks, x.effect = false) →
        changesSeq { s with egress := s.egress ++ withdrawals q } q.handle (fun x => { x with
          depart := some .freeze, preempt := none, gangPark := false, wait := none, asks := [] }) (exec (.freeze a) s)) ∧
      (q.sup = false → (q.st = .resident ∨ q.st = .running) → (∃ x ∈ q.asks, x.effect = true) →
        changesSeq s q.handle (fun x => { x with depart := some .freeze, preempt := none, gangPark := false })
          (exec (.freeze a) s)) ∧
      (q.st = .frozen → exec (.freeze a) s = .next s) ∧
      (q.depart = some .freeze → q.st ≠ .retired → s.masterEnded (.seq q.handle) = false →
        changesSeq s q.handle (fun x => { x with depart := some .requeue }) (exec (.thaw a) s)) ∧
      (q.depart ≠ some .freeze → q.st ≠ .frozen → q.st ≠ .retired → s.masterEnded (.seq q.handle) = false →
        exec (.thaw a) s = .next s) ∧
      (q.st ≠ .retired → s.masterEnded (.seq q.handle) = true → ignoredWrite s (exec (.thaw a) s)) ∧
      (q.st = .retired → ignoredWrite s (exec (.freeze a) s) ∧ ignoredWrite s (exec (.thaw a) s))) ∧
    (s.src.sup = true → kind = 1 → id < 2 ^ 26 → id % 2 ^ 24 < 128 → (s.chan (id / 2 ^ 24) (id % 128)).state ≠ 4 →
      exec (.freeze a) s = .next (s.modChan (id / 2 ^ 24) (id % 128) (fun c => { c with state := 4, fkind := 0, stopping := none })) ∧
      (s.masterEnded (.channel (id / 2 ^ 24) (id % 128)) = false → exec (.thaw a) s = .next s)) ∧
    (s.src.sup = true → kind = 2 → id < 4096 →
      exec (.freeze a) s = .next (s.modColl id (fun x => { x with frozen := true })) ∧
      ((s.coll id).frozen = false → s.masterEnded (.coll id) = false → exec (.thaw a) s = .next s) ∧
      (s.masterEnded (.coll id) = true → ignoredWrite s (exec (.thaw a) s))) ∧
    (s.src.sup = true → kind = 3 → id < 68 →
      exec (.freeze a) s = .next (s.modPort id (fun x => { x with frozen := true })) ∧
      ((∀ g ∈ s.groups, ∀ f ∈ g.2.flight, id ∈ f.owing → id < 64) →
        exec (.thaw a) s = .next (s.modPort id (fun x => { x with frozen := false })))) ∧
    (s.src.sup = true → kind = 4 → id < 64 → (s.conn id).isOpen = true →
      exec (.freeze a) s = .next (s.modConn id (fun x => { x with frozen := true })) ∧
      exec (.thaw a) s = .next (s.modConn id (fun x => { x with frozen := false }))) ∧
    (s.src.sup = true → 5 ≤ kind → ignoredWrite s (exec (.freeze a) s) ∧ ignoredWrite s (exec (.thaw a) s)) ∧
    (s.src.sup = false → exec (.freeze a) s = .next (s.raise cPriv 0) ∧ exec (.thaw a) s = .next (s.raise cPriv 0))

/-- R225, R198: `exit` of a sequencer with nothing on its way, in no crew, whose job has others left, retires it: its slot,
lots, tiles and tags are free, the job counts it and keeps the first nonzero status. -/
def Obligations.ExitRetires : Prop :=
  ∀ (s : State) (a : BitVec 5) (j : Job), (s.rg a).taint = 0 → quiet s → s.crews = [] →
    (s.coreOf s.ctx.coreNo).mq = [] → (∀ p < 8, (s.src.port p).bind ≠ 2) → s.jobOf s.ctx.job = some j → 1 < j.left →
    ∃ t, exec (.exit a) s = .next t ∧
      t.ctx = { s.ctx with
        st := .retired, lots := [], tiles := [], tags := Vector.replicate 16 none, preempt := none, gangPark := false
        depart := none, wait := none, asks := [] } ∧
      t.jobOf s.ctx.job = some { j with left := j.left - 1, status := if j.status = 0 then (s.rg a).val else j.status } ∧
      (∀ i < 4, (t.coreOf s.ctx.coreNo).slots[i]?.getD none ≠ some s.ctx.handle) ∧
      t = { s with
        ctx := t.ctx, jobs := t.jobs, cores := t.cores
        ldfeQueue := s.ldfeQueue.filter (fun e => e.2.1 ≠ s.pkg ∨ e.2.2 ≠ s.ctx.handle) }

/-- R112, R113, R120: a scalar load of aligned bytes of this package's memory, with no store on its way, writes the
little-endian bytes, extended, with no mask, and touches no other register and no memory. Of every width, a misaligned one raises
ALIGN with its address, an untranslated one the fault of the translation or of its home, one of an empty line waits, and one of
poisoned bytes raises POISON with the lowest poisoned byte's address (R345). An access to another die's HBM is counted there (R336).
A load from another package's memory asks for the bytes and takes the reply once it has come. -/
def Obligations.ScalarLoads : Prop :=
  ∀ (s : State) (d : BitVec 5) (e b : BitVec 3) (x : BitVec 5) (i : BitVec 6) (h : Home) (y : Xlat)
    (f : BitVec 8 × W64) (c : BitVec 8) (r : BitVec 2048),
    noStores s → plainAddress s b x →
    let v (n : Nat) : Nat := Memory.readLE s.mem h.place n
    let at' (n : Nat) : State := s.touchAll s.me [address s b x i n]
    let after (n : Nat) : State := noted (at' n) y h
    let ok (n : Nat) : Prop := (address s b x i n).toNat % n = 0 ∧ loadable s (at' n) .load (address s b x i n) n y h
    let answered (n : Nat) : Prop := (address s b x i n).toNat % n = 0 ∧ s.translate s.me .load (address s b x i n) n = .ok y ∧
      y.pkg ≠ s.pkg ∧ (request s).bind Ask.reply = some (.value r)
    let used (n : Nat) : State := { at' n with issue := { s.issue with taken := s.issue.taken + 1 } }
    let loads : List (Nat × Instr) := [(1, .ldI8 d b x i), (1, .ldN8 d b x i), (2, .ldI16 d b x i), (2, .ldN16 d b x i), (4, .ldW d b x i),
      (8, .ldb e b x i)]
    (ok 1 → writesG (after 1) d ⟨(BitVec.ofNat 8 (v 1)).signExtend 32, 0⟩ (exec (.ldI8 d b x i) s) ∧
      writesG (after 1) d ⟨BitVec.ofNat 32 (v 1), 0⟩ (exec (.ldN8 d b x i) s)) ∧
    (ok 2 → writesG (after 2) d ⟨(BitVec.ofNat 16 (v 2)).signExtend 32, 0⟩ (exec (.ldI16 d b x i) s) ∧
      writesG (after 2) d ⟨BitVec.ofNat 32 (v 2), 0⟩ (exec (.ldN16 d b x i) s)) ∧
    (ok 4 → writesG (after 4) d ⟨BitVec.ofNat 32 (v 4), 0⟩ (exec (.ldW d b x i) s)) ∧
    (ok 8 → writesB (after 8) e ⟨BitVec.ofNat 64 (v 8), 0⟩ (exec (.ldb e b x i) s)) ∧
    (answered 1 → writesG (used 1) d ⟨(r.extractLsb' 0 8).signExtend 32, 0⟩ (exec (.ldI8 d b x i) s) ∧
      writesG (used 1) d ⟨(r.extractLsb' 0 8).zeroExtend 32, 0⟩ (exec (.ldN8 d b x i) s)) ∧
    (answered 2 → writesG (used 2) d ⟨(r.extractLsb' 0 16).signExtend 32, 0⟩ (exec (.ldI16 d b x i) s) ∧
      writesG (used 2) d ⟨(r.extractLsb' 0 16).zeroExtend 32, 0⟩ (exec (.ldN16 d b x i) s)) ∧
    (answered 4 → writesG (used 4) d ⟨r.extractLsb' 0 32, 0⟩ (exec (.ldW d b x i) s)) ∧
    (answered 8 → writesB (used 8) e ⟨r.extractLsb' 0 64, 0⟩ (exec (.ldb e b x i) s)) ∧
    ∀ l ∈ loads,
      let a := address s b x i l.1
      let s' := at' l.1
      (a.toNat % l.1 ≠ 0 → exec l.2 s = .next (s.raise cAlign a)) ∧
      (a.toNat % l.1 = 0 → s.translate s.me .load a l.1 = .error f → exec l.2 s = .next (s.raise f.1 f.2)) ∧
      (a.toNat % l.1 = 0 → s.translate s.me .load a l.1 = .ok y → y.pkg = s.pkg →
        (s'.homeOf s.ctx.cdie.toNat s.ctx.sup .load y.via y.addr = .error c → exec l.2 s = .next (s'.raise c a)) ∧
        (s'.homeOf s.ctx.cdie.toNat s.ctx.sup .load y.via y.addr = .ok h →
          (s'.feFull h.fe = false → exec l.2 s = .next (s'.stall (.emptyLine a))) ∧
          (∀ k < l.1, s'.feFull h.fe = true → isSession h.place = false → (∀ j < k, s'.poisoned (h.place + j) 1 = false) →
            s'.poisoned (h.place + k) 1 = true → exec l.2 s = .next (s'.raise cPoison (a + BitVec.ofNat 64 k))))) ∧
      (a.toNat % l.1 = 0 → s.translate s.me .load a l.1 = .ok y → y.pkg ≠ s.pkg → request s = none →
        asksFor s' false (if y.via = .phys ∧ isScratch (paLocal y.addr) = false then .reply else .emptyLine a)
          (fun n => .read y.pkg y.via s.ctx.cdie.toNat s.ctx.handle n 0 0 y.exp y.addr l.1) (exec l.2 s))

/-- R120: `ldv` loads 256 bytes unchanged with the tag of its sub-operation into a vector register, or pushes them to a
drain port that has room. -/
def Obligations.VectorLoad : Prop :=
  ∀ (s : State) (d : BitVec 6) (b : BitVec 3) (x : BitVec 5) (m : BitVec 4) (i : BitVec 6) (y y' : Xlat) (h h' : Home) (w : Walk),
    noStores s → plainAddress s b x → m.toNat ≤ 7 →
    let a := address s b x i 256
    let s' := s.touchAll s.me [a, a + 128]
    let after := noted (noted s' y h) y' h'
    let v : Vec := BitVec.ofNat 2048 (Memory.readLE s.mem h.place 128 + 2 ^ 1024 * Memory.readLE s.mem h'.place 128)
    let p := d.toNat - 56
    a.toNat % 128 = 0 → loadable s s' .load a 128 y h → loadable s (noted s' y h) .load (a + 128) 128 y' h' →
    (d.toNat < 56 →
      writesV after d.toNat { val := v, tag := if m = 7 then 0 else m + 1, aux := 0, taint := 0 } (exec (.ldv d b x m i) s)) ∧
    (56 ≤ d.toNat → (s.src.port p).bind = 2 → (s.src.port p).closing = false → (s.src.port p).walk = some w → w.failed = none →
      w.place + 256 * ((s.src.port p).entries.length + 1) ≤ w.length → (s.src.port p).entries.length < 4 →
      ∃ t, exec (.ldv d b x m i) s = .next t ∧
        t.ctx.port p = pushed s (s.ctx.port p) p v ∧
        (∀ q < 8, q ≠ p → t.ctx.port q = s.ctx.port q) ∧
        t = { after with ctx := { after.ctx with ports := t.ctx.ports } })

/-- R130: `vgath` loads a word for each active lane and leaves the other lanes, the tag and the mask of its destination. -/
def Obligations.Gather : Prop :=
  ∀ (s : State) (d : BitVec 6) (b : BitVec 3) (v : BitVec 6) (k : BitVec 3) (ys : Nat → Xlat) (hs : Nat → Home),
    noStores s → d.toNat < 56 → v.toNat < 56 → (s.src.rv v.toNat).tag = 5 → (s.src.rv v.toNat).taint = 0 →
    (s.rb b).taint = 0 → (s.rk k).taint = 0 → s.src.ctaint = 0 →
    let on (l : Nat) : Bool := (s.rk k).val.getLsbD l
    let a (l : Nat) : W64 := (s.rb b).val + BitVec.ofInt 64 (((s.src.rv v.toNat).val.extractLsb' (32 * l) 32).toInt * 4)
    let s' := s.touchAll s.me (((List.range 64).filter on).map a)
    let before (l : Nat) : State := ((List.range l).filter on).foldl (fun u j => noted u (ys j) (hs j)) s'
    (∀ l < 64, on l = true → (a l).toNat % 4 = 0 ∧ loadable s (before l) .load (a l) 4 (ys l) (hs l)) →
    ∃ val : Vec,
      writesV (before 64) d.toNat { s.src.rv d.toNat with val := val } (exec (.vgath d b v k) s) ∧
      ∀ l < 64, val.extractLsb' (32 * l) 32 =
        if on l then BitVec.ofNat 32 (Memory.readLE s.mem (hs l).place 4) else (s.src.rv d.toNat).val.extractLsb' (32 * l) 32

/-- R135, R137: `ldfe` of a full scratchpad line, with no earlier `ldfe` waiting there, reads the word and leaves the line empty
in one step; one that finds the line empty, or is not the first, waits. `fecheck` reads the line's bit without waiting. -/
def Obligations.FullEmptyReads : Prop :=
  ∀ (s : State) (d : BitVec 5) (b : BitVec 3) (x : BitVec 5) (i : BitVec 6) (h : Home) (line : Nat) (y : Xlat),
    noStores s → plainAddress s b x → h.fe = some (.line line) →
    let a := address s b x i 4
    let s' := s.touchAll s.me [a]
    let c := (s.rb b).val + (s.rg x).val.signExtend 64
    let first := ∀ e, s.ldfeQueue.find? (fun e => e.1 = .line line) = some e → e.2 = (s.pkg, s.ctx.handle)
    (a.toNat % 4 = 0 → loadable s s' .bit a 4 y h → s'.frameOf h = none → first →
      ∃ t, exec (.ldfe d b x i) s = .next t ∧
        let n := noted s' y h
        (∀ n, t.ctx.rg n = if n = d ∧ d ≠ 0 then ⟨BitVec.ofNat 32 (Memory.readLE s.mem h.place 4), 0⟩ else s.ctx.rg n) ∧
        (∀ l, l ∈ t.empties ↔ l = line ∨ l ∈ s.empties) ∧
        t = { n with
          ctx := { n.ctx with g := t.ctx.g }
          empties := t.empties
          ldfeQueue := s.ldfeQueue.filter (fun e => e.2.1 ≠ s.pkg ∨ e.2.2 ≠ s.ctx.handle) }) ∧
    (a.toNat % 4 = 0 → s.translate s.me .bit a 4 = .ok y → y.pkg = s.pkg → s'.frameOf h = none →
      s'.homeOf s.ctx.cdie.toNat s.ctx.sup .bit y.via y.addr = .ok h → line ∈ s.empties ∨ ¬ first →
      exec (.ldfe d b x i) s = .next (s'.stall (.consume a))) ∧
    let u := s.touchAll s.me [c]
    (s.translate s.me .load c 1 = .ok y → y.pkg = s.pkg →
      u.homeOf s.ctx.cdie.toNat s.ctx.sup .load y.via y.addr = .ok h →
      writesG (noted u y h) d ⟨if line ∈ s.empties then 0 else 1, 0⟩ (exec (.fecheck d b x) s))

/-- R76, R113, R123, R124: an aligned scalar store to the core's own scratchpad, with no store on its way, writes its bytes at
once, little-endian, and nothing else, where its queue does not lag (R73). -/
def Obligations.ScalarStores : Prop :=
  ∀ (s : State) (v : BitVec 5) (w b : BitVec 3) (x : BitVec 5) (st : BitVec 4) (i : BitVec 6) (y : Xlat) (h : Home),
    noStores s → plainAddress s b x → (s.rg v).taint = 0 → (s.rb w).taint = 0 →
    let a (n : Nat) := address s b x i n
    let at' (n : Nat) : State := s.touchAll s.me [a n]
    let ok (n : Nat) : Prop := (a n).toNat % n = 0 ∧ s.translate s.me .store (a n) n = .ok y ∧ (at' n).ownHome y = some h ∧
      prompt s y.sc
    let bytes (n z : Nat) (p : Nat) : Option Byte :=
      if h.place ≤ p ∧ p < h.place + n then some (BitVec.ofNat 8 (z / 256 ^ (p - h.place))) else none
    (ok 1 → storesOwn (at' 1) [] st (bytes 1 (s.rg v).val.toNat) (exec (.stB v b x st i) s)) ∧
    (ok 2 → storesOwn (at' 2) [] st (bytes 2 (s.rg v).val.toNat) (exec (.stH v b x st i) s)) ∧
    (ok 4 → storesOwn (at' 4) [] st (bytes 4 (s.rg v).val.toNat) (exec (.stW v b x st i) s)) ∧
    (ok 8 → storesOwn (at' 8) [] st (bytes 8 (s.rb w).val.toNat) (exec (.stb w b x st i) s))

/-- R123, R128: `stv` writes 256 bytes of its source, `stm` those of the lanes that its predicate names, in two halves, where its
queue does not lag. -/
def Obligations.VectorStores : Prop :=
  ∀ (s : State) (v : BitVec 6) (b : BitVec 3) (x : BitVec 5) (k : BitVec 3) (st : BitVec 4) (i : BitVec 6) (y y' : Xlat)
    (h h' : Home),
    noStores s → plainAddress s b x → plainVector s v → (s.rk k).taint = 0 →
    let r := source s.src v
    let at' (a : W64) : State := s.touchAll s.me [a, a + 128]
    let ok (a : W64) : Prop := a.toNat % 128 = 0 ∧ s.translate s.me .store a 128 = .ok y ∧
      s.translate s.me .store (a + 128) 128 = .ok y' ∧ (at' a).ownHome y = some h ∧ (at' a).ownHome y' = some h' ∧
      prompt s (y.sc || y'.sc)
    let bytes (on : Nat → Bool) (p : Nat) : Option Byte :=
      if h.place ≤ p ∧ p < h.place + 128 ∧ on ((p - h.place) / 4) then some (r.val.extractLsb' (8 * (p - h.place)) 8)
      else if h'.place ≤ p ∧ p < h'.place + 128 ∧ on (32 + (p - h'.place) / 4) then
        some (r.val.extractLsb' (8 * (128 + (p - h'.place))) 8)
      else none
    let a := address s b x i 256
    let a0 := address s b 0 i 256
    (ok a → storesOwn (at' a) [v] st (bytes (fun _ => true)) (exec (.stv v b x st i) s)) ∧
    (ok a0 → storesOwn (at' a0) [v] st (bytes (fun l => (s.rk k).val.getLsbD l)) (exec (.stm v b k st i) s))

/-- R130: `vscat` writes a word for each active lane at base + 4 × the lane's offset; of two lanes that name one location the
higher remains; with no active lane it is a zero-length store at the base, which is translated as a store. Here every word lies in the core's own
scratchpad, or the queue of the scatter lags (R73). -/
def Obligations.ScatterStore : Prop :=
  ∀ (s : State) (d : BitVec 6) (b : BitVec 3) (v : BitVec 6) (k : BitVec 3) (st : BitVec 4) (ys : Nat → Xlat) (hs : Nat → Home),
    noStores s → plainVector s d → v.toNat < 56 → (s.src.rv v.toNat).tag = 5 → (s.src.rv v.toNat).taint = 0 →
    (s.rb b).taint = 0 → (s.rk k).taint = 0 → s.src.ctaint = 0 →
    let on (l : Nat) : Bool := (s.rk k).val.getLsbD l
    let a (l : Nat) : W64 := (s.rb b).val + BitVec.ofInt 64 (((s.src.rv v.toNat).val.extractLsb' (32 * l) 32).toInt * 4)
    let last (l : Nat) : Bool := on l && (List.range 64).all (fun n => !(decide (l < n) && on n &&
      (ys n).pkg = (ys l).pkg && (ys n).via = (ys l).via && (ys n).addr = (ys l).addr))
    let s' := s.touchAll s.me (((List.range 64).filter last).map a)
    let s0 := s.touchAll s.me [(s.rb b).val]
    let writer (p : Nat) : Option Nat :=
      ((List.range 64).reverse).find? (fun l => on l && decide ((hs l).place ≤ p) && p < (hs l).place + 4)
    ((∃ l < 64, on l = true) →
      (∀ l < 64, on l = true →
        (a l).toNat % 4 = 0 ∧ s.translate s.me .scat (a l) 4 = .ok (ys l) ∧ s'.ownHome (ys l) = some (hs l)) →
      prompt s (((List.range 64).filter last).any (fun l => (ys l).sc)) →
      storesOwn s' [d] st
        (fun p => (writer p).map (fun l => (source s.src d).val.extractLsb' (32 * l + 8 * (p - (hs l).place)) 8))
        (exec (.vscat d b v k st) s)) ∧
    ((∃ l < 64, on l = true) → (∀ l < 64, on l = true → (a l).toNat % 4 = 0 ∧ s.translate s.me .scat (a l) 4 = .ok (ys l)) →
      s.issue.late = true → (∀ l < 64, on l = true → (ys l).sc = false) →
      lagsBehind s' [d] .plain st none 0 (((List.range 64).filter last).map (fun l =>
        { x := ys l, va := a l, effects := bytesFrom (ys l).addr 4 ((source s.src d).val.extractLsb' (32 * l) 32).toNat }))
        (exec (.vscat d b v k st) s)) ∧
    ((∀ l < 64, on l = false) → s.translate s.me .store (s.rb b).val 0 = .ok (ys 0) → s0.ownHome (ys 0) = some (hs 0) →
      prompt s (ys 0).sc →
      storesOwn s0 [d] st (fun _ => none) (exec (.vscat d b v k st) s))

/-- R121, R123, R124, R131, R133: an aligned store to any other place, and every accumulating store, enters the Curb with its
translated part and changes no memory; it takes its stream's next number; the parts for another package leave at once, those
that read alike as one request. One to a page that is not SC, whose queue lags, waits behind its group instead (R73, R119). -/
def Obligations.CurbStores : Prop :=
  ∀ (s : State) (v : BitVec 5) (w b : BitVec 3) (x : BitVec 5) (st o : BitVec 4) (i : BitVec 6) (y : Xlat),
    noStores s → plainAddress s b x → (s.rg v).taint = 0 → (s.rb w).taint = 0 →
    let a (n : Nat) (j : BitVec 6) := address s b x j n
    let at' (n : Nat) (j : BitVec 6) : State := s.touchAll s.me [a n j]
    let ok (n : Nat) (j : BitVec 6) : Prop := (a n j).toNat % n = 0 ∧ s.translate s.me .store (a n j) n = .ok y
    let far (n : Nat) : Prop := ok n i ∧ (at' n i).ownHome y = none ∧ prompt s y.sc
    let lag (n : Nat) (j : BitVec 6) : Prop := ok n j ∧ s.issue.late = true ∧ y.sc = false
    let behind (kind : StoreKind) (n : Nat) (j : BitVec 6) (es : List Effect) : Out → Prop :=
      lagsBehind (at' n j) [] kind st none 0 [{ x := y, va := a n j, effects := es }]
    let plain (n z : Nat) : Out → Prop :=
      entersCurb (at' n i) [] .plain y.sc st none 0 [partOf (at' n i) y (a n i) (bytesFrom y.addr n z)]
    (far 1 → plain 1 (s.rg v).val.toNat (exec (.stB v b x st i) s)) ∧
    (far 2 → plain 2 (s.rg v).val.toNat (exec (.stH v b x st i) s)) ∧
    (far 4 → plain 4 (s.rg v).val.toNat (exec (.stW v b x st i) s)) ∧
    (far 8 → plain 8 (s.rb w).val.toNat (exec (.stb w b x st i) s)) ∧
    (ok 4 0 → prompt s y.sc → entersCurb (at' 4 0) [] .accum y.sc st none 0
      [partOf (at' 4 0) y (a 4 0) [.accum y.addr o (s.rg v).val]] (exec (.stAcc v b x st o) s)) ∧
    (lag 1 i → behind .plain 1 i (bytesFrom y.addr 1 (s.rg v).val.toNat) (exec (.stB v b x st i) s)) ∧
    (lag 2 i → behind .plain 2 i (bytesFrom y.addr 2 (s.rg v).val.toNat) (exec (.stH v b x st i) s)) ∧
    (lag 4 i → behind .plain 4 i (bytesFrom y.addr 4 (s.rg v).val.toNat) (exec (.stW v b x st i) s)) ∧
    (lag 8 i → behind .plain 8 i (bytesFrom y.addr 8 (s.rb w).val.toNat) (exec (.stb w b x st i) s)) ∧
    (lag 4 0 → behind .accum 4 0 [.accum y.addr o (s.rg v).val] (exec (.stAcc v b x st o) s))

/-- R123, R129, R131, R133: `stv` and `stm` elsewhere, `stv.acc`, and `stv.mc` to one group enter the Curb with their lanes'
bytes, or with an accumulation for each word; one to pages that are not SC, whose queue lags, waits behind its group instead (R73,
R119). A store with only one of its halves outside the core's own scratchpad enters the Curb whole: R123 is silent on it (the model's
choice, log entry 25). -/
def Obligations.CurbVectorStores : Prop :=
  ∀ (s : State) (v : BitVec 6) (b : BitVec 3) (x : BitVec 5) (k : BitVec 3) (st o : BitVec 4) (i : BitVec 6) (y y' : Xlat),
    noStores s → plainAddress s b x → plainVector s v → (s.rk k).taint = 0 →
    let r := source s.src v
    let lo := r.val.toNat % 2 ^ 1024
    let hi := r.val.toNat / 2 ^ 1024
    let at' (a : W64) : State := s.touchAll s.me [a, a + 128]
    let ok (u : Use) (a : W64) : Prop :=
      a.toNat % 128 = 0 ∧ s.translate s.me u a 128 = .ok y ∧ s.translate s.me u (a + 128) 128 = .ok y'
    let now : Prop := prompt s (y.sc || y'.sc)
    let lag : Prop := s.issue.late = true ∧ y.sc = false ∧ y'.sc = false
    let far (a : W64) : Prop := ((at' a).ownHome y = none ∨ (at' a).ownHome y' = none) ∧ now
    let whole (e : Xlat) (va : W64) (es : List Effect) : List Effect := ({ va := va, n := 128, x := e } : Piece).carries es
    let drafts (a : W64) (es es' : List Effect) : List Draft :=
      [{ x := y, va := a, effects := es }, { x := y', va := a + 128, effects := es' }]
    let masked (e : Xlat) (first : Nat) : List Effect :=
      ((List.range 128).filter (fun j => (s.rk k).val.getLsbD ((first + j) / 4))).map (fun j =>
        .byte (e.addr + BitVec.ofNat 64 j) (r.val.extractLsb' (8 * (first + j)) 8))
    let words (e : Xlat) (first : Nat) : List Effect :=
      (List.range 32).map (fun j => .accum (e.addr + BitVec.ofNat 64 (4 * j)) o (r.val.extractLsb' (32 * (first + j)) 32))
    let a := address s b x i 256
    let a0 := address s b 0 i 256
    let aA := address s b x 0 256
    (ok .store a → far a → entersCurb (at' a) [v] .plain (y.sc || y'.sc) st none 0
      (partsOf (at' a) y y' a (bytesFrom y.addr 128 lo) (bytesFrom y'.addr 128 hi)) (exec (.stv v b x st i) s)) ∧
    (ok .store a0 → far a0 → entersCurb (at' a0) [v] .plain (y.sc || y'.sc) st none 0
      (partsOf (at' a0) y y' a0 (whole y a0 (masked y 0)) (whole y' (a0 + 128) (masked y' 128))) (exec (.stm v b k st i) s)) ∧
    (ok .store aA → now →
      (o.toNat ∈ [0, 4, 5] → r.tag = 5) → (o.toNat ∈ [1, 2, 3] → r.tag = 1) → (o.toNat ∈ [6, 7] → r.tag = 9) → (o = 11 → r.tag = 2) →
      entersCurb (at' aA) [v] .accum (y.sc || y'.sc) st none 0 (partsOf (at' aA) y y' aA (words y 0) (words y' 32))
        (exec (.stvAcc v b x st o) s)) ∧
    (ok .mc a → now → y.mc.isSome = true → y'.mc = y.mc → y'.addr = y.addr + 128 →
      entersCurb s [v] .mcast (y.sc || y'.sc) st y.mc y.addr
        (partsOf s y y' a (bytesFrom y.addr 128 lo) (bytesFrom y'.addr 128 hi)) (exec (.stvMc v b x st i) s)) ∧
    (ok .store a → lag → lagsBehind (at' a) [v] .plain st none 0 (drafts a (bytesFrom y.addr 128 lo) (bytesFrom y'.addr 128 hi))
      (exec (.stv v b x st i) s)) ∧
    (ok .store a0 → lag → lagsBehind (at' a0) [v] .plain st none 0
      (drafts a0 (whole y a0 (masked y 0)) (whole y' (a0 + 128) (masked y' 128))) (exec (.stm v b k st i) s)) ∧
    (ok .store aA → lag →
      (o.toNat ∈ [0, 4, 5] → r.tag = 5) → (o.toNat ∈ [1, 2, 3] → r.tag = 1) → (o.toNat ∈ [6, 7] → r.tag = 9) → (o = 11 → r.tag = 2) →
      lagsBehind (at' aA) [v] .accum st none 0 (drafts aA (words y 0) (words y' 32)) (exec (.stvAcc v b x st o) s)) ∧
    (ok .mc a → lag → y.mc.isSome = true → y'.mc = y.mc → y'.addr = y.addr + 128 →
      lagsBehind s [v] .mcast st y.mc y.addr (drafts a (bytesFrom y.addr 128 lo) (bytesFrom y'.addr 128 hi))
        (exec (.stvMc v b x st i) s))

/-- R134, R135, R395: `mkfull` and `mkempty` set and clear the bit of a line of the core's own scratchpad at once; elsewhere
they enter the Curb as a stream-0 mark: with a home that holds such bits, or where another unit than the source translates the
address, which then checks it; one whose queue lags waits behind its group instead (R73). A home that holds none raises PERM where
the source can tell. No memory changes. -/
def Obligations.LineMarks : Prop :=
  ∀ (s : State) (b : BitVec 3) (x : BitVec 5) (y : Xlat) (h : Home) (line : Nat) (c : BitVec 8),
    noStores s → plainAddress s b x →
    let a := byteAddress s b x
    let s' := s.touchAll s.me [a]
    let mark (full : Bool) : List Effect := [.mark y.addr full]
    s.translate s.me .bit a 1 = .ok y →
    (s'.ownHome y = some h → h.fe = some (.line line) →
      (∃ t, exec (.mkfull b x) s = .next t ∧ (∀ l, l ∈ t.empties ↔ l ≠ line ∧ l ∈ s.empties) ∧
        t = { s' with empties := t.empties }) ∧
      (∃ t, exec (.mkempty b x) s = .next t ∧ (∀ l, l ∈ t.empties ↔ l = line ∨ l ∈ s.empties) ∧
        t = { s' with empties := t.empties })) ∧
    let atSource := y.via = .phys ∨ inLotWindows a = true
    let holds := if y.pkg = s.pkg then s'.homeOf s.ctx.cdie.toNat s.ctx.sup .bit y.via y.addr = .ok h ∧ h.fe.isSome = true
      else y.via ≠ .phys ∨ isScratch (paLocal y.addr) = true
    (s'.ownHome y = none → ¬ atSource ∨ holds → prompt s y.sc →
      entersCurb s' [] .mark y.sc 0 none 0 [partOf s' y a (mark true)] (exec (.mkfull b x) s) ∧
      entersCurb s' [] .mark y.sc 0 none 0 [partOf s' y a (mark false)] (exec (.mkempty b x) s)) ∧
    (s'.ownHome y = none → ¬ atSource ∨ holds → s.issue.late = true → y.sc = false →
      lagsBehind s' [] .mark 0 none 0 [{ x := y, va := a, effects := mark true }] (exec (.mkfull b x) s) ∧
      lagsBehind s' [] .mark 0 none 0 [{ x := y, va := a, effects := mark false }] (exec (.mkempty b x) s)) ∧
    (y.pkg ≠ s.pkg → y.via = .phys → isScratch (paLocal y.addr) = false →
      exec (.mkfull b x) s = .next (s'.raise cPerm a) ∧ exec (.mkempty b x) s = .next (s'.raise cPerm a)) ∧
    (atSource → y.pkg = s.pkg → s'.homeOf s.ctx.cdie.toNat s.ctx.sup .bit y.via y.addr = .error c →
      exec (.mkfull b x) s = .next (s'.raise c a) ∧ exec (.mkempty b x) s = .next (s'.raise c a)) ∧
    (atSource → y.pkg = s.pkg → s'.homeOf s.ctx.cdie.toNat s.ctx.sup .bit y.via y.addr = .ok h → h.fe = none →
      exec (.mkfull b x) s = .next (s'.raise cPerm a) ∧ exec (.mkempty b x) s = .next (s'.raise cPerm a))

/-- R113, R138, R139: `swarm` of an aligned sync word of this package sets its target and clears its count; both `swarm` and
`swait` give its generation, `swait` once it has passed the operand, in wrapping order, and waits until then. One of poisoned words
raises POISON (R345), one of another package asks for the word there and takes the reply once it has come, a misaligned one raises
ALIGN. -/
def Obligations.SyncWords : Prop :=
  ∀ (s : State) (d : BitVec 5) (b : BitVec 3) (x : BitVec 5) (y : Xlat) (h : Home) (r : BitVec 2048),
    noStores s → plainAddress s b x → (s.rg d).taint = 0 →
    let a := byteAddress s b x
    let s' := s.touchAll s.me [a]
    let gen := BitVec.ofNat 32 (Memory.readLE s.mem (h.place + 8) 4)
    let used : State := { s' with issue := { s.issue with taken := s.issue.taken + 1 } }
    let ask (what : Nat) (n : Nat) : Packet :=
      .read y.pkg y.via s.ctx.cdie.toNat s.ctx.handle n what (s.rg d).val y.exp y.addr 16
    (a.toNat % 16 = 0 → s.translate s.me .store a 16 = .ok y → y.pkg = s.pkg →
      s'.homeOf s.ctx.cdie.toNat s.ctx.sup .store y.via y.addr = .ok h → hasMemory h.place = true →
      s'.migrationAt h.place = none → s'.poisoned h.place 12 = false →
      ∃ t, exec (.swarm d b x) s = .next t ∧
        let n := noted s' y h
        (∀ p, Memory.read t.mem p =
          if h.place ≤ p ∧ p < h.place + 4 then (s.rg d).val.extractLsb' (8 * (p - h.place)) 8
          else if h.place + 4 ≤ p ∧ p < h.place + 8 then 0 else Memory.read s.mem p) ∧
        (∀ n, t.ctx.rg n = if n = d ∧ d ≠ 0 then ⟨gen, 0⟩ else s.ctx.rg n) ∧
        t = { n with mem := t.mem, ctx := { n.ctx with g := t.ctx.g } }) ∧
    (a.toNat % 16 = 0 → s.translate s.me .store a 16 = .ok y → y.pkg = s.pkg →
      s'.homeOf s.ctx.cdie.toNat s.ctx.sup .store y.via y.addr = .ok h → hasMemory h.place = true →
      s'.migrationAt h.place = none → s'.poisoned h.place 12 = true → exec (.swarm d b x) s = .next (s'.raise cPoison a)) ∧
    (a.toNat % 16 = 0 → s.translate s.me .load a 16 = .ok y → y.pkg = s.pkg →
      s'.homeOf s.ctx.cdie.toNat s.ctx.sup .load y.via y.addr = .ok h → hasMemory h.place = true →
      (s'.poisoned (h.place + 8) 4 = false → 0 < (gen - (s.rg d).val).toInt →
        writesG (noted s' y h) d ⟨gen, 0⟩ (exec (.swait d b x) s)) ∧
      (s'.poisoned (h.place + 8) 4 = false → (gen - (s.rg d).val).toInt ≤ 0 →
        exec (.swait d b x) s = .next (s'.stall (.syncWord a (s.rg d).val))) ∧
      (s'.poisoned (h.place + 8) 4 = true → exec (.swait d b x) s = .next (s'.raise cPoison a))) ∧
    (a.toNat % 16 = 0 → s.translate s.me .store a 16 = .ok y → y.pkg ≠ s.pkg →
      (request s = none → asksFor s' true .reply (ask 3) (exec (.swarm d b x) s)) ∧
      ((request s).bind Ask.reply = some (.value r) → writesG used d ⟨r.extractLsb' 0 32, 0⟩ (exec (.swarm d b x) s))) ∧
    (a.toNat % 16 = 0 → s.translate s.me .load a 16 = .ok y → y.pkg ≠ s.pkg →
      (request s = none → s.ctx.held = none →
        asksFor s' false (.syncWord a (s.rg d).val) (ask 4) (exec (.swait d b x) s)) ∧
      ((request s).bind Ask.reply = some (.value r) → writesG used d ⟨r.extractLsb' 0 32, 0⟩ (exec (.swait d b x) s))) ∧
    (a.toNat % 16 ≠ 0 → exec (.swarm d b x) s = .next (s.raise cAlign a) ∧ exec (.swait d b x) s = .next (s.raise cAlign a))

/-- R140, R141, R292: `fbind` of an unbound port by a legal control word binds it to a walk of the descriptor that it
captures; a bound port, a mode of 0 or 3, a tag over 9, an AUX of 7 or, with a tag other than 8, of 1 to 7, a reserved bit, or an
illegal descriptor or one of another format or AUX raises PORT; a port that was unbound with an entry still to be
written is waited for. `funbind` of a fill port, or of a drain port whose entries are written, unbinds it, at once or with the
entry that its own group has pushed; `fdrain` of the latter goes on, and of a port that is not bound for drain raises PORT. A failed address of the walk is raised (R292). -/
def Obligations.FeedPorts : Prop :=
  ∀ (s : State) (p : BitVec 3) (x : BitVec 5) (e : BitVec 8 × W64), noStores s → (s.rg x).taint = 0 → s.src.ctaint = 0 →
    let w := (s.rg x).val.toNat
    let mode := w % 4
    let tag := w / 2 ^ 5 % 16
    let aux := w / 2 ^ 9 % 8
    let desc := feedDescriptor s (w / 4 % 8)
    let header := (desc[0]?.getD 0).toNat
    let f := s.src.port p.toNat
    let unwritten := f.walk.bind Walk.failed
    (f.bind = 0 → f.closing = false → mode = 1 ∨ mode = 2 → tag ≤ 9 → (if tag = 8 then aux ≤ 6 else aux = 0) → w / 2 ^ 12 = 0 → descOk desc = true →
      header / 2 ^ 8 % 16 = tag → header / 2 ^ 12 % 8 = aux →
      setsPort s p
        { bind := BitVec.ofNat 2 mode, tag := BitVec.ofNat 4 tag, aux := BitVec.ofNat 3 aux, swz := BitVec.ofNat 8 header
          entries := [], walk := some { desc := desc, i1 := 0, i2 := 0, i3 := 0, off := 0, bytes := 0, failed := none }
          closing := false }
        (exec (.fbind p x) s)) ∧
    (f.closing = false → f.bind ≠ 0 ∨ mode = 0 ∨ mode = 3 ∨ 10 ≤ tag ∨ tag = 8 ∧ aux = 7 ∨ tag ≠ 8 ∧ aux ≠ 0 ∨
        w / 2 ^ 12 ≠ 0 ∨ descOk desc = false ∨ header / 2 ^ 8 % 16 ≠ tag ∨ header / 2 ^ 12 % 8 ≠ aux →
      exec (.fbind p x) s = .next (s.raise cPort 0)) ∧
    (f.closing = true → unwritten = none → exec (.fbind p x) s = .next (s.stall (.drainPort p.toNat))) ∧
    (f.closing = true → unwritten = some e → exec (.fbind p x) s = .next (s.raise e.1 e.2)) ∧
    (f.bind = 1 → setsPort s p .zero (exec (.funbind p) s) ∧ exec (.fdrain p) s = .next (s.raise cPort 0)) ∧
    (f.bind = 2 → f.closing = false → unwritten = none → f.entries = [] →
      setsPort s p (if (s.ctx.port p.toNat).entries = [] then .zero else { s.ctx.port p.toNat with closing := true })
        (exec (.funbind p) s)) ∧
    (f.bind = 2 → f.closing = false → unwritten = some e →
      exec (.funbind p) s = .next (s.raise e.1 e.2) ∧ exec (.fdrain p) s = .next (s.raise e.1 e.2)) ∧
    (f.bind = 2 → f.closing = false → unwritten = none → f.entries = [] → exec (.fdrain p) s = .next s) ∧
    (f.bind = 2 → f.closing = false → unwritten = none → f.entries ≠ [] →
      exec (.fdrain p) s = .next (s.stall (.drainPort p.toNat)) ∧ exec (.funbind p) s = .next (s.stall (.drainPort p.toNat))) ∧
    (f.bind = 0 ∨ f.bind = 2 ∧ f.closing = true → exec (.fdrain p) s = .next (s.raise cPort 0) ∧ exec (.funbind p) s = .next (s.raise cPort 0))

/-- R127, R143, R144: a fence and `sfence` of a sequencer none of whose stores is on its way go on without effect; `sfence`
waits for a store of its stream from before its group, and the widest fence for every store from before it; each reports a dropped one as RMT_FAULT with the dropped
address. A fence raises a held error of the matrix engine first (R191). -/
def Obligations.Fences : Prop :=
  ∀ (s : State) (c st : BitVec 4) (l : Loss) (e : CurbEntry) (err : BitVec 8 × W64),
    s.src.ctaint = 0 → (∀ e ∈ s.earlierEntries, e.sc = false) →
    (noStores s → s.ctx.losses = [] → s.ctx.held = none → exec (.fence c) s = .next s ∧ exec (.sfence st) s = .next s) ∧
    ((∃ e ∈ s.earlierEntries, e.stream = st) → exec (.sfence st) s = .next (s.stall .fence)) ∧
    ((∀ e ∈ s.earlierEntries, e.stream ≠ st) → s.ctx.losses.find? (fun l => l.stream = st) = some l →
      exec (.sfence st) s = .next (s.raiseLoss l)) ∧
    (s.ctx.tags = Vector.replicate 16 none → s.ctx.held = none →
      (e ∈ s.earlierEntries → e.group = none → (∃ p ∈ e.parts, p.pending = true) →
        exec (.fence 4) s = .next (s.stall .fence)) ∧
      (e ∈ s.earlierEntries → e.group.isSome = true → exec (.fence 4) s = .next (s.stall .fence)) ∧
      (s.earlierEntries = [] → s.ctx.losses.head? = some l → l.dests ≠ [] →
        exec (.fence 4) s = .next (s.raiseLoss l))) ∧
    (s.ctx.held = some err → exec (.fence c) s = .next (s.raiseHeld err.1 err.2))

/-- R145: `tmask` reads a mask as a number, `tclr` clears it and leaves the value, `tbind` waits for its tags: with none of
them live it has no effect, with a live one it waits, and the lowest void one raises RMT_FAULT with its dropped address (R232). That
`tclr g0` keeps what an earlier word of its group has added to cr.ctaint is the model's choice (log entry 72). -/
def Obligations.TaintInstructions : Prop :=
  ∀ (s : State) (d r : BitVec 5) (h : BitVec 1) (f : BitVec 2) (e : W64),
    let n := r.toNat + 32 * h.toNat
    let r3 := BitVec.ofNat 3 r.toNat
    let m := namedMask s r h f
    let tag (i : Nat) : Option TagEntry := s.src.tags[i]?.getD none
    writesG s d ⟨(namedMask s r h f).zeroExtend 32, 0⟩ (exec (.tmask d r h f) s) ∧
    (noStores s → s.src.tags = s.ctx.tags → exec (.tbind r h f) s = .next s) ∧
    ((∀ i < 16, m.getLsbD i = true → tag i = none) → (∀ e ∈ s.earlierEntries, e.sc = false) →
      exec (.tbind r h f) s = .next s) ∧
    ((∃ i < 16, m.getLsbD i = true ∧ (tag i).isSome = true) → (∀ i < 16, m.getLsbD i = true → (tag i).bind TagEntry.void = none) →
      exec (.tbind r h f) s = .next (s.stall .taint)) ∧
    (∀ i < 16, m.getLsbD i = true → (tag i).bind TagEntry.void = some e →
      (∀ j < i, m.getLsbD j = true → (tag j).bind TagEntry.void = none) →
      exec (.tbind r h f) s = .next (s.raiseVoid i e)) ∧
    (r = 0 → exec (.tclr r h 0) s = .next { s with ctx := { s.ctx with ctaint := s.ctx.ctaint &&& ~~~s.src.ctaint } }) ∧
    (r ≠ 0 → writesG s r ⟨(s.src.rg r).val, 0⟩ (exec (.tclr r h 0) s)) ∧
    writesB s r3 ⟨(s.src.rb r3).val, 0⟩ (exec (.tclr r h 1) s) ∧
    (n < 56 → writesV s n { s.src.rv n with taint := 0 } (exec (.tclr r h 2) s)) ∧
    (56 ≤ n → exec (.tclr r h 2) s = .next s) ∧
    writesK s r3 ⟨(s.src.rk r3).val, 0⟩ (exec (.tclr r h 3) s)

/-- R43, R44, R46 to R48, R50, R132, R150 to R153, R155 to R157: the FP32 forms on active lanes, for operands with tag FP32. Sums,
products and fused forms are the exact value rounded once; `vexp2` and `vlog2` go through a value of fixed precision, the model's
choice (log entry 24). -/
def Obligations.FpLanes : Prop :=
  ∀ (s : State) (d a b : BitVec 6) (k : BitVec 3), (source s.src a).tag = 1 →
    let x (l : Nat) : W32 := lane (source s.src a).val l
    let y (l : Nat) : W32 := lane (source s.src b).val l
    let z (l : Nat) : W32 := lane (s.src.rv d.toNat).val l
    let nan (v : W32) : Prop := v.toNat % 2 ^ 31 > 0x7F800000
    let nv (v : W32) : BitVec 7 := if v.toNat % 2 ^ 31 > 0x7F800000 ∧ v.toNat / 2 ^ 22 % 2 = 0 then 1 else 0
    let mode := s.src.rmode.toNat
    (operands s [a, b] d k false 1 0 → (source s.src b).tag = 1 →
      lanesFp s [a, b] d k false true (fun l r => sum32 149 mode r (exact32 (x l)) (exact32 (y l))) (exec (.vadd d a b k) s) ∧
      lanesFp s [a, b] d k false true (fun l r => sum32 149 mode r (exact32 (x l)) (exact32 (y l)).negated) (exec (.vsub d a b k) s) ∧
      lanesFp s [a, b] d k false true (fun l r => product32 mode r (x l) (y l)) (exec (.vmul d a b k) s) ∧
      lanesFp s [a, b] d k false false (fun l _ => (min32 (x l) (y l), nv (x l) ||| nv (y l))) (exec (.vmin d a b k) s) ∧
      lanesFp s [a, b] d k false false (fun l _ => (max32 (x l) (y l), nv (x l) ||| nv (y l))) (exec (.vmax d a b k) s)) ∧
    (operands s [a, b] d k true 1 0 → (source s.src b).tag = 1 → (s.src.rv d.toNat).tag = 1 →
      lanesFp s [a, b] d k true true (fun l r => fused32 false mode r (x l) (y l) (z l)) (exec (.vfma d a b k) s) ∧
      lanesFp s [a, b] d k true true (fun l r => fused32 true mode r (x l) (y l) (z l)) (exec (.vfms d a b k) s)) ∧
    (operands s [a] d k false 1 0 →
      lanesFp s [a] d k false false (fun l _ => (if nan (x l) then 0x7FC00000 else x l ^^^ 0x80000000, nv (x l)))
        (exec (.vneg d a k) s) ∧
      lanesFp s [a] d k false false (fun l _ => (if nan (x l) then 0x7FC00000 else x l &&& 0x7FFFFFFF, nv (x l)))
        (exec (.vabs d a k) s) ∧
      lanesFp s [a] d k false false (fun l _ => fpRcp (x l)) (exec (.vrcp d a k) s) ∧
      lanesFp s [a] d k false false (fun l _ => fpRsq (x l)) (exec (.vrsq d a k) s) ∧
      lanesFp s [a] d k false false (fun l _ => fpExp2 (x l)) (exec (.vexp2 d a k) s) ∧
      lanesFp s [a] d k false false (fun l _ => fpLog2 (x l)) (exec (.vlog2 d a k) s))

/-- R160: the integer forms on elements of 32, 16 and 8 bits. -/
def Obligations.IntegerLanes : Prop :=
  ∀ (s : State) (d a b : BitVec 6) (k : BitVec 3),
    let add (w : Nat) (x y : BitVec w) : BitVec w := BitVec.ofInt w (x.toInt + y.toInt)
    let sub (w : Nat) (x y : BitVec w) : BitVec w := BitVec.ofInt w (x.toInt - y.toInt)
    let mul (w : Nat) (x y : BitVec w) : BitVec w := BitVec.ofInt w (x.toInt * y.toInt)
    let shl (w : Nat) (x y : BitVec w) : BitVec w := BitVec.ofNat w (x.toNat * 2 ^ (y.toNat % w))
    let shr (w : Nat) (x y : BitVec w) : BitVec w := BitVec.ofNat w (x.toNat / 2 ^ (y.toNat % w))
    let sra (w : Nat) (x y : BitVec w) : BitVec w := BitVec.ofInt w (x.toInt / 2 ^ (y.toNat % w))
    let r (tag : BitVec 4) (w : Nat) (f : BitVec w → BitVec w → BitVec w) (i : Instr) : Prop :=
      elementwise s d a b k tag w f (exec i s)
    r 5 32 (add 32) (.vaddI32 d a b k) ∧ r 5 32 (sub 32) (.vsubI32 d a b k) ∧ r 5 32 (mul 32) (.vmulI32 d a b k) ∧
    r 5 32 (shl 32) (.vshlI32 d a b k) ∧ r 5 32 (shr 32) (.vshrI32 d a b k) ∧ r 5 32 (sra 32) (.vsraI32 d a b k) ∧
    r 9 32 (add 32) (.vaddN32 d a b k) ∧ r 9 32 (sub 32) (.vsubN32 d a b k) ∧ r 9 32 (mul 32) (.vmulN32 d a b k) ∧
    r 9 32 (shl 32) (.vshlN32 d a b k) ∧ r 9 32 (shr 32) (.vshrN32 d a b k) ∧ r 9 32 (sra 32) (.vsraN32 d a b k) ∧
    r 6 16 (add 16) (.vaddI16 d a b k) ∧ r 6 16 (sub 16) (.vsubI16 d a b k) ∧ r 6 16 (mul 16) (.vmulI16 d a b k) ∧
    r 6 16 (shl 16) (.vshlI16 d a b k) ∧ r 6 16 (shr 16) (.vshrI16 d a b k) ∧ r 6 16 (sra 16) (.vsraI16 d a b k) ∧
    r 7 8 (add 8) (.vaddI8 d a b k) ∧ r 7 8 (sub 8) (.vsubI8 d a b k) ∧ r 7 8 (mul 8) (.vmulI8 d a b k) ∧
    r 7 8 (shl 8) (.vshlI8 d a b k) ∧ r 7 8 (shr 8) (.vshrI8 d a b k) ∧ r 7 8 (sra 8) (.vsraI8 d a b k)

/-- R159, R161, R167, R168, R170: the forms that move or combine bits. -/
def Obligations.LaneMoves : Prop :=
  ∀ (s : State) (d a b : BitVec 6) (k : BitVec 3) (g : BitVec 5) (tag : BitVec 4) (aux : BitVec 3),
    let x := source s.src a
    let y := source s.src b
    let old := s.src.rv d.toNat
    let p := s.rk k
    let same := x.tag = y.tag ∧ x.aux = y.aux
    let idx (l : Nat) : Nat := (lane y.val l).toNat % 64
    lanesMoved s [a, b] d k (fun l => lane x.val l &&& lane y.val l) (exec (.vand d a b k) s) ∧
    lanesMoved s [a, b] d k (fun l => lane x.val l ||| lane y.val l) (exec (.vor d a b k) s) ∧
    lanesMoved s [a, b] d k (fun l => lane x.val l ^^^ lane y.val l) (exec (.vxor d a b k) s) ∧
    lanesMoved s [a] d k (fun l => ~~~lane x.val l) (exec (.vnot d a k) s) ∧
    lanesMoved s [a] d k (fun l => lane x.val l) (exec (.vmov d a k) s) ∧
    (y.tag = 5 ∨ y.tag = 9 → lanesMoved s [a, b] d k (fun l => lane x.val (idx l)) (exec (.vperm d a b k) s)) ∧
    lanesMoved s [a] d k (fun l => lane x.val ((l + (64 - b.toNat)) % 64)) (exec (.vrotl d a b k) s) ∧
    lanesMoved s [a] d k (fun _ => lane x.val b.toNat) (exec (.vbcast d a b k) s) ∧
    (same → lanesMoved s [a, b] d k (fun l => if l % 2 = 0 then lane x.val (l / 2) else lane y.val (l / 2))
      (exec (.vzip d a b k) s)) ∧
    lanesMoved s [a] d k (fun l => if l < 32 then lane x.val (2 * l) else lane x.val (2 * (l - 32) + 1))
      (exec (.vunzip d a k) s) ∧
    (same → readable s.src a → readable s.src b → ¬ (x.tag = 8 ∧ x.aux = 7) →
      takes s.src d x.tag x.aux (x.taint ||| y.taint ||| p.taint) →
      ∃ val : Vec, delivers s [a, b] d { x with val := val, taint := x.taint ||| y.taint ||| p.taint } 0 s.ctx.seed
          (exec (.vsel d a b k) s) ∧
        ∀ l < 64, lane val l = if p.val.getLsbD l then lane x.val l else lane y.val l) ∧
    (readable s.src a → ¬ (x.tag = 8 ∧ x.aux = 7) →
      ∃ t, exec (.vext g a b) s = .next t ∧
        (∀ n, t.ctx.rg n = if n = g ∧ g ≠ 0 then ⟨lane x.val b.toNat, x.taint⟩ else s.ctx.rg n) ∧
        (∀ p < 8, t.ctx.port p = popped s [a] p) ∧
        t = { s with ctx := { s.ctx with g := t.ctx.g, ports := t.ctx.ports } }) ∧
    (d.toNat < 56 → ¬ (old.tag = 8 ∧ old.aux = 7) →
      ∃ val : Vec, delivers s [] d { old with val := val, taint := old.taint ||| (s.rg g).taint } 0 s.ctx.seed
          (exec (.vins d g b) s) ∧
        ∀ l < 64, lane val l = if l = b.toNat then (s.rg g).val else lane old.val l) ∧
    (readable s.src a → takes s.src d tag aux x.taint →
      delivers s [a] d { x with tag := tag, aux := aux } 0 s.ctx.seed (exec (.vtag d a tag aux) s))

/-- R150, R158: `vcmp` writes 1 for the active lanes whose condition holds and 0 for the others; FP32 conditions with a NaN
operand fail, but for `ne` and `uno`. -/
def Obligations.VectorCompare : Prop :=
  ∀ (s : State) (d : BitVec 3) (a b : BitVec 6) (k c : BitVec 3),
    let x := source s.src a
    let y := source s.src b
    let p := s.rk k
    let u (l : Nat) : Int := if x.tag = 5 then (lane x.val l).toInt else (lane x.val l).toNat
    let v (l : Nat) : Int := if x.tag = 5 then (lane y.val l).toInt else (lane y.val l).toNat
    let holds (l : Nat) : Bool :=
      if x.tag = 1 then (compare32 c.toNat (lane x.val l) (lane y.val l)).1
      else match c.toNat with
        | 0 => u l = v l | 1 => u l ≠ v l | 2 => u l < v l | 3 => u l ≤ v l | 4 => v l < u l | 5 => v l ≤ u l | _ => false
    readable s.src a → readable s.src b → x.tag = y.tag → x.aux = y.aux → x.tag = 1 ∨ x.tag = 5 ∨ x.tag = 9 →
    ∃ (val : W64) (fl : BitVec 7) (t : State), exec (.vcmp d a b k c) s = .next t ∧
      (∀ l < 64, val.getLsbD l = (p.val.getLsbD l && holds l)) ∧
      (∀ i < 7, fl.getLsbD i = (List.range 64).any (fun l => p.val.getLsbD l && decide (x.tag = 1) &&
        (compare32 c.toNat (lane x.val l) (lane y.val l)).2.getLsbD i)) ∧
      (∀ n < 8, t.ctx.k[n]? = if n = physK s.src.krot d.toNat ∧ d ≠ 0 then some ⟨val, x.taint ||| y.taint ||| p.taint⟩
        else s.ctx.k[n]?) ∧
      (∀ q < 8, t.ctx.port q = popped s [a, b] q) ∧
      t = { s with
        ctx := { s.ctx with k := t.ctx.k, ports := t.ctx.ports, fstat := s.ctx.fstat ||| fl.zeroExtend 32 }
        issue := { s.issue with raised := s.issue.raised ||| fl } }

/-- R43, R46 to R50 with Table 2.3, R153, R162, R163: `vcvt` converts E elements in order, each under the mode and policy its fields name, drawing once for
each under SR; the bits above the last are zero. An element that traps under policy 11 makes the whole instruction trap. That a
value which rounds to zero in an integer format sets NX alone is the model's choice (log entry 78). -/
def Obligations.Conversion : Prop :=
  ∀ (s : State) (d a : BitVec 6) (t : BitVec 4) (r : BitVec 3) (o : BitVec 2) (p : BitVec 1),
    let x := source s.src a
    let w := tagWidth x.tag.toNat
    let w' := tagWidth t.toNat
    let n := 2048 / max w w'
    let mode := if r = 7 then s.src.rmode.toNat else r.toNat
    let policy := if p = 1 then s.src.ovf.toNat else o.toNat
    let drawn (i : Nat) : W32 := if mode = 4 then seedSteps i s.ctx.seed else s.ctx.seed
    let e (i : Nat) : Delivered :=
      converted x.tag.toNat t.toNat (x.val.toNat / 2 ^ (w * i) % 2 ^ w) mode (seedDraw (drawn (i + 1))) policy
    readable s.src a → scalarTag x.tag → scalarTag t → takes s.src d t 0 x.taint →
    ((∀ i < n, (e i).trap = false) →
      ∃ fl : BitVec 7,
        delivers s [a] d { val := BitVec.ofNat 2048 (packNat w' (fun i => (e i).bits) n), tag := t, aux := 0, taint := x.taint } fl
          (drawn n) (exec (.vcvt d a t r o p) s) ∧
        ∀ i < 7, fl.getLsbD i = (List.range n).any (fun j => (e j).flags.getLsbD i)) ∧
    ((∃ i < n, (e i).trap = true) → a.toNat < 56 → exec (.vcvt d a t r o p) s = .next (s.raise cOvf 0))

/-- R51, R52, R54, R55, R57, R153, R164 to R166: `vq.bfp` quantises the valid elements of two blocks into mantissas under the smallest
scale that reaches the largest magnitude, `vdq.bfp` gives every element its exact value in FP32, `vhad` multiplies each block by the
Hadamard matrix with one rounding. A scale operand of tag 8 with auxiliary 7 raises FMT_TAG (R151). -/
def Obligations.BlockForms : Prop :=
  ∀ (s : State) (d a c : BitVec 6) (mm : BitVec 3),
    let x := source s.src a
    let y := s.src.rv c.toNat
    let m := mm.toNat + 2
    let q0 := quantBlock m x.val y.val 0 s.src.rmode.toNat s.src.ovf.toNat s.ctx.seed
    let q1 := quantBlock m x.val y.val 1 s.src.rmode.toNat s.src.ovf.toNat q0.seed
    let both := x.taint ||| y.taint
    let had (l : Nat) : W32 × BitVec 7 := hadamard32 (fun j => lane x.val (32 * (l / 32) + j)) (l % 32)
    let valid (b : Nat) : Nat := 32 - min ((lane y.val b).toNat % 64) 32
    let n := x.aux.toNat + 2
    let mant (l : Nat) : Int := (BitVec.ofNat n (x.val.toNat / 2 ^ (n * l))).toInt
    let field (l lo w : Nat) : Nat := (lane y.val (l / 32)).toNat / 2 ^ lo % 2 ^ w
    let beyond (l : Nat) : Bool := field l 15 5 < l % 32
    let value (l : Nat) : W32 :=
      if beyond l then 0
      else if field l 20 12 ≠ 0 then 0x7FC00000
      else if field l 4 8 = 0 then 0
      else if field l 4 8 = 255 then 0x7FC00000
      else if mant l = 0 then 0
      else (round32 149 0 0 (mant l < 0) ((mant l).natAbs * (16 + field l 0 4) * 2 ^ (field l 4 8 + 19 - n))).1
    let mm2 (i : Nat) : Nat := (lane y.val i).toNat / 2 ^ 12 % 8
    quantisedAs m (valid 0) s.src.rmode.toNat s.src.ovf.toNat (fun j => lane x.val j) s.ctx.seed q0 ∧
    quantisedAs m (valid 1) s.src.rmode.toNat s.src.ovf.toNat (fun j => lane x.val (32 + j)) q0.seed q1 ∧
    (readable s.src a → d.toNat < 56 → c.toNat < 56 → x.tag = 1 → ¬ (y.tag = 8 ∧ y.aux = 7) → q0.trap = false → q1.trap = false →
      ∃ t, exec (.vqBfp d a c mm) s = .next t ∧
        (∀ n < 56, t.ctx.v[n]? =
          if n = physV s.src.vrot c.toNat then
            some { val := q0.scale.zeroExtend 2048 ||| (q1.scale.zeroExtend 2048 <<< 32), tag := 0, aux := 0, taint := both }
          else if n = physV s.src.vrot d.toNat then
            some { val := BitVec.ofNat 2048 (packNat m (fun i => (q0.mants ++ q1.mants)[i]?.getD 0) 64), tag := 8, aux := mm
                   taint := both }
          else s.ctx.v[n]?) ∧
        (∀ p < 8, t.ctx.port p = popped s [a] p) ∧
        t = { s with
          ctx := { s.ctx with v := t.ctx.v, ports := t.ctx.ports, seed := q1.seed
                              fstat := s.ctx.fstat ||| (q0.flags ||| q1.flags).zeroExtend 32 }
          issue := { s.issue with raised := s.issue.raised ||| (q0.flags ||| q1.flags) } }) ∧
    (readable s.src a → c.toNat < 56 → x.tag = 8 → x.aux ≠ 7 → mm2 0 = x.aux.toNat → mm2 1 = x.aux.toNat →
      ¬ (y.tag = 8 ∧ y.aux = 7) →
      takes s.src d 1 0 both →
      ∃ val : Vec,
        delivers s [a] d { val := val, tag := 1, aux := 0, taint := both }
          (if (List.range 64).any (fun l => !beyond l && field l 20 12 ≠ 0) then 1 else 0) s.ctx.seed (exec (.vdqBfp d a c) s) ∧
        ∀ l < 64, lane val l = value l) ∧
    (readable s.src a → a.toNat < 56 → c.toNat < 56 → y.tag = 8 → y.aux = 7 →
      (d.toNat < 56 → exec (.vqBfp d a c mm) s = .next (s.raise cFmtTag 0)) ∧
      exec (.vdqBfp d a c) s = .next (s.raise cFmtTag 0)) ∧
    (readable s.src a → x.tag = 1 → takes s.src d 1 0 x.taint →
      ∃ (val : Vec) (fl : BitVec 7),
        delivers s [a] d { val := val, tag := 1, aux := 0, taint := x.taint } fl s.ctx.seed (exec (.vhad d a) s) ∧
        (∀ l < 64, lane val l = (had l).1) ∧
        ∀ i < 7, fl.getLsbD i = (List.range 64).any (fun l => (had l).2.getLsbD i))

/-- R63, R169: the reductions write lane 0 with the pairwise tree over the elements of the active lanes, zeros above, with
the result tag of Table 6.6. On 32-bit integers they are the wrapping sum, the maximum and the minimum of the active
lanes. -/
def Obligations.Reductions : Prop :=
  ∀ (s : State) (d a : BitVec 6) (k : BitVec 3),
    let x := source s.src a
    let p := s.rk k
    let tag : BitVec 4 := if x.tag = 9 then 9 else if 5 ≤ x.tag.toNat then 5 else 1
    let on (l : Nat) : Bool := p.val.getLsbD l
    let r (op : Nat) : W32 × BitVec 7 := reduced op x.tag.toNat x.val on
    let gives (op : Nat) (i : Instr) : Prop :=
      delivers s [a] d { val := (r op).1.zeroExtend 2048, tag := tag, aux := 0, taint := x.taint ||| p.taint } (r op).2 s.ctx.seed
        (exec i s)
    (readable s.src a → scalarTag x.tag → takes s.src d tag 0 (x.taint ||| p.taint) →
      gives 0 (.vredsum d a k) ∧ gives 1 (.vredmax d a k) ∧ gives 2 (.vredmin d a k)) ∧
    (x.tag = 5 →
      (r 0).1 = BitVec.ofInt 32 (laneSum x.val on) ∧
      (∀ l < 64, on l = true → (lane x.val l).toInt ≤ (r 1).1.toInt ∧ (r 2).1.toInt ≤ (lane x.val l).toInt) ∧
      ((∃ l < 64, on l = true) → (∃ l < 64, on l = true ∧ lane x.val l = (r 1).1) ∧ ∃ l < 64, on l = true ∧ lane x.val l = (r 2).1))

/-- R28, R29, R174, R175, R216: `mte` writes a staging register, discarding reserved bits; a write of an assigned register above
them is a supervisor's, and only the fabric weights take it; every other write is counted in cr.roerr, a write of class cl 6 to
63 among them (that these indices are unassigned is the model's choice, log entry 35). `mfe` reads; with a = b the high word is what
remains (the model's choice, log entry 25). -/
def Obligations.EngineRegisters : Prop :=
  ∀ (s : State) (e : BitVec 3) (i : BitVec 7) (a b : BitVec 5), untainted s a b →
    let c := classOf e
    let v := pairOf s a b
    let n := i.toNat
    let assigned := (c = 0 ∨ c = 3) ∧ (n = 64 ∨ n = 65) ∨ c = 1 ∧ n = 64
    (n < 64 → ¬ (c = 3 ∧ 6 ≤ n) → ∃ t, exec (.mte e i a b) s = .next t ∧
      (∀ c' j, j < 64 → t.ctx.stagingOf c' j = if c' = c ∧ j = n then v &&& stagingMask c n else s.ctx.stagingOf c' j) ∧
      t = { s with ctx := { s.ctx with staging := t.ctx.staging } }) ∧
    (64 ≤ n ∨ c = 3 ∧ 6 ≤ n → ¬ assigned → ignoredWrite s (exec (.mte e i a b) s)) ∧
    (assigned → s.src.sup = false → exec (.mte e i a b) s = .next (s.raise cPriv 0)) ∧
    (assigned → s.src.sup = true → ¬ (c = 3 ∧ n = 64) → ignoredWrite s (exec (.mte e i a b) s)) ∧
    (c = 3 → n = 64 → s.src.sup = true → exec (.mte e i a b) s =
      .next { s with wcoll := BitVec.ofNat 8 v.toNat, wprog := BitVec.ofNat 8 (v.toNat / 256) }) ∧
    writesGG s a b (BitVec.ofNat 32 (engineRegister s c n).toNat) (BitVec.ofNat 32 ((engineRegister s c n).toNat / 2 ^ 32))
      (exec (.mfe e i a b) s)

/-- R181 to R184: a copy command of a channel outside the job's grant raises ENGINE. Inside it, `xchain` appends a 64-byte
aligned record that is translated to a channel with fewer than three pending, or, where it is idle, makes it the current one, `xstat` reads its status and return count, and `xkill` asks for a
kill of a channel that is not idle. A frozen channel raises ENGINE. `xstat` with a = b keeps the second word (the model's choice, log
entry 25). -/
def Obligations.CopyCommands : Prop :=
  ∀ (s : State) (c : BitVec 7) (a b : BitVec 5) (y : Xlat) (e : BitVec 8 × W64), untainted s a b →
    let d := s.ctx.cdie.toNat
    let ch := s.chan d c.toNat
    let granted := (cardWord s (11 + c.toNat / 64)).getLsbD (c.toNat % 64) = true
    let h := pairOf s a b
    let bit (x : Bool) (n : Nat) : Nat := if x then 2 ^ n else 0
    let valid := granted ∧ h.toNat % 64 = 0 ∧ s.translate s.me .store h 64 = .ok y
    (¬ granted → exec (.xchain c a b) s = .next (s.raise cEngine 0) ∧ exec (.xstat c a b) s = .next (s.raise cEngine 0) ∧
      exec (.xkill c) s = .next (s.raise cEngine 0)) ∧
    (valid → ch.state ≠ 4 → ch.pend.length < 3 →
      changesChannel (s.touch s.me h) d c.toNat (fun x =>
        if x.state = 0 then { x with cur := some h, killed := false, state := 1 }
        else { x with pend := x.pend ++ [h], killed := false }) (exec (.xchain c a b) s)) ∧
    (valid → ch.state ≠ 4 → 3 ≤ ch.pend.length →
      exec (.xchain c a b) s = .next ((s.touch s.me h).stall .engineRoom)) ∧
    (valid → ch.state = 4 →
      exec (.xchain c a b) s = .next ((s.touch s.me h).raise cEngine 0)) ∧
    (granted → h.toNat % 64 ≠ 0 → exec (.xchain c a b) s = .next (s.raise cAlign h)) ∧
    (granted → h.toNat % 64 = 0 → s.translate s.me .store h 64 = .error e → exec (.xchain c a b) s = .next (s.raise e.1 e.2)) ∧
    (granted → writesGG s a b
      (BitVec.ofNat 32 (ch.state.toNat + bit ch.killed 3 + bit ch.killing 4 + ch.pend.length * 2 ^ 5 + ch.last.toNat * 2 ^ 8 +
        (if ch.state = 3 then ch.fkind.toNat else 0) * 2 ^ 13)) ch.retcnt (exec (.xstat c a b) s)) ∧
    (granted → ch.state ≠ 0 → ch.state ≠ 4 → changesChannel s d c.toNat (fun x => { x with killing := true }) (exec (.xkill c) s)) ∧
    (granted → ch.state = 0 → exec (.xkill c) s = .next s) ∧
    (granted → ch.state = 4 → exec (.xkill c) s = .next (s.raise cEngine 0))

/-- R185 to R187: `xrmw` of an aligned word, its return word absent or an aligned word of a scratchpad of the die, enters the
Curb under the stream in xc.strm as one read-modify-write; where its queue lags, its command waits translated (R73). -/
def Obligations.ReadModifyWrite : Prop :=
  ∀ (s : State) (o : BitVec 4) (a b : BitVec 5) (y z : Xlat) (h : Home) (e : BitVec 8 × W64), noStores s → untainted s a b →
    let addr := s.src.stagingOf 0 0
    let ret := s.src.stagingOf 0 1
    let st : BitVec 4 := BitVec.ofNat 4 (s.src.stagingOf 0 2).toNat
    let s' := s.touchAll s.me (if ret = 0 then [addr] else [addr, ret])
    let valid := addr.toNat % 4 = 0 ∧ s.translate s.me .store addr 4 = .ok y
    let fine := ret.toNat % 4 = 0 ∧ s.translate s.me .store ret = .ok z ∧ z.pkg = s.pkg ∧
      s.homeOf s.ctx.cdie.toNat s.ctx.sup .store z.via z.addr = .ok h ∧ isScratch h.place = true ∧
      dieOf h.place = s.ctx.cdie.toNat
    (valid → ret = 0 ∨ fine → s.issue.late = true → y.sc = false →
      lagsBehind s' [] .rmw st none 0 [{ x := y, va := addr, effects := [.rmw y.addr o (s.rg a).val (s.rg b).val ret] }]
        (exec (.xrmw o a b) s)) ∧
    (valid → ret = 0 ∨ fine → prompt s y.sc →
      entersCurb s' [] .rmw y.sc st none 0 [partOf s' y addr [.rmw y.addr o (s.rg a).val (s.rg b).val ret]]
        (exec (.xrmw o a b) s)) ∧
    (addr.toNat % 4 ≠ 0 → exec (.xrmw o a b) s = .next (s.raise cAlign addr)) ∧
    (addr.toNat % 4 = 0 → ret.toNat % 4 ≠ 0 → exec (.xrmw o a b) s = .next (s.raise cAlign ret)) ∧
    (addr.toNat % 4 = 0 → ret.toNat % 4 = 0 → s.translate s.me .store addr 4 = .error e →
      exec (.xrmw o a b) s = .next (s.raise e.1 e.2)) ∧
    (valid → ret ≠ 0 → ret.toNat % 4 = 0 → s.translate s.me .store ret = .error e → exec (.xrmw o a b) s = .next (s.raise e.1 e.2)) ∧
    (valid → ret ≠ 0 → ret.toNat % 4 = 0 → s.translate s.me .store ret = .ok z → z.pkg ≠ s.pkg →
      exec (.xrmw o a b) s = .next (s.raise cPerm ret)) ∧
    (valid → ret ≠ 0 → ret.toNat % 4 = 0 → s.translate s.me .store ret = .ok z → z.pkg = s.pkg →
      s.homeOf s.ctx.cdie.toNat s.ctx.sup .store z.via z.addr = .ok h → ¬ (isScratch h.place = true ∧ dieOf h.place = s.ctx.cdie.toNat) →
      exec (.xrmw o a b) s = .next (s.raise cPerm ret))

/-- R207, R208, R329: `launch` of a card in this package's memory, translated by the Piazza, takes a free entry of the pending-launch store, gives the ticket
and clears the predicate; with no free entry it counts the refusal, gives the count and sets the predicate. `lstat` reads
the entry of a ticket whose serial it still holds. Which free entry it takes is the device's choice (log entry 6). -/
def Obligations.LaunchAndTicket : Prop :=
  ∀ (s : State) (c : BitVec 5) (f : BitVec 3) (a b : BitVec 5) (y : Xlat) (h : Home) (err : BitVec 8 × W64), untainted s a b →
    let va := pairOf s a b
    let piazza : Who := { s.me with die := 4 }
    let s' := s.touch piazza va
    let after := (s'.touchVia y.via y.addr).countRemote h.place s.pkg 4
    let valid := va.toNat % 256 = 0 ∧ s.translate piazza .load va 256 = .ok y
    let serial := s.serial + 1
    let free (n : Nat) : Prop := (s.launchEntry n).occupied = false
    let tick := (s.rg b).val
    let e := s.launchEntry (tick.toNat % 256)
    (valid → y.pkg = s.pkg → s'.homeOf 4 s.ctx.sup .load y.via y.addr = .ok h → hasMemory h.place = true →
      (∀ i < 256, s.poisoned (h.place + i) 1 = false) → (∃ n < 256, free n) →
      ∃ n t, exec (.launch c f a b) s = .next t ∧ n < 256 ∧ free n ∧
        t.launchEntry n = { card := cardAt s h.place, serial := serial, order := s.orderNext, asid := s.asidOf s.ctx.job
                            parent := s.ctx.job, state := 0, fin := 0, job := 0, occupied := true, taken := none } ∧
        (∀ k, k ≠ n → t.launchEntry k = s.launchEntry k) ∧
        (∀ r, t.ctx.rg r = if r = c ∧ c ≠ 0 then ⟨BitVec.ofNat 32 (serial.toNat * 256 + n), 0⟩ else s.ctx.rg r) ∧
        (∀ p < 8, t.ctx.k[p]? = if p = physK s.src.krot f.toNat ∧ f ≠ 0 then some ⟨0, 0⟩ else s.ctx.k[p]?) ∧
        t = { after with launches := t.launches, serial := serial, orderNext := s.orderNext + 1, freeCtr := after.freeCtr + 1
                         ctx := { s.ctx with g := t.ctx.g, k := t.ctx.k, launchRefused := 0 } }) ∧
    (valid → (∀ n < 256, (s.launchEntry n).occupied = true) →
      ∃ t, exec (.launch c f a b) s = .next t ∧
        (∀ r, t.ctx.rg r = if r = c ∧ c ≠ 0 then ⟨s.ctx.launchRefused + 1, 0⟩ else s.ctx.rg r) ∧
        (∀ p < 8, t.ctx.k[p]? = if p = physK s.src.krot f.toNat ∧ f ≠ 0 then some ⟨BitVec.allOnes 64, 0⟩ else s.ctx.k[p]?) ∧
        t = { s' with ctx := { s.ctx with g := t.ctx.g, k := t.ctx.k, launchRefused := s.ctx.launchRefused + 1 } }) ∧
    (va.toNat % 256 ≠ 0 → exec (.launch c f a b) s = .next (s.raise cAlign va)) ∧
    (va.toNat % 256 = 0 → s.translate piazza .load va 256 = .error err → exec (.launch c f a b) s = .next (s.raise err.1 err.2)) ∧
    (valid → y.pkg = s.pkg → s'.homeOf 4 s.ctx.sup .load y.via y.addr = .ok h → (∃ n < 256, free n) →
      ∀ i < 256, s.poisoned (h.place + i) 1 = true → (∀ j < i, s.poisoned (h.place + j) 1 = false) →
      exec (.launch c f a b) s = .next (s'.raise cPoison (va + BitVec.ofNat 64 i))) ∧
    (valid → y.pkg = s.pkg → (∃ n < 256, free n) → ∀ code, s'.homeOf 4 s.ctx.sup .load y.via y.addr = .error code →
      exec (.launch c f a b) s = .next (s'.raise code va)) ∧
    writesG s a ⟨if e.serial.toNat = tick.toNat / 256 ∧ e.state ≠ 5 then
        BitVec.ofNat 32 (e.state.toNat + (if e.state = 2 then e.fin.toNat * 8 else 0) +
          (if e.state = 1 ∨ e.state = 2 then e.job.toNat * 2 ^ 16 else 0))
      else 5, 0⟩ (exec (.lstat a b) s)

/-- R188 to R195: the matrix commands of a user context that pass their checks enter the queue of the core while it holds
fewer than eight; `mcall` captures the parameters and draws the call's generator from cr.seed, and registers the footprint
entry that it names once that is free (R241), `mpset` writes a parameter
and `mstat` reads the descriptor of a tile and the count of calls. `mrload` of a routine of another owner raises PRIV. Every matrix
instruction of a supervisor raises MATRIX. That the checks look at the directory and at the kinds as the queued commands will leave
them, that registrations keep the order of the queue, and that `mstat` with a = b keeps the second word are the model's choices
(log entries 36, 63, 25). -/
def Obligations.MatrixCommands : Prop :=
  ∀ (s : State) (r : BitVec 8) (n t : BitVec 3) (a b : BitVec 5) (k : BitVec 1) (p : Nat) (y : Xlat), untainted s a b →
    let core := s.coreOf s.ctx.coreNo
    let room := core.mq.length < 8
    let mp7 := s.src.mp[7]
    let args : CallArgs :=
      { routine := r.toNat, mp := s.src.mp, fd := Vector.ofFn (fun i => s.src.stagingOf 2 i.val), rmode := s.src.rmode
        ovf := s.src.ovf
        gen := if s.ctx.seed ^^^ 0x9E3779B9 = 0 then 1 else s.ctx.seed ^^^ 0x9E3779B9 }
    let named := s.src.tiles[t.toNat]? = some p
    let anchor := (s.rg a).val
    let inRange := -512 ≤ anchor.toInt ∧ anchor.toInt ≤ 511
    let first := (s.rg a).val.toNat
    let count := (s.rg b).val.toNat
    let addr := s.src.stagingOf 1 0
    let stride := s.src.stagingOf 1 1
    let sync := s.src.stagingOf 1 2
    let rows : List W64 := (List.range count).flatMap (fun i =>
      (List.range 6).map (fun j => addr + BitVec.ofNat 64 (i * stride.toNat + 128 * j)))
    let legal := 1 ≤ count ∧ first + count ≤ 128 ∧ stride.toNat % 128 = 0 ∧ 768 ≤ stride.toNat ∧ addr.toNat % 128 = 0 ∧
      (sync = 0 ∨ sync.toNat % 16 = 0 ∧ s.translate s.me .store sync = .ok y) ∧ s.kindAfter s.ctx t.toNat ≠ 0
    let e := core.planned.entry r.toNat
    let known := Core.kindsKnown s.ctx.handle core.mq [] = true
    let words := (s.rg a).val.toNat
    let offset := (s.rg b).val.toNat
    let source := s.src.stagingOf 1 3
    (s.src.sup = false → room →
      (s.issue.flow = .ok → core.planned.callable r.toNat s.src.job = true → controlOk mp7 s.src.tiles.length = true →
        (∀ m ∈ core.mq, registersLater m = false) →
        let entry := mp7.toNat / 2 ^ 18 % 256
        let isFree := ∀ f ∈ (s.dieAt (s.ctx.coreNo / 48)).live, f.entry ≠ entry
        let drawn (q : Seqr) : Seqr := { q with seed := seedStep q.seed }
        (mp7.getLsbD 17 = false ∨ ¬ isFree → queuesMatrix s (.call args) drawn (exec (.mcall r) s)) ∧
        (mp7.getLsbD 17 = true → isFree → registersCall s args entry drawn (exec (.mcall r) s))) ∧
      (named → queuesMatrix s (.zero p true 0) id (exec (.mzero 1 t a) s)) ∧
      (named → inRange → queuesMatrix s (.zero p false (BitVec.ofNat 10 anchor.toNat)) id (exec (.mzero 0 t a) s)) ∧
      (named → known → inRange → s.kindAfter s.ctx t.toNat = 1 →
        queuesMatrix s (.anch p (BitVec.ofNat 10 anchor.toNat)) id (exec (.manch t a) s)) ∧
      (named → known → legal → (∀ va ∈ rows, (s.rowHome s.ctx .load va).isOk = true) →
        queuesMatrix s (.load p first count addr stride) id (exec (.zld t a b) s)) ∧
      (named → known → legal → (∀ va ∈ rows, (s.rowHome s.ctx .store va).isOk = true) →
        queuesMatrix s (.store p first count addr stride sync) id (exec (.zst t a b) s)) ∧
      (e.owner.toNat ≠ s.ctx.job.toNat + 1 → e.valid = true ∨ e.owner ≠ 0 → exec (.mrload r a b) s = .next (s.raise cPriv 0)) ∧
      (e.valid = false ∧ e.owner = 0 ∨ e.owner.toNat = s.ctx.job.toNat + 1 → offset + words ≤ 16384 →
        core.planned.overlaps r.toNat offset words = false → source.toNat % 8 = 0 →
        (∀ i < 8 * words, (s.translate s.me .load (source + BitVec.ofNat 64 i)).isOk = true) →
        queuesMatrix s (.rload r.toNat words offset source) id (exec (.mrload r a b) s))) ∧
    (s.src.sup = false →
      (∃ u, exec (.mpset n a b) s = .next u ∧
        (∀ i < 8, u.ctx.mp[i]? = if i = n.toNat then some (pairOf s a b) else s.ctx.mp[i]?) ∧
        u = { s with ctx := { s.ctx with mp := u.ctx.mp } }) ∧
      (named → (∀ m ∈ core.mq, m.handle ≠ s.ctx.handle) →
        let z := s.tileAt s.ctx.coreNo p
        let bit (x : Bool) (n : Nat) : Nat := if x then 2 ^ n else 0
        writesGG s a b (BitVec.ofNat 32 (z.kind.toNat + z.anchor.toNat * 4 + bit z.o 12 + bit z.x 13 + bit z.nan 14 + bit z.busy 15))
          s.ctx.calls (exec (.mstat t a b) s))) ∧
    (s.src.sup = true → ∀ i ∈ [Instr.mcall r, .mzero k t a, .manch t a, .zld t a b, .zst t a b, .mrload r a b, .mpset n a b,
      .mstat t a b], exec i s = .next (s.raise cMatrix 0))

/-- R209 to R212: the collective commands of a channel in the job's grant. `cset` takes a legal configuration and makes the
channel a receive end, which grants its depth in credits, or a send end; `csend`, `creduce` and `cbcast` queue a message on a
send end with room; `crecv` releases the oldest landed slot and returns its credit. What `cset` makes of HEAD, TAIL, the message
counts, DISC and the error kind is the model's choice (log entry 41). -/
def Obligations.CollectiveCommands : Prop :=
  ∀ (s : State) (a : BitVec 5), untainted s a a →
    let n := (s.rg a).val.toNat
    let grant := (cardWord s 13).toNat
    let granted := grant % 2 ^ 12 ≤ n ∧ n < grant % 2 ^ 12 + grant / 2 ^ 12 % 2 ^ 12
    let c := s.coll n
    let peer := s.src.stagingOf 3 0
    let shape := s.src.stagingOf 3 1
    let hdr := s.src.stagingOf 3 5
    let cfg := { c with peer := peer, shape := shape, buf := s.src.stagingOf 3 2, sync := s.src.stagingOf 3 3, errk := 0, head := 0
                        tail := 0, disc := 0, job := s.ctx.job }
    let sender := { cfg with state := 1, mseq := 0, setting := c.setting + 1, heard := none }
    let receiver := { cfg with state := 2, cred := BitVec.ofNat 12 (shape.toNat / 2 ^ 8), mseq := if c.state = 2 then c.mseq else 0
                               heard := if c.state = 2 then c.heard else none }
    let given (x : Coll) (k : Nat) : Coll := { x with credits := tset s.pkg.toNat (tget 0 x.credits s.pkg.toNat + k) x.credits }
    let grants (x : Coll) (ch k : Nat) (o : Out) : Prop := ∃ t, o = .next t ∧
      (∀ m, t.coll m = (let z := if m = n then x else s.coll m; if m = ch then given z k else z)) ∧ t = { s with colls := t.colls }
    let msg (bc rd : Bool) : Coll := { c with queued := c.queued ++
      [{ bcast := bc, reduce := rd, nv := hdr.getLsbD 13, nctr := BitVec.ofNat 13 hdr.toNat }] }
    let free := c.queued.length < c.shape.toNat / 2 ^ 8 % 2 ^ 12 ∧ s.liftWaits n = false
    let credit (k : Nat) (u : State) : Prop :=
      (c.peerPkg ≠ s.pkg → u.egress = s.egress ++ [.credit c.peerPkg (BitVec.ofNat 12 c.peerCh) (BitVec.ofNat 12 k)])
    (¬ granted → ∀ i ∈ [Instr.cset a, .csend a, .creduce a, .cbcast a, .crecv a], exec i s = .next (s.raise cEngine 0)) ∧
    (granted → collOk peer shape (s.src.stagingOf 3 2) c (s.liftWaits n) = true →
      (shape.getLsbD 49 = false → changesColl s n sender (exec (.cset a) s)) ∧
      (shape.getLsbD 49 = true → BitVec.ofNat 15 peer.toNat ≠ s.pkg →
        ∃ t, exec (.cset a) s = .next t ∧ t.coll n = receiver ∧
          (∀ m, m ≠ n → t.coll m = s.coll m) ∧
          t.egress = s.egress ++ [.credit (BitVec.ofNat 15 peer.toNat) (BitVec.ofNat 12 (peer.toNat / 2 ^ 15))
            (BitVec.ofNat 12 (shape.toNat / 2 ^ 8))] ∧
          t = { s with colls := t.colls, egress := t.egress }) ∧
      (shape.getLsbD 49 = true → BitVec.ofNat 15 peer.toNat = s.pkg →
        grants receiver (peer.toNat / 2 ^ 15 % 2 ^ 12) (shape.toNat / 2 ^ 8 % 2 ^ 12) (exec (.cset a) s))) ∧
    (granted → collOk peer shape (s.src.stagingOf 3 2) c (s.liftWaits n) = false → exec (.cset a) s = .next (s.raise cEngine 0)) ∧
    (granted → c.state = 1 → c.mc = false → free → changesColl s n (msg false false) (exec (.csend a) s)) ∧
    (granted → c.state = 1 → c.mc = false → free → c.fmt ≠ 3 → c.fmt ≠ 4 → changesColl s n (msg false true) (exec (.creduce a) s)) ∧
    (granted → c.state = 1 → c.mc = true → free → changesColl s n (msg true false) (exec (.cbcast a) s)) ∧
    (granted → c.state ≠ 1 → ∀ i ∈ [Instr.csend a, .creduce a, .cbcast a], exec i s = .next (s.raise cEngine 0)) ∧
    (granted → c.state = 2 → c.cred.toNat < c.depth → c.peerPkg ≠ s.pkg →
      ∃ t, exec (.crecv a) s = .next t ∧
        t.coll n = { c with tail := BitVec.ofNat 12 ((c.tail.toNat + 1) % c.depth), cred := c.cred + 1 } ∧
        (∀ m, m ≠ n → t.coll m = s.coll m) ∧ credit 1 t ∧ t = { s with colls := t.colls, egress := t.egress }) ∧
    (granted → c.state = 2 → c.cred.toNat < c.depth → c.peerPkg = s.pkg →
      grants { c with tail := BitVec.ofNat 12 ((c.tail.toNat + 1) % c.depth), cred := c.cred + 1 } c.peerCh 1 (exec (.crecv a) s)) ∧
    (granted → c.state ≠ 2 ∨ c.depth ≤ c.cred.toNat → exec (.crecv a) s = .next (s.raise cEngine 0))

/-- R210, R213 to R215: `liftarm` arms an entry of the grant on a legal command, and the entries whose threshold is reached fire;
`liftdisarm` disarms it and gives its state; `ctrig` adds to a counter, after which those entries fire, or sets it and cancels the
entries armed on it. `fireAll` fires ripe entries one by one until none is left; the clauses about one ripe entry say what firing
does, and those where none is ripe that only the named entry changes. Commands of the entry that have fired and still wait stay
owed. -/
def Obligations.LiftCommands : Prop :=
  ∀ (s : State) (a b : BitVec 5), untainted s a b →
    let grant := (cardWord s 13).toNat
    let granted (n : Nat) : Prop := grant / 2 ^ 24 % 2 ^ 13 ≤ n ∧ n < grant / 2 ^ 24 % 2 ^ 13 + grant / 2 ^ 37 % 2 ^ 13
    let channel (n : Nat) : Prop := grant % 2 ^ 12 ≤ n ∧ n < grant % 2 ^ 12 + grant / 2 ^ 12 % 2 ^ 12
    let e := (s.rg a).val.toNat
    let w := s.src.stagingOf 3 4
    let op := w.toNat % 8
    let ch := w.toNat / 2 ^ 3 % 2 ^ 12
    let watch := w.toNat / 2 ^ 15 % 2 ^ 13
    let target := w.toNat / 2 ^ 42 % 2 ^ 13
    let t := (s.rg b).val
    let armed : Lift := { s.lift e with state := 1, pend := false, err := false, job := s.ctx.job, thresh := t, cmd := w
                                        owed := (s.lift e).waiting }
    let sArmed := s.modLift e (fun _ => armed)
    let sFired := s.modLift e (fun _ => { armed with state := 2 })
    let now := (sArmed.lift watch).count
    let isRipe := t = now ∨ 2 ^ 31 < (t - now).toNat
    let idle (u : State) : Prop := ∀ l ∈ u.lifts, l.2.state = 1 →
      l.2.thresh ≠ (u.lift (l.2.cmd.toNat / 2 ^ 15 % 2 ^ 13)).count ∧
        (l.2.thresh - (u.lift (l.2.cmd.toNat / 2 ^ 15 % 2 ^ 13)).count).toNat ≤ 2 ^ 31
    let c := (s.rg a).val.toNat % 2 ^ 13
    let clean := (s.rg a).val.toNat / 2 ^ 13 % 2 ^ 18 = 0
    let only (n : Nat) (x : Lift) (o : Out) : Prop :=
      ∃ u, o = .next u ∧ u.lift n = x ∧ (∀ m, m ≠ n → u.lift m = s.lift m) ∧ u = { s with lifts := u.lifts }
    let legal := granted e ∧ (s.lift e).state ≠ 1 ∧ w.toNat / 2 ^ 55 = 0 ∧ granted watch ∧
      ((op = 1 ∨ op = 3 ∨ op = 4) ∧ target = 0 ∧ channel ch ∨ op = 7 ∧ ch = 0 ∧ granted target) ∧
      (t - (s.lift watch).count).toNat ≠ 2 ^ 31
    let x := s.coll ch
    let carries := x.state = 1 ∧ x.mc = decide (op = 4) ∧ ¬ (op = 3 ∧ (x.fmt = 3 ∨ x.fmt = 4))
    let room := x.queued.length < x.depth ∧ sFired.liftWaits ch = false
    (legal → exec (.liftarm a b) s = .next (sArmed.fireAll sArmed.lifts.length)) ∧
    (legal → idle sArmed → only e armed (exec (.liftarm a b) s)) ∧
    (legal → idle sFired → isRipe → op ≠ 7 → carries → room →
      ∃ u, exec (.liftarm a b) s = .next u ∧ u.lift e = { armed with state := 2 } ∧ (∀ m, m ≠ e → u.lift m = s.lift m) ∧
        u.coll ch = { x with queued := x.queued ++ [{ bcast := op = 4, reduce := op = 3, nv := w.getLsbD 28
                                                      nctr := BitVec.ofNat 13 (w.toNat / 2 ^ 29) }] } ∧
        (∀ m, m ≠ ch → u.coll m = s.coll m) ∧ u = { s with lifts := u.lifts, colls := u.colls }) ∧
    (legal → idle sFired → isRipe → op ≠ 7 → carries → ¬ room →
      ∃ u, exec (.liftarm a b) s = .next u ∧ u.lift e = { armed with state := 2, pend := true, order := s.orderNext } ∧
        (∀ m, m ≠ e → u.lift m = s.lift m) ∧ u = { s with lifts := u.lifts, orderNext := s.orderNext + 1 }) ∧
    (legal → idle sFired → isRipe → op ≠ 7 → ¬ carries → only e { armed with state := 2, err := true } (exec (.liftarm a b) s)) ∧
    (legal → idle sFired → isRipe → op = 7 → idle (sFired.modLift target (fun l => { l with count := l.count + 1 })) →
      ∃ u, exec (.liftarm a b) s = .next u ∧
        (∀ m, u.lift m = (let l := if m = e then { armed with state := 2 } else s.lift m
                          if m = target then { l with count := l.count + 1 } else l)) ∧ u = { s with lifts := u.lifts }) ∧
    (granted e → (s.lift e).state = 1 → exec (.liftarm a b) s = .next (s.raise cEngine 0)) ∧
    (granted e → ∃ u, exec (.liftdisarm a b) s = .next u ∧
      (∀ r, u.ctx.rg r = if r = b ∧ b ≠ 0 then ⟨BitVec.ofNat 32 (s.lift e).state.toNat, 0⟩ else s.ctx.rg r) ∧
      u.lift e = { s.lift e with state := if (s.lift e).state = 1 then 0 else (s.lift e).state } ∧
      (∀ m, m ≠ e → u.lift m = s.lift m) ∧ u = { s with lifts := u.lifts, ctx := { s.ctx with g := u.ctx.g } }) ∧
    (clean → granted c → (s.rg a).val.msb = false →
      let sAdded := s.modLift c (fun l => { l with count := l.count + t })
      exec (.ctrig a b) s = .next (sAdded.fireAll sAdded.lifts.length)) ∧
    (clean → granted c → (s.rg a).val.msb = false → idle (s.modLift c (fun l => { l with count := l.count + t })) →
      only c { s.lift c with count := (s.lift c).count + t } (exec (.ctrig a b) s)) ∧
    (clean → granted c → (s.rg a).val.msb = true →
      ∃ u, exec (.ctrig a b) s = .next u ∧
        (∀ m, u.lift m = (let l := if m = c then { s.lift c with count := t } else s.lift m
                          if l.state = 1 ∧ l.cmd.toNat / 2 ^ 15 % 2 ^ 13 = c then { l with state := 3 } else l)) ∧
        u = { s with lifts := u.lifts }) ∧
    (¬ granted e → exec (.liftarm a b) s = .next (s.raise cEngine 0) ∧ exec (.liftdisarm a b) s = .next (s.raise cEngine 0)) ∧
    (¬ clean ∨ ¬ granted c → exec (.ctrig a b) s = .next (s.raise cEngine 0))

/-- R199, R201, R202, R261: `crnew` creates a crew in the lowest free slot of the crew area from NCREW upward with a free phaser of
its home, and gives its handle, or all ones where there is no slot or no phaser; which free phaser it is, is the device's choice (the
model's free pick, log entry 6). `crjoin` adds a member, `crleave` removes one, `crfree` dissolves a crew on which nobody is
registered and raises PHASER where somebody is. A handle of no live crew, or of another job's, raises PHASER. `regang` says anew which
gangs of the job are too large (R260). -/
def Obligations.CrewCommands : Prop :=
  ∀ (s : State) (a b : BitVec 5) (c : Crew) (j : Job), untainted s a b →
    let i := (s.rg b).val.toNat
    let f := (s.rg b).val
    let home := if f.toNat / 2 % 2 = 1 then 4 else s.ctx.cdie.toNat
    let m := c.member i
    let left : Member := if m.mst = .none then { m with joined := false } else { m with joined := false, mst := .dropping, waiting := false }
    let slotTaken (n : Nat) : Prop := ∃ x ∈ s.crews, x.handle.toNat / 2 ^ 16 = j.num.toNat ∧ x.area = j.ncrew + n
    (s.jobOf s.ctx.job = some j → f.toNat < 4 → (∃ n < j.maxcrew, ¬ slotTaken n) → (∃ n < 1024, s.phaserFree home n = true) →
      ∃ n ph c' u, n < j.maxcrew ∧ ¬ slotTaken n ∧ (∀ m < n, slotTaken m) ∧ ph < 1024 ∧ s.phaserFree home ph = true ∧
        c' = { handle := BitVec.ofNat 32 (j.num.toNat * 2 ^ 16 + home * 2 ^ 13 + ph), area := j.ncrew + n, home := home, phaser := ph
               gang := f.getLsbD 0, gangx := false, p := 0, pst := 1, gpark := false, woken := false, parker := 0
               members := [] : Crew } ∧
        writesG { s with crews := s.crews ++ [c'], freeCtr := s.freeCtr + 1 } a ⟨c'.handle, 0⟩ (.next u) ∧
        exec (.crnew a b) s = .next (u.writeCrew c' true)) ∧
    (s.jobOf s.ctx.job = some j → f.toNat < 4 → (∀ n < j.maxcrew, slotTaken n) →
      writesG s a ⟨0xFFFFFFFF, 0⟩ (exec (.crnew a b) s)) ∧
    (s.jobOf s.ctx.job = some j → f.toNat < 4 → (∀ n < 1024, s.phaserFree home n = false) →
      writesG s a ⟨0xFFFFFFFF, 0⟩ (exec (.crnew a b) s)) ∧
    (4 ≤ f.toNat → exec (.crnew a b) s = .next (s.raise cPhaser 0)) ∧
    (namesCrew s a c → s.jobOf s.ctx.job = some j → i < j.nseq →
      ((c.member i).joined = false → exec (.crjoin a b) s =
        .next ((s.putCrew (withMember c i { c.member i with joined := true })).joinSeq s.ctx.job i c.handle)) ∧
      ((c.member i).joined = true → exec (.crjoin a b) s = .next s) ∧
      ((c.member i).joined = false → exec (.crleave a b) s = .next s) ∧
      ((c.member i).joined = true → ∃ u, advances s (withMember c i left) (.next u) ∧
        exec (.crleave a b) s = .next ((u.mapSeqs (fun q =>
          if q.job = s.ctx.job ∧ q.index.toNat = i then { q with joined := q.joined.filter (fun h => h ≠ c.handle) }
          else q)).regang s.ctx.job))) ∧
    (namesCrew s a c → s.jobOf s.ctx.job = some j → j.nseq ≤ i →
      exec (.crjoin a b) s = .next (s.raise cPhaser 0) ∧ exec (.crleave a b) s = .next (s.raise cPhaser 0)) ∧
    (namesCrew s a c → (∀ e ∈ c.members, e.2.mst = .none) → exec (.crfree a) s =
      .next ((({ s with crews := s.crews.filter (fun x => x.handle ≠ c.handle) }.mapSeqs (fun q =>
        { q with joined := q.joined.filter (fun h => h ≠ c.handle) })).writeCrew { c with pst := 0 } false).regang
          (BitVec.ofNat 16 (c.handle.toNat / 2 ^ 16)))) ∧
    (namesCrew s a c → (∃ e ∈ c.members, e.2.mst ≠ .none) → exec (.crfree a) s = .next (s.raise cPhaser 0)) ∧
    ((s.rg a).val.toNat / 2 ^ 16 ≠ s.ctx.job.toNat → ∀ x ∈ [Instr.crjoin a b, .crleave a b, .crfree a, .phdrop a, .phsig a],
      exec x s = .next (s.raise cPhaser 0)) ∧
    (s.crewOf (s.rg a).val = none → ∀ x ∈ [Instr.crjoin a b, .crleave a b, .crfree a, .phdrop a, .phsig a],
      exec x s = .next (s.raise cPhaser 0))

/-- R203 to R205: `phreg` registers a member, at once or, while a signaller is active or dropping, pending on the phase that runs; `phsig` signals a phase, at most two
ahead; `phwait` observes the phase its parity names once it has completed, and waits until then; `phdrop` drops. A caller
without the role raises PHASER. After each the phases that are due complete. -/
def Obligations.PhaserCommands : Prop :=
  ∀ (s : State) (a : BitVec 5) (r : BitVec 2) (p : BitVec 1) (c : Crew), namesCrew s a c →
    let i := s.ctx.index.toNat
    let m := c.member i
    let active := ∃ e ∈ c.members, (e.2.mst = .active ∨ e.2.mst = .dropping) ∧ e.2.role ≠ 1
    let go (n : Member) : Out → Prop := advances s (withMember c i n)
    (m.joined = true → m.mst = .none →
      (active → go { m with sp := c.p + 1, wp := c.p + 1, role := r, mst := .pending } (exec (.phreg r a) s)) ∧
      (¬ active → go { m with sp := c.p, wp := c.p, role := r, mst := .active } (exec (.phreg r a) s))) ∧
    (m.joined = false ∨ m.mst ≠ .none → exec (.phreg r a) s = .next (s.raise cPhaser 0)) ∧
    (isRegistered m → go { m with mst := .dropping, waiting := false } (exec (.phdrop a) s)) ∧
    (isRegistered m → m.role ≠ 1 → noStores s → s.ctx.losses = [] → (m.sp - c.p).toInt < 2 →
      (∀ j, s.jobOf s.ctx.job = some j → j.isSchedule c = false) → go { m with sp := m.sp + 1 } (exec (.phsig a) s)) ∧
    (isRegistered m → m.role ≠ 1 → noStores s → s.ctx.losses = [] → 2 ≤ (m.sp - c.p).toInt →
      exec (.phsig a) s = .next (s.stall (.phaserBound c.handle))) ∧
    (isRegistered m → m.role ≠ 0 → m.wp.getLsbD 0 = (p = 1) →
      (0 < (c.p - m.wp).toInt → go { m with wp := m.wp + 1, waiting := false } (exec (.phwait p a) s)) ∧
      ((c.p - m.wp).toInt ≤ 0 → exec (.phwait p a) s = .next (s.stall (.phaserPhase c.handle)))) ∧
    (¬ isRegistered m → exec (.phdrop a) s = .next (s.raise cPhaser 0) ∧ exec (.phsig a) s = .next (s.raise cPhaser 0) ∧
      exec (.phwait p a) s = .next (s.raise cPhaser 0)) ∧
    (m.role = 1 → exec (.phsig a) s = .next (s.raise cPhaser 0)) ∧
    (m.role = 0 → exec (.phwait p a) s = .next (s.raise cPhaser 0))

/-- R19: logical numbers from 24 (vectors) and from 4 (predicates) are rotated by the bases from before the group, lower ones
and port codes are not. Shown by moves: `vmov` under k0 copies the register, or the oldest entry of a bound fill port, and
`kmov` the predicate. -/
def Obligations.RotatedNumbers : Prop :=
  ∀ (s : State) (d a : BitVec 6) (e c : BitVec 3), d.toNat < 56 →
    let x := s.src.v[physicalV s.src.vrot a.toNat]?.getD .zero
    let f := s.src.port (a.toNat - 56)
    (a.toNat < 56 → ¬ (x.tag = 8 ∧ x.aux = 7) → ∃ t, exec (.vmov d a 0) s = .next t ∧
      (∀ n < 56, t.ctx.v[n]? = if n = physicalV s.src.vrot d.toNat then some x else s.ctx.v[n]?) ∧
      t = { s with ctx := { s.ctx with v := t.ctx.v } }) ∧
    (56 ≤ a.toNat → f.bind = 1 → f.entries ≠ [] → ¬ (f.tag = 8 ∧ f.aux = 7) → ∃ t, exec (.vmov d a 0) s = .next t ∧
      (∀ n < 56, t.ctx.v[n]? = if n = physicalV s.src.vrot d.toNat then
        some { val := f.entries.headD 0, tag := f.tag, aux := f.aux, taint := 0 } else s.ctx.v[n]?) ∧
      (∀ p < 8, t.ctx.port p = popped s [a] p) ∧ t = { s with ctx := { s.ctx with v := t.ctx.v, ports := t.ctx.ports } }) ∧
    (∃ t, exec (.kmov e c) s = .next t ∧
      (∀ n < 8, t.ctx.k[n]? = if n = physicalK s.src.krot e.toNat ∧ e ≠ 0 then
        some (if c = 0 then ⟨BitVec.allOnes 64, 0⟩ else s.src.k[physicalK s.src.krot c.toNat]?.getD ⟨0, 0⟩) else s.ctx.k[n]?) ∧
      t = { s with ctx := { s.ctx with k := t.ctx.k } })

/-- Reset memory is in canonical form, and the registers named here hold the reset values of the spec: package time 0 and no
forward step (R304, Table 13.2), fabric weights 1 (R216, Table 8.6), every circuit on 32 wavelengths (R302, R303, Table 13.1), the
thresholds of a port (R307, R310, Table 13.4), the leases (R333, Table 14.3), empty trap queues (R339, Table 14.5), thermal status
(R386, Table 18.5), power control (R389, Table 18.7), the free words of each routine store (R282), an idle core and closed
collective channels (Tables 10.6, 12.3). The Reset columns are R8's. That no crew and no job is there
and every Curb is empty is the model's reading of them: nothing has been submitted. -/
def Obligations.ResetState : Prop :=
  let s := State.reset
  s.Inv ∧ s.ptime = 0 ∧ s.steps = 0 ∧ s.synced = false ∧ s.wcoll = 1 ∧ s.wprog = 1 ∧ s.power.cap = 2800 ∧ s.power.target = 0 ∧
    (∀ p < 68, (s.port p).frozen = false ∧ (s.port p).cethr = 16 ∧ (s.port p).rtthr = 256) ∧
    (∀ d < 5, (s.tu d).lease = 50000) ∧ (∀ d < 4, (s.dieAt d).queue.lost = 0 ∧ (s.dieAt d).curb = []) ∧
    (∀ i < 5, ∀ j < 5, (s.circuit i j).wl = 32 ∧ (s.circuit i j).active = 32 ∧ (s.circuit i j).pend = false) ∧
    (∀ d < 6, (s.therm d).events = 0 ∧ (s.therm d).level = 0 ∧ (s.therm d).warn = 1600) ∧
    (∀ n < 192, (s.coreOf n).freeWords = 16354 ∧ (s.coreOf n).mq = [] ∧ (s.coreOf n).run = none) ∧
    (∀ c < 4096, (s.coll c).state = 0) ∧ s.crews = [] ∧ s.jobs = []

/-- Every step keeps memory in canonical form: the listed addresses rise strictly, and no listed byte is what an unlisted
address reads as (the model's form of memory, log entry 3). -/
def Obligations.StepKeepsMemoryForm : Prop := ∀ s t : State, s.Inv → step s = .next t → t.Inv

/-- No meaning stops the machine: every instruction, micro-op and event answers a next state in every state. A step of a
package that has power and whose clocks run answers a next state; one without power (R1) faults, and so does one after a trip (R387)
until its power is removed. -/
def Obligations.AlwaysProceeds : Prop :=
  (∀ (i : Instr) (s : State), ∃ t, exec i s = .next t) ∧
    (∀ s : State, running s → ∃ t, step s = .next t) ∧
    (∀ s : State, s.powered = false → step s = .fault .powerLost) ∧
    (∀ s : State, s.powered = true → s.clockStopped = true → s.losesPower = false → step s = .fault .clockStopped) ∧
    (∀ (s : State) (rest : List Action), s.powered = true → s.agenda = .event .powerLoss :: rest → ∃ t, step s = .next t)

/-- When the word at the PC stops its group and decodes to an instruction, the step is `exec` of that instruction, on the
state from before the group, then the end of the group, of the links' sending, of the wake registrations and of the passing of
time. This holds where no access of an earlier group waits in a queue that lags; in every case a group runs its members in turn, behind
what it may not overtake (R71 to R73). A sync group waits while a store of the sequencer homed on its own core
is in the Curb (R67). An event on the agenda runs by `exec`, and so does the next micro-op of a core's routine, or a LOADB that
may go ahead of its turn (R273). -/
def Obligations.StepRunsDecoded : Prop :=
  (∀ (s t : State) (w : W32) (gw : GroupWord), issues s → (∀ l ∈ s.late, l.handle ≠ s.ctx.handle) → s.fetchWord s.ctx.pc = .ok w →
    w.msb = true → decode w.toNat = .ok gw → (isSyncGroup [gw] = true → s.ownCurb = false) →
    exec gw.instr (memberState s w gw) = .next t →
    step s = ended s.egress.length (.next (groupEnds s (memberState s w gw) t gw.instr))) ∧
  (∀ (s : State) (ws : List W32) (gs : List GroupWord), issues s → s.fetchGroup 7 s.ctx.pc = .ok ws →
    checkGroup s.ctx ws = .ok gs →
    (isSyncGroup gs = true → s.ownCurb = true →
      step s = ended s.egress.length (.next ({ s with issue := .idle }.recordWait .storeRoom))) ∧
    ((isSyncGroup gs = true → s.ownCurb = false) → step s = ended s.egress.length (State.runGroup
      { fetched s ws.length with
        issue := { issued s ws.length (bankCycles s.ctx ws (gs.map GroupWord.instr)) (isSyncGroup gs) with
          queue := memberQueue ws (gs.map GroupWord.instr) } }))) ∧
  (∀ (s t : State) (i : Instr) (rest : List Action), running s → s.agenda = .event i :: rest →
    exec i { s with agenda := rest } = .next t → step s = ended s.egress.length t.settle) ∧
  (∀ (s t : State) (i : Instr) (n : Nat) (rest : List Action), running s → s.agenda = .engine n :: rest →
    let u := { s with agenda := rest, curCore := n }
    (u.aheadUop n = none → s.nextUop n = some i → exec i u = .next t → step s = ended s.egress.length t.settle) ∧
    (∀ (p : Nat) (flag : Bool) (ls : List UopLoop) (r : Routine), (s.coreOf n).routine = some r →
      u.aheadUop n = some (p, flag, ls) → (s.coreOf n).uopAt r p = some i →
      exec i (u.modRoutine n (fun r => { r with pos := p, loops := ls, t := flag })) = .next t →
      step s = ended s.egress.length (u.ranAhead t n p).settle))

/-- R64, R76 to R81: the word of a well-formed instruction decodes to it, with its S and Y bits, and the word that an
instruction was decoded from is its encoding. What has no word (a micro-op, an event) encodes to 0. -/
def Obligations.EncodeDecode : Prop :=
  (∀ gw : GroupWord, gw.instr.wf = true → encodeInstr gw.instr ≠ 0 → encode gw < 2 ^ 32 ∧ decode (encode gw) = .ok gw) ∧
  (∀ (w : Nat) (gw : GroupWord), w < 2 ^ 32 → decode w = .ok gw → gw.instr.wf = true ∧ encode gw = w) ∧
  (∀ i : Instr, i.wf = true → encodeUop i ≠ 0 → encodeUop i < 2 ^ 64 ∧ decodeUop (encodeUop i) = some i) ∧
  (∀ (w : Nat) (i : Instr), w < 2 ^ 64 → decodeUop w = some i → i.wf = true ∧ encodeUop i = w)

/-- Words that the spec's tables and examples spell decode to the instructions they stand for. -/
def Obligations.DecodeWords : Prop :=
  decodeTableWord 32 0x8111D0E8 = some (.cmpLtn 2 7 8) ∧ decodeTableWord 32 0x97088510 = some (.mfc 4 5 16) ∧
    decodeTableWord 32 0xD7000005 = some (.trap 5) ∧ decodeTableWord 32 0xBD000C85 = some (.xchain 3 4 5) ∧
    decodeTableWord 32 0xBD800080 = some (.cset 4) ∧ decodeTableWord 32 0x97140900 = some (.freeze 9) ∧
    decodeTableWord 32 0x8F000000 = some .nop ∧ decodeTableWord 64 0xA002800000000000 = some (.uopLoop 2 1 0) ∧
    decodeTableWord 64 0x7801FC0000000000 = some (.had 8 0 127) ∧ decodeTableWord 32 0x00000000 = none ∧
    decodeTableWord 64 0 = none

/-- R3, R4: memory keeps the last byte written to an address and no other byte changes; a write keeps the canonical form; two
memories in that form that read alike are equal; a store of n bytes reads back as its value. -/
def Obligations.MemoryLaws : Prop :=
  (∀ (m : List Host.Cell) (a : Nat) (v : Byte), Memory.wf m = true → Memory.wf (Memory.write a v m) = true) ∧
  (∀ (m : List Host.Cell) (a b : Nat) (v : Byte), Memory.wf m = true →
    Memory.read (Memory.write a v m) b = if b = a then v else Memory.read m b) ∧
  (∀ m m' : List Host.Cell, Memory.wf m = true → Memory.wf m' = true → (∀ a, Memory.read m a = Memory.read m' a) → m = m') ∧
  (∀ (s : State) (a v n : Nat), s.Inv → (s.writeLE a v n).Inv ∧ (s.writeLE a v n).readLE a n = v % 256 ^ n)

/-- R192, R269, R271 to R278: what each micro-op does where its operands are ready: `zero` and `anchor` on a tile that the
call may write, `trans` on T, `loop` on the position, `waitf` once no traffic of the core is on its way, `acc` and `had` on
tiles of a kind, `loadb` on the shadow buffer, `streama` with all its rows or those before an empty line, `drain` one row at a
time: the row, converted, leaves for its walk. Then the routine is at its next word. A tile that the call may not write stops it with MATRIX. -/
def Obligations.MicroOps : Prop :=
  ∀ (s : State) (r : Routine) (m : MatCmd) (q : Seqr) (ts ts2 fmt : BitVec 4) (kind am cm b s5 pd : BitVec 1) (anc : BitVec 10)
    (row nr : BitVec 7) (mm desc rm : BitVec 3) (swz : BitVec 8) (po : BitVec 2) (len : BitVec 12) (count : W32) (p p2 : Nat)
    (w w1 : Walk) (w' w1' : Option Walk) (es : List Entry)
    (st : Stationary) (u : State),
    runsRoutine s r m q → p < 8 → p2 < 8 →
    let anchor : BitVec 10 := if am = 1 then BitVec.ofNat 10 (r.args.mp[anc.toNat % 8]?.getD 0).toNat else anc
    let z := s.tileAt s.curCore p
    let z2 := s.tileAt s.curCore p2
    let n := nr.toNat + 1
    let mOf : BitVec 3 := if mm = 7 then BitVec.ofNat 3 (r.args.mp[5]).toNat else mm
    let passes := if cm = 1 then (r.args.mp[count.toNat % 8]?.getD 0).toNat % 2 ^ 32 else count.toNat
    let nv := if es.any (fun e => e.scales.any (fun x => scReserved x ≠ 0)) then (1 : BitVec 7) else 0
    let acc := accCells (p = p2) z2 (cellsOf row.toNat n) z false
    let had := (List.range n).foldl (fun (a : Tile × Bool) k =>
      let (t, v) := a.1.rotateRow (row.toNat + k)
      (t, a.2 || v)) (z, false)
    (selected r q ts = some p → mayWrite r ts → landed r p →
      uopEnds s r (some (p, { kind := if kind = 1 then 2 else 1, anchor := if kind = 1 then 0 else anchor, o := false, x := false
                              nan := false, busy := z.busy, cells := [], poisoned := [] })) (exec (.zero ts kind am anc) s)) ∧
    (selected r q ts = some p → mayWrite r ts → landed r p → z.kind = 1 → z.poisoned = [] →
      uopEnds s r (some (p, z.reanchor anchor)) (exec (.anchor ts am anc) s)) ∧
    uopEnds s { r with t := decide (b = 1) } none (exec (.trans b) s) ∧
    (passes = 0 → routineBecomes s (atWord s r (r.pos + 1 + len.toNat) r.loops) none (exec (.uopLoop len cm count) s)) ∧
    (passes ≠ 0 → routineBecomes s
      (atWord s r (r.pos + 1) ({ first := r.pos + 1, last := r.pos + len.toNat, left := passes } :: r.loops)) none
      (exec (.uopLoop len cm count) s)) ∧
    (s.coreTraffic s.curCore = false → uopEnds s r none (exec .waitf s)) ∧
    (s.coreTraffic s.curCore = true → exec .waitf s = .next s) ∧
    (selected r q ts = some p → mayWrite r ts → selected r q ts2 = some p2 → mayRead r ts2 → z.kind ≠ 0 → z.kind = z2.kind →
      landed r p → landed r p2 → z.poisonIn row.toNat n = false → z2.poisonIn row.toNat n = false →
      uopEnds s { r with flags := r.flags ||| if acc.2 then 1 else 0 } (some (p, acc.1)) (exec (.acc ts ts2 row nr) s)) ∧
    (selected r q ts = some p → mayWrite r ts → z.kind ≠ 0 → landed r p → z.poisonIn row.toNat n = false →
      uopEnds s { r with flags := r.flags ||| (if had.2 then 1 else 0), active := none, shadow := none } (some (p, had.1))
        (exec (.had ts row nr) s)) ∧
    (mOf ≠ 7 → (fmt = 8 → r.t = false) → walksMatch r desc swz fmt mOf w w' →
      s.takeMany q fmt mOf 128 w w' = (es, w1, w1', none) →
      uopEnds (s.noteWalks q r desc fmt mOf 128) { r with
        shadow := some (stationaryOf fmt mOf r.t es), flags := r.flags ||| nv, walks := walksAfter r desc w1 w1' } none (exec (.loadb fmt mm swz desc) s)) ∧
    (selected r q ts = some p → mayWrite r ts → (if r.begun = true then r.active else r.shadow.or r.active) = some st →
      (fmt = st.fmt ∨ fmt.toNat ∈ [3, 4] ∧ st.fmt.toNat ∈ [3, 4]) → z.kind ≠ 0 → mOf ≠ 7 → walksMatch r desc swz fmt mOf w w' →
      let after (es : List Entry) (w1 : Walk) (w1' : Option Walk) : Routine := { r with
        active := some st, shadow := if r.begun = true then r.shadow else none, walks := walksAfter r desc w1 w1'
        flags := r.flags ||| nv
        pending := r.pending ++ (es.zipIdx).map (fun e =>
          { tile := p, row := row.toNat + r.rows + e.2, s5 := decide (s5 = 1), b := st
            a := { fmt := fmt, mm := mOf, elems := [e.1.elems], scales := [e.1.scales] } }) }
      (s.takeMany q fmt mOf (n - r.rows) w w' = (es, w1, w1', none) →
        uopEnds (s.noteWalks q r desc fmt mOf es.length) (after es w1 w1') none (exec (.streama fmt mm swz desc ts row nr s5) s)) ∧
      (s.takeMany q fmt mOf (n - r.rows) w w' = (es, w1, w1', some none) →
        routineBecomes (s.noteWalks q r desc fmt mOf es.length)
          { after es w1 w1' with begun := true, rows := r.rows + es.length } none
          (exec (.streama fmt mm swz desc ts row nr s5) s))) ∧
    (selected r q ts = some p → mayRead r ts → z.kind ≠ 0 → landed r p → mOf ≠ 7 → walksMatch r desc swz fmt mOf w w' →
      let x := z.drainRow (row.toNat + r.rows) fmt (mOf.toNat + 2) (if rm = 7 then r.args.rmode.toNat else rm.toNat)
        (if pd = 1 then r.args.ovf.toNat else po.toNat) r.gen
      z.poisonIn (row.toNat + r.rows) 1 = false →
      (x.trap = true →
        routineBecomes s { r with stopped := some cOvf } none (exec (.drain ts fmt mm rm po pd desc row nr swz) s)) ∧
      (x.trap = false → rowLeaves s q m.gaddr desc w w' x = some u →
        let r' := { r with
          gen := x.gen, flags := r.flags ||| x.flags, rows := r.rows + 1, rowFrom := s.landNext
          walks := walksAfter r desc (w.advance x.bytes.length) (w'.map (fun v => v.advance x.scales.length)) }
        (r.rows + 1 < n → routineBecomes u r' none (exec (.drain ts fmt mm rm po pd desc row nr swz) s)) ∧
        (n ≤ r.rows + 1 → uopEnds u r' none (exec (.drain ts fmt mm rm po pd desc row nr swz) s)))) ∧
    (selected r q ts = some p → ¬ mayWrite r ts → routineBecomes s { r with stopped := some cMatrix } none
      (exec (.zero ts kind am anc) s))

/-- R303 to R307, R309, R310, R314: the events of a port with nothing waiting to be sent, and of the base die. A
flit that fails its check (R305) is counted and answered by a NAK; one in order is accepted and acknowledged, one that lies behind is
acknowledged again, one of totals or time gives its ACK; a NAK and a timeout replay; totals are sent and taken; a window's
counts are kept; the thresholds post a record and retrain; training ends, partners come and go; a load without a route gets
RMT_FAULT; package time follows a timing flit of the lowest package; a wavelength change is taken within 128 of each die and
completes. That an accepted flit's place in the receive buffer is free at once, and that training counts its failures in a row, are
the model's choices (log entry 47). -/
def Obligations.LinkEvents : Prop :=
  ∀ (s : State) (n : Nat) (f : Flit) (seq : BitVec 12) (totals : List (W32 × W32)) (high synced : Bool) (pkg : BitVec 15)
    (peer : BitVec 6) (h : BitVec 24) (q : Seqr) (tag : Nat) (time : W64) (slew : BitVec 16) (i j : Nat) (v : Byte),
    let p := s.port n
    let up := p.state = 2
    let resent (e : BitVec 12) (a : BitVec 12) : List Packet := (fromSeq (unacked p.retry a) e).map (Packet.flit n)
    let freedUp (k : Nat) : Vector W32 8 := p.freed.setIfInBounds k (p.freed[k]?.getD 0 + 1)
    let base := if high then 4 else 0
    let c := s.circuit i j
    let lim : BitVec 16 := if slew.toInt < -20000 then BitVec.ofInt 16 (-20000) else if 20000 < slew.toInt then 20000 else slew
    let circuitBecomes (x : Circuit) (o : Out) : Prop := ∃ t, o = .next t ∧ t.circuit i j = x ∧
      (∀ a b, 5 * a + b ≠ 5 * i + j → t.circuit a b = s.circuit a b) ∧ t = { s with circuits := t.circuits }
    (up → p.outq = [] →
      (flitOk f = false → p.nakSent = false →
        portBecomes s n { p with crcerr := p.crcerr + 1, nakSent := true } [.flit n (controlFlit 2 p.expect)] (exec (.flitReceive n f) s)) ∧
      (flitOk f = true → f.kind = 1 → f.seq = p.expect →
        (∃ t, exec (.flitReceive n f) s = .next t ∧ (t.port n).expect = p.expect + 1 ∧ (t.port n).rxflits = p.rxflits + 1 ∧
          (t.port n).freed = freedUp f.vc.toNat) ∧
        (64 ≤ n ∨ Config.flitTransit s.freeCtr = none → portBecomes s n { p with
          retry := unacked p.retry f.ack, expect := p.expect + 1, rxflits := p.rxflits + 1, nakSent := false
          freed := freedUp f.vc.toNat } [.flit n (controlFlit 0 p.expect)] (exec (.flitReceive n f) s))) ∧
      (flitOk f = true → f.kind = 1 → f.seq ≠ p.expect → (p.expect - f.seq).toNat ≤ 2048 →
        portBecomes s n { p with retry := unacked p.retry f.ack } [.flit n (controlFlit 0 (p.expect - 1))] (exec (.flitReceive n f) s)) ∧
      (flitOk f = true → f.kind = 0 ∨ f.kind = 3 ∨ f.kind = 4 →
        portBecomes s n { p with retry := unacked p.retry f.ack } [] (exec (.flitReceive n f) s)) ∧
      (flitOk f = true → f.kind = 2 →
        portBecomes s n { replayed p (f.ack - 1) f.ack with repl := p.repl + 1 } (resent f.ack (f.ack - 1))
          (exec (.flitReceive n f) s)) ∧
      portBecomes s n { p with freedp := Vector.ofFn (fun k =>
          match if k.val / 4 = base / 4 then totals[k.val % 4]? else none with
          | some e => if (e.2 - p.freedp[k]).toNat < 2 ^ 31 then e.2 else p.freedp[k]
          | none => p.freedp[k]) } [] (exec (.totalsReceive n high totals) s)) ∧
    (up → portBecomes s n { replayed p (seq - 1) seq with repl := p.repl + 1 } (resent seq (seq - 1)) (exec (.nakReceive n seq) s)) ∧
    (up → p.frozen = false →
      (∀ g ∈ p.retry.head?, portBecomes s n
        { p with repl := p.repl + 1, txflits := p.txflits + BitVec.ofNat 64 (fromSeq p.retry g.seq).length }
        ((fromSeq p.retry g.seq).map (Packet.flit n)) (exec (.replayTimeout n) s)) ∧
      (let t (k : Nat) : W32 × W32 := (p.sent[k]?.getD 0, p.freed[k]?.getD 0)
       ∃ x y, exec (.totalsSend n) s = .next { s with egress := s.egress ++
         [.totals n false [t 0, t 1, t 2, t 3] (controlFlit 3 (p.expect - 1) x),
          .totals n true [t 4, t 5, t 6, t 7] (controlFlit 3 (p.expect - 1) y)] })) ∧
    portBecomes s n { p with lastrepl := p.repl, repl := 0, posted := false, retrained := false } []
      (exec (.replayWindowEnd n) s) ∧
    (p.cethr ≠ 0 → p.posted = false → p.cethr.toNat ≤ p.repl.toNat → queueReady s 0 →
      ∃ t, exec (.correctedErrorPost n) s = .next t ∧ t.port n = { p with posted := true } ∧ (∀ k, k ≠ n → t.port k = s.port k) ∧
        postsRecord s t 0 (record 5 0 0 0
          (BitVec.ofNat 64 (2 ^ 49 * s.pkg.toNat + 2 ^ 46 * 4 + 2 ^ 40 * 0x15 + 2 ^ 16 * n + 2)) (p.repl.zeroExtend 64)) ∧
        t = { s with ports := t.ports, dies := t.dies, mem := t.mem }) ∧
    (up → p.outq = [] → p.rtthr ≠ 0 → p.retrained = false → p.rtthr.toNat ≤ p.repl.toNat →
      portBecomes s n { p with state := 3, retrains := p.retrains + 1, failed := 0, retrained := true } [] (exec (.retrain n) s)) ∧
    (p.state = 1 ∨ p.state = 3 → p.outq = [] →
      (n < 64 ∨ (∀ g ∈ s.groups, g.2.flight = []) →
        (∀ k < 512, (s.session k).parent.toNat ≠ n ∨ (s.session k).root = true) → ∃ x reach, portBecomes s n
        { replayed p (seq - 1) seq with state := 2, failed := 0, nakSent := false, reach := reach }
        (resent seq (seq - 1) ++ [.timing n s.timeRef (controlFlit 4 (p.expect - 1) x)]) (exec (.trainingEnd n true seq) s)) ∧
      (p.failed < 2 → portBecomes s n { p with failed := p.failed + 1 } [] (exec (.trainingEnd n false seq) s)) ∧
      (2 ≤ p.failed → leavesService s n { p with failed := p.failed + 1, state := 4 } (exec (.trainingEnd n false seq) s))) ∧
    (p.state = 1 ∨ p.state = 2 ∨ p.state = 3 → p.outq = [] →
      leavesService s n { p with state := 0, failed := 0, reach := [] } (exec (.linkDown n) s)) ∧
    (p.state = 0 → p.dis = false → leavesService s n { p with
        state := 1, failed := 0, peerpkg := pkg, peerport := peer, islocal := decide (blockOf pkg = blockOf s.pkg) }
      (exec (.linkTraining n pkg peer) s)) ∧
    (s.seqOf h = some q → tag < 2 ^ 40 → (∃ k ∈ s.unrouted, asksUnder h tag k) →
      ∃ t, exec (.routeTimeout (.load h tag)) s = .next t ∧
        t.seqOf h = some (repliedTo q tag (.fault cRmtFault 0)) ∧ (∀ k, k ≠ h → t.seqOf k = s.seqOf k) ∧
        t = { s with ctx := t.ctx, seqs := t.seqs, unrouted := t.unrouted } ∧
        ∃ x y k, s.unrouted = x ++ k :: y ∧ asksUnder h tag k ∧ (∀ z ∈ x, ¬ asksUnder h tag z) ∧ t.unrouted = x ++ y) ∧
    (up → ∃ t x reach, exec (.timingFlit n pkg time slew synced) s = .next t ∧ t.timeRefs = tset n pkg s.timeRefs ∧
      followsLowest t ∧ t.port n = { p with reach := reach } ∧ (∀ k, k ≠ n → t.port k = s.port k) ∧
      let corrects := t.timeRef = pkg ∧ pkg ≠ s.pkg
      let steps := corrects ∧ s.ptime.toNat + 1000 < time.toNat
      t = { s with
        ports := t.ports, timeRefs := t.timeRefs, timeRef := t.timeRef, synced := synced
        slew := if corrects then lim else if t.timeRef = s.pkg then 0 else s.slew
        ptime := if steps then time else s.ptime, steps := if steps then s.steps + 1 else s.steps
        egress := s.egress ++ [.timing n t.timeRef (controlFlit 4 (p.expect - 1) x)] }) ∧
    (i ≠ j → i < 5 → j < 5 → v.toNat + (otherWavelengths s i j).1 ≤ 128 → v.toNat + (otherWavelengths s i j).2 ≤ 128 →
      v ≠ 0 ∨ i ≠ 4 ∧ j ≠ 4 → circuitBecomes { c with wl := v, pend := true } (exec (.wlWrite i j v) s)) ∧
    (c.pend = true → circuitBecomes { c with active := c.wl, pend := false } (exec (.wlChangeDone i j) s))

/-- R66, R125 to R127, R185, R227, R333, R334, R336, R337, R339 to R345: the events of accesses on their way, of translation and
of memory errors complete with the effects that `storeEvents`, `translationEvents` and `errorEvents` say: groupIssue, loadReturn,
storeArrive, xrmwApply, storeAck, heldNotice, streamHeld, staleReturn, recordRetry, recordDrop; flush, remoteAccessWindowEnd,
migrationCandidate, migrationStart, migrationSwitch, migrationApply, headWrite, connectionThaw; memoryError, patrolScrub,
errorWindowEnd. Where a request that was translated again is parked (log entry 26), that ACT on a record whose request is resolved is
refused and counted (log entry 49), and the records of scrub (log entries 39 and 75) are the model's choices. -/
def Obligations.MemoryEvents : Prop := storeEvents ∧ translationEvents ∧ errorEvents





/-- The events of the engines complete: copy channels and feed ports, the matrix queue, collective channels, multicast trees and
reduction sessions (recordClaim, footprintRegister, unitArrive, unitAck, recordReturn, channelFault, channelResume, channelDrop,
channelKill, killComplete, feedFill, feedDrainWrite; matrixCommandTurn, matrixCommandComplete, routineStart, contributionLand,
routineComplete, routineLimit, copyTrafficLand; messageSend, messageLand, messageAck, countWrite, creditReturn; multicastArrive,
multicastAck; sessionOpen, sessionClose, slotStore, sessionValue, sessionForwardTimeout, roundend, sessionTimeout, closePacket,
withdraw, reopen, withdrawMarker, recontrib, exclude). The model's choices among these clauses: a unit's source is read in the step
in which the unit arrives (log entry 39), what a message of a new setting finds in MSEQ (log entry 41), the padding leaves of a session
(log entry 43), and a copy channel frozen in FAULT (log entry 53). -/
def Obligations.EngineEvents : Prop :=
  Sys2Proof.Claims.channelEvents ∧ Sys2Proof.Claims.feedEvents ∧ Sys2Proof.Claims.matrixEvents ∧
    Sys2Proof.Claims.collectiveEvents ∧ Sys2Proof.Claims.multicastEvents ∧ Sys2Proof.Claims.sessionEvents



/-- The events of the schedulers, the host port and the platform complete (cardTake, jobAdmit, place, contextSwitch, contextSave,
park, wake, sleepExpiry, gangWake, longiterExpiry, deadlineOverrun, jobEndBySystemSoftware, coreRetire, registerWrite; hostOpen,
hostClose, hostSubmit, hostMread, hostMwrite, hostCatread, hostCatwrite, hostImage, hostAttest, hostAck, retransmitTimeout,
ackTimer, datagramDrop; pkgReset, powerLoss, tempSample, stepDown, stepUp, trip, hbmTempChange, powerControl, burst). What outlives
PKG_RESET and the loss of power, and what is heard in recovery, is the model's choice (log entry 52), and so are: what the service
cores start with (69), the sequencer a deadline record names (68), the QSYNC of another package (7), the statuses of host requests and
the numbers under which their far parts leave (44, 45), and that a reading counts in EVSYNC at its physical place (51). -/
def Obligations.SystemEvents : Prop :=
  Sys2Proof.Claims.placementEvents ∧ Sys2Proof.Claims.waitingEvents ∧ Sys2Proof.Claims.hostEvents ∧ Sys2Proof.Claims.platformEvents
end

