-- ==== Sys2Proof/Laws/State.lean ====
section
/-!
SUPPORT. The small lemmas of `State`: what each named update leaves in each field that the meanings read. With them a proof reads a
field of an updated state without unfolding the update.
-/

namespace Sys2Proof.Machine

variable (s : State)

/-! ### `writeBytes` -/

@[simp] theorem State.writeBytes_pkg (bs : List (Nat × Byte)) : (s.writeBytes bs).pkg = s.pkg := rfl
@[simp] theorem State.writeBytes_powered (bs : List (Nat × Byte)) : (s.writeBytes bs).powered = s.powered := rfl
@[simp] theorem State.writeBytes_clockStopped (bs : List (Nat × Byte)) : (s.writeBytes bs).clockStopped = s.clockStopped := rfl
@[simp] theorem State.writeBytes_ptime (bs : List (Nat × Byte)) : (s.writeBytes bs).ptime = s.ptime := rfl
@[simp] theorem State.writeBytes_mem (bs : List (Nat × Byte)) : (s.writeBytes bs).mem = bs.foldl (fun m b => Memory.write b.1 b.2 m) s.mem := rfl
@[simp] theorem State.writeBytes_empties (bs : List (Nat × Byte)) : (s.writeBytes bs).empties = s.empties := rfl
@[simp] theorem State.writeBytes_ctx (bs : List (Nat × Byte)) : (s.writeBytes bs).ctx = s.ctx := rfl
@[simp] theorem State.writeBytes_seqs (bs : List (Nat × Byte)) : (s.writeBytes bs).seqs = s.seqs := rfl
@[simp] theorem State.writeBytes_issue (bs : List (Nat × Byte)) : (s.writeBytes bs).issue = s.issue := rfl
@[simp] theorem State.writeBytes_agenda (bs : List (Nat × Byte)) : (s.writeBytes bs).agenda = s.agenda := rfl
@[simp] theorem State.writeBytes_egress (bs : List (Nat × Byte)) : (s.writeBytes bs).egress = s.egress := rfl
@[simp] theorem State.writeBytes_freeCtr (bs : List (Nat × Byte)) : (s.writeBytes bs).freeCtr = s.freeCtr := rfl
@[simp] theorem State.writeBytes_jobs (bs : List (Nat × Byte)) : (s.writeBytes bs).jobs = s.jobs := rfl
@[simp] theorem State.writeBytes_cores (bs : List (Nat × Byte)) : (s.writeBytes bs).cores = s.cores := rfl
@[simp] theorem State.writeBytes_dies (bs : List (Nat × Byte)) : (s.writeBytes bs).dies = s.dies := rfl
@[simp] theorem State.writeBytes_channels (bs : List (Nat × Byte)) : (s.writeBytes bs).channels = s.channels := rfl
@[simp] theorem State.writeBytes_trans (bs : List (Nat × Byte)) : (s.writeBytes bs).trans = s.trans := rfl
@[simp] theorem State.writeBytes_sessions (bs : List (Nat × Byte)) : (s.writeBytes bs).sessions = s.sessions := rfl
@[simp] theorem State.writeBytes_ports (bs : List (Nat × Byte)) : (s.writeBytes bs).ports = s.ports := rfl
@[simp] theorem State.writeBytes_colls (bs : List (Nat × Byte)) : (s.writeBytes bs).colls = s.colls := rfl
@[simp] theorem State.writeBytes_lifts (bs : List (Nat × Byte)) : (s.writeBytes bs).lifts = s.lifts := rfl
@[simp] theorem State.writeBytes_groups (bs : List (Nat × Byte)) : (s.writeBytes bs).groups = s.groups := rfl
@[simp] theorem State.writeBytes_conns (bs : List (Nat × Byte)) : (s.writeBytes bs).conns = s.conns := rfl
@[simp] theorem State.writeBytes_thermal (bs : List (Nat × Byte)) : (s.writeBytes bs).thermal = s.thermal := rfl
@[simp] theorem State.writeBytes_runQueue (bs : List (Nat × Byte)) : (s.writeBytes bs).runQueue = s.runQueue := rfl
@[simp] theorem State.writeBytes_crews (bs : List (Nat × Byte)) : (s.writeBytes bs).crews = s.crews := rfl
@[simp] theorem State.writeBytes_refusedWrites (bs : List (Nat × Byte)) : (s.writeBytes bs).refusedWrites = s.refusedWrites := rfl
@[simp] theorem State.writeBytes_late (bs : List (Nat × Byte)) : (s.writeBytes bs).late = s.late := rfl
@[simp] theorem State.writeBytes_parked (bs : List (Nat × Byte)) : (s.writeBytes bs).parked = s.parked := rfl
@[simp] theorem State.writeBytes_leases (bs : List (Nat × Byte)) : (s.writeBytes bs).leases = s.leases := rfl
@[simp] theorem State.writeBytes_landings (bs : List (Nat × Byte)) : (s.writeBytes bs).landings = s.landings := rfl
@[simp] theorem State.writeBytes_reorder (bs : List (Nat × Byte)) : (s.writeBytes bs).reorder = s.reorder := rfl
@[simp] theorem State.writeBytes_streamsDone (bs : List (Nat × Byte)) : (s.writeBytes bs).streamsDone = s.streamsDone := rfl
@[simp] theorem State.writeBytes_proxies (bs : List (Nat × Byte)) : (s.writeBytes bs).proxies = s.proxies := rfl
@[simp] theorem State.writeBytes_hostFar (bs : List (Nat × Byte)) : (s.writeBytes bs).hostFar = s.hostFar := rfl
@[simp] theorem State.writeBytes_unrouted (bs : List (Nat × Byte)) : (s.writeBytes bs).unrouted = s.unrouted := rfl
@[simp] theorem State.writeBytes_power (bs : List (Nat × Byte)) : (s.writeBytes bs).power = s.power := rfl

/-! ### `writeLE` -/

@[simp] theorem State.writeLE_pkg (a v n : Nat) : (s.writeLE a v n).pkg = s.pkg := rfl
@[simp] theorem State.writeLE_powered (a v n : Nat) : (s.writeLE a v n).powered = s.powered := rfl
@[simp] theorem State.writeLE_clockStopped (a v n : Nat) : (s.writeLE a v n).clockStopped = s.clockStopped := rfl
@[simp] theorem State.writeLE_ptime (a v n : Nat) : (s.writeLE a v n).ptime = s.ptime := rfl
@[simp] theorem State.writeLE_empties (a v n : Nat) : (s.writeLE a v n).empties = s.empties := rfl
@[simp] theorem State.writeLE_ctx (a v n : Nat) : (s.writeLE a v n).ctx = s.ctx := rfl
@[simp] theorem State.writeLE_seqs (a v n : Nat) : (s.writeLE a v n).seqs = s.seqs := rfl
@[simp] theorem State.writeLE_issue (a v n : Nat) : (s.writeLE a v n).issue = s.issue := rfl
@[simp] theorem State.writeLE_agenda (a v n : Nat) : (s.writeLE a v n).agenda = s.agenda := rfl
@[simp] theorem State.writeLE_egress (a v n : Nat) : (s.writeLE a v n).egress = s.egress := rfl
@[simp] theorem State.writeLE_freeCtr (a v n : Nat) : (s.writeLE a v n).freeCtr = s.freeCtr := rfl
@[simp] theorem State.writeLE_jobs (a v n : Nat) : (s.writeLE a v n).jobs = s.jobs := rfl
@[simp] theorem State.writeLE_cores (a v n : Nat) : (s.writeLE a v n).cores = s.cores := rfl
@[simp] theorem State.writeLE_dies (a v n : Nat) : (s.writeLE a v n).dies = s.dies := rfl
@[simp] theorem State.writeLE_channels (a v n : Nat) : (s.writeLE a v n).channels = s.channels := rfl
@[simp] theorem State.writeLE_trans (a v n : Nat) : (s.writeLE a v n).trans = s.trans := rfl
@[simp] theorem State.writeLE_sessions (a v n : Nat) : (s.writeLE a v n).sessions = s.sessions := rfl
@[simp] theorem State.writeLE_ports (a v n : Nat) : (s.writeLE a v n).ports = s.ports := rfl
@[simp] theorem State.writeLE_colls (a v n : Nat) : (s.writeLE a v n).colls = s.colls := rfl
@[simp] theorem State.writeLE_lifts (a v n : Nat) : (s.writeLE a v n).lifts = s.lifts := rfl
@[simp] theorem State.writeLE_groups (a v n : Nat) : (s.writeLE a v n).groups = s.groups := rfl
@[simp] theorem State.writeLE_conns (a v n : Nat) : (s.writeLE a v n).conns = s.conns := rfl
@[simp] theorem State.writeLE_thermal (a v n : Nat) : (s.writeLE a v n).thermal = s.thermal := rfl
@[simp] theorem State.writeLE_runQueue (a v n : Nat) : (s.writeLE a v n).runQueue = s.runQueue := rfl
@[simp] theorem State.writeLE_crews (a v n : Nat) : (s.writeLE a v n).crews = s.crews := rfl
@[simp] theorem State.writeLE_refusedWrites (a v n : Nat) : (s.writeLE a v n).refusedWrites = s.refusedWrites := rfl
@[simp] theorem State.writeLE_late (a v n : Nat) : (s.writeLE a v n).late = s.late := rfl
@[simp] theorem State.writeLE_parked (a v n : Nat) : (s.writeLE a v n).parked = s.parked := rfl
@[simp] theorem State.writeLE_leases (a v n : Nat) : (s.writeLE a v n).leases = s.leases := rfl
@[simp] theorem State.writeLE_landings (a v n : Nat) : (s.writeLE a v n).landings = s.landings := rfl
@[simp] theorem State.writeLE_reorder (a v n : Nat) : (s.writeLE a v n).reorder = s.reorder := rfl
@[simp] theorem State.writeLE_streamsDone (a v n : Nat) : (s.writeLE a v n).streamsDone = s.streamsDone := rfl
@[simp] theorem State.writeLE_proxies (a v n : Nat) : (s.writeLE a v n).proxies = s.proxies := rfl
@[simp] theorem State.writeLE_hostFar (a v n : Nat) : (s.writeLE a v n).hostFar = s.hostFar := rfl
@[simp] theorem State.writeLE_unrouted (a v n : Nat) : (s.writeLE a v n).unrouted = s.unrouted := rfl
@[simp] theorem State.writeLE_power (a v n : Nat) : (s.writeLE a v n).power = s.power := rfl

/-! ### `modCore` -/

@[simp] theorem State.modCore_pkg (n : Nat) (f : Core → Core) : (s.modCore n f).pkg = s.pkg := rfl
@[simp] theorem State.modCore_powered (n : Nat) (f : Core → Core) : (s.modCore n f).powered = s.powered := rfl
@[simp] theorem State.modCore_clockStopped (n : Nat) (f : Core → Core) : (s.modCore n f).clockStopped = s.clockStopped := rfl
@[simp] theorem State.modCore_ptime (n : Nat) (f : Core → Core) : (s.modCore n f).ptime = s.ptime := rfl
@[simp] theorem State.modCore_mem (n : Nat) (f : Core → Core) : (s.modCore n f).mem = s.mem := rfl
@[simp] theorem State.modCore_poison (n : Nat) (f : Core → Core) : (s.modCore n f).poison = s.poison := rfl
@[simp] theorem State.modCore_empties (n : Nat) (f : Core → Core) : (s.modCore n f).empties = s.empties := rfl
@[simp] theorem State.modCore_ctx (n : Nat) (f : Core → Core) : (s.modCore n f).ctx = s.ctx := rfl
@[simp] theorem State.modCore_seqs (n : Nat) (f : Core → Core) : (s.modCore n f).seqs = s.seqs := rfl
@[simp] theorem State.modCore_issue (n : Nat) (f : Core → Core) : (s.modCore n f).issue = s.issue := rfl
@[simp] theorem State.modCore_agenda (n : Nat) (f : Core → Core) : (s.modCore n f).agenda = s.agenda := rfl
@[simp] theorem State.modCore_egress (n : Nat) (f : Core → Core) : (s.modCore n f).egress = s.egress := rfl
@[simp] theorem State.modCore_freeCtr (n : Nat) (f : Core → Core) : (s.modCore n f).freeCtr = s.freeCtr := rfl
@[simp] theorem State.modCore_jobs (n : Nat) (f : Core → Core) : (s.modCore n f).jobs = s.jobs := rfl
@[simp] theorem State.modCore_cores (n : Nat) (f : Core → Core) : (s.modCore n f).cores = tset n (f (s.coreOf n)) s.cores := rfl
@[simp] theorem State.modCore_dies (n : Nat) (f : Core → Core) : (s.modCore n f).dies = s.dies := rfl
@[simp] theorem State.modCore_channels (n : Nat) (f : Core → Core) : (s.modCore n f).channels = s.channels := rfl
@[simp] theorem State.modCore_trans (n : Nat) (f : Core → Core) : (s.modCore n f).trans = s.trans := rfl
@[simp] theorem State.modCore_sessions (n : Nat) (f : Core → Core) : (s.modCore n f).sessions = s.sessions := rfl
@[simp] theorem State.modCore_ports (n : Nat) (f : Core → Core) : (s.modCore n f).ports = s.ports := rfl
@[simp] theorem State.modCore_colls (n : Nat) (f : Core → Core) : (s.modCore n f).colls = s.colls := rfl
@[simp] theorem State.modCore_lifts (n : Nat) (f : Core → Core) : (s.modCore n f).lifts = s.lifts := rfl
@[simp] theorem State.modCore_groups (n : Nat) (f : Core → Core) : (s.modCore n f).groups = s.groups := rfl
@[simp] theorem State.modCore_conns (n : Nat) (f : Core → Core) : (s.modCore n f).conns = s.conns := rfl
@[simp] theorem State.modCore_thermal (n : Nat) (f : Core → Core) : (s.modCore n f).thermal = s.thermal := rfl
@[simp] theorem State.modCore_runQueue (n : Nat) (f : Core → Core) : (s.modCore n f).runQueue = s.runQueue := rfl
@[simp] theorem State.modCore_crews (n : Nat) (f : Core → Core) : (s.modCore n f).crews = s.crews := rfl
@[simp] theorem State.modCore_refusedWrites (n : Nat) (f : Core → Core) : (s.modCore n f).refusedWrites = s.refusedWrites := rfl
@[simp] theorem State.modCore_late (n : Nat) (f : Core → Core) : (s.modCore n f).late = s.late := rfl
@[simp] theorem State.modCore_parked (n : Nat) (f : Core → Core) : (s.modCore n f).parked = s.parked := rfl
@[simp] theorem State.modCore_leases (n : Nat) (f : Core → Core) : (s.modCore n f).leases = s.leases := rfl
@[simp] theorem State.modCore_landings (n : Nat) (f : Core → Core) : (s.modCore n f).landings = s.landings := rfl
@[simp] theorem State.modCore_reorder (n : Nat) (f : Core → Core) : (s.modCore n f).reorder = s.reorder := rfl
@[simp] theorem State.modCore_streamsDone (n : Nat) (f : Core → Core) : (s.modCore n f).streamsDone = s.streamsDone := rfl
@[simp] theorem State.modCore_proxies (n : Nat) (f : Core → Core) : (s.modCore n f).proxies = s.proxies := rfl
@[simp] theorem State.modCore_hostFar (n : Nat) (f : Core → Core) : (s.modCore n f).hostFar = s.hostFar := rfl
@[simp] theorem State.modCore_unrouted (n : Nat) (f : Core → Core) : (s.modCore n f).unrouted = s.unrouted := rfl
@[simp] theorem State.modCore_power (n : Nat) (f : Core → Core) : (s.modCore n f).power = s.power := rfl

/-! ### `modDie` -/

@[simp] theorem State.modDie_pkg (d : Nat) (f : Die → Die) : (s.modDie d f).pkg = s.pkg := rfl
@[simp] theorem State.modDie_powered (d : Nat) (f : Die → Die) : (s.modDie d f).powered = s.powered := rfl
@[simp] theorem State.modDie_clockStopped (d : Nat) (f : Die → Die) : (s.modDie d f).clockStopped = s.clockStopped := rfl
@[simp] theorem State.modDie_ptime (d : Nat) (f : Die → Die) : (s.modDie d f).ptime = s.ptime := rfl
@[simp] theorem State.modDie_mem (d : Nat) (f : Die → Die) : (s.modDie d f).mem = s.mem := rfl
@[simp] theorem State.modDie_poison (d : Nat) (f : Die → Die) : (s.modDie d f).poison = s.poison := rfl
@[simp] theorem State.modDie_empties (d : Nat) (f : Die → Die) : (s.modDie d f).empties = s.empties := rfl
@[simp] theorem State.modDie_ctx (d : Nat) (f : Die → Die) : (s.modDie d f).ctx = s.ctx := rfl
@[simp] theorem State.modDie_seqs (d : Nat) (f : Die → Die) : (s.modDie d f).seqs = s.seqs := rfl
@[simp] theorem State.modDie_issue (d : Nat) (f : Die → Die) : (s.modDie d f).issue = s.issue := rfl
@[simp] theorem State.modDie_agenda (d : Nat) (f : Die → Die) : (s.modDie d f).agenda = s.agenda := rfl
@[simp] theorem State.modDie_egress (d : Nat) (f : Die → Die) : (s.modDie d f).egress = s.egress := rfl
@[simp] theorem State.modDie_freeCtr (d : Nat) (f : Die → Die) : (s.modDie d f).freeCtr = s.freeCtr := rfl
@[simp] theorem State.modDie_jobs (d : Nat) (f : Die → Die) : (s.modDie d f).jobs = s.jobs := rfl
@[simp] theorem State.modDie_cores (d : Nat) (f : Die → Die) : (s.modDie d f).cores = s.cores := rfl
@[simp] theorem State.modDie_dies (d : Nat) (f : Die → Die) : (s.modDie d f).dies = tset d (f (s.dieAt d)) s.dies := rfl
@[simp] theorem State.modDie_channels (d : Nat) (f : Die → Die) : (s.modDie d f).channels = s.channels := rfl
@[simp] theorem State.modDie_trans (d : Nat) (f : Die → Die) : (s.modDie d f).trans = s.trans := rfl
@[simp] theorem State.modDie_sessions (d : Nat) (f : Die → Die) : (s.modDie d f).sessions = s.sessions := rfl
@[simp] theorem State.modDie_ports (d : Nat) (f : Die → Die) : (s.modDie d f).ports = s.ports := rfl
@[simp] theorem State.modDie_colls (d : Nat) (f : Die → Die) : (s.modDie d f).colls = s.colls := rfl
@[simp] theorem State.modDie_lifts (d : Nat) (f : Die → Die) : (s.modDie d f).lifts = s.lifts := rfl
@[simp] theorem State.modDie_groups (d : Nat) (f : Die → Die) : (s.modDie d f).groups = s.groups := rfl
@[simp] theorem State.modDie_conns (d : Nat) (f : Die → Die) : (s.modDie d f).conns = s.conns := rfl
@[simp] theorem State.modDie_thermal (d : Nat) (f : Die → Die) : (s.modDie d f).thermal = s.thermal := rfl
@[simp] theorem State.modDie_runQueue (d : Nat) (f : Die → Die) : (s.modDie d f).runQueue = s.runQueue := rfl
@[simp] theorem State.modDie_crews (d : Nat) (f : Die → Die) : (s.modDie d f).crews = s.crews := rfl
@[simp] theorem State.modDie_refusedWrites (d : Nat) (f : Die → Die) : (s.modDie d f).refusedWrites = s.refusedWrites := rfl
@[simp] theorem State.modDie_late (d : Nat) (f : Die → Die) : (s.modDie d f).late = s.late := rfl
@[simp] theorem State.modDie_parked (d : Nat) (f : Die → Die) : (s.modDie d f).parked = s.parked := rfl
@[simp] theorem State.modDie_leases (d : Nat) (f : Die → Die) : (s.modDie d f).leases = s.leases := rfl
@[simp] theorem State.modDie_landings (d : Nat) (f : Die → Die) : (s.modDie d f).landings = s.landings := rfl
@[simp] theorem State.modDie_reorder (d : Nat) (f : Die → Die) : (s.modDie d f).reorder = s.reorder := rfl
@[simp] theorem State.modDie_streamsDone (d : Nat) (f : Die → Die) : (s.modDie d f).streamsDone = s.streamsDone := rfl
@[simp] theorem State.modDie_proxies (d : Nat) (f : Die → Die) : (s.modDie d f).proxies = s.proxies := rfl
@[simp] theorem State.modDie_hostFar (d : Nat) (f : Die → Die) : (s.modDie d f).hostFar = s.hostFar := rfl
@[simp] theorem State.modDie_unrouted (d : Nat) (f : Die → Die) : (s.modDie d f).unrouted = s.unrouted := rfl
@[simp] theorem State.modDie_power (d : Nat) (f : Die → Die) : (s.modDie d f).power = s.power := rfl

/-! ### `modTu` -/

@[simp] theorem State.modTu_pkg (d : Nat) (f : TransUnit → TransUnit) : (s.modTu d f).pkg = s.pkg := rfl
@[simp] theorem State.modTu_powered (d : Nat) (f : TransUnit → TransUnit) : (s.modTu d f).powered = s.powered := rfl
@[simp] theorem State.modTu_clockStopped (d : Nat) (f : TransUnit → TransUnit) : (s.modTu d f).clockStopped = s.clockStopped := rfl
@[simp] theorem State.modTu_ptime (d : Nat) (f : TransUnit → TransUnit) : (s.modTu d f).ptime = s.ptime := rfl
@[simp] theorem State.modTu_mem (d : Nat) (f : TransUnit → TransUnit) : (s.modTu d f).mem = s.mem := rfl
@[simp] theorem State.modTu_poison (d : Nat) (f : TransUnit → TransUnit) : (s.modTu d f).poison = s.poison := rfl
@[simp] theorem State.modTu_empties (d : Nat) (f : TransUnit → TransUnit) : (s.modTu d f).empties = s.empties := rfl
@[simp] theorem State.modTu_ctx (d : Nat) (f : TransUnit → TransUnit) : (s.modTu d f).ctx = s.ctx := rfl
@[simp] theorem State.modTu_seqs (d : Nat) (f : TransUnit → TransUnit) : (s.modTu d f).seqs = s.seqs := rfl
@[simp] theorem State.modTu_issue (d : Nat) (f : TransUnit → TransUnit) : (s.modTu d f).issue = s.issue := rfl
@[simp] theorem State.modTu_agenda (d : Nat) (f : TransUnit → TransUnit) : (s.modTu d f).agenda = s.agenda := rfl
@[simp] theorem State.modTu_egress (d : Nat) (f : TransUnit → TransUnit) : (s.modTu d f).egress = s.egress := rfl
@[simp] theorem State.modTu_freeCtr (d : Nat) (f : TransUnit → TransUnit) : (s.modTu d f).freeCtr = s.freeCtr := rfl
@[simp] theorem State.modTu_jobs (d : Nat) (f : TransUnit → TransUnit) : (s.modTu d f).jobs = s.jobs := rfl
@[simp] theorem State.modTu_cores (d : Nat) (f : TransUnit → TransUnit) : (s.modTu d f).cores = s.cores := rfl
@[simp] theorem State.modTu_dies (d : Nat) (f : TransUnit → TransUnit) : (s.modTu d f).dies = s.dies := rfl
@[simp] theorem State.modTu_channels (d : Nat) (f : TransUnit → TransUnit) : (s.modTu d f).channels = s.channels := rfl
@[simp] theorem State.modTu_trans (d : Nat) (f : TransUnit → TransUnit) : (s.modTu d f).trans = tset d (f (s.tu d)) s.trans := rfl
@[simp] theorem State.modTu_sessions (d : Nat) (f : TransUnit → TransUnit) : (s.modTu d f).sessions = s.sessions := rfl
@[simp] theorem State.modTu_ports (d : Nat) (f : TransUnit → TransUnit) : (s.modTu d f).ports = s.ports := rfl
@[simp] theorem State.modTu_colls (d : Nat) (f : TransUnit → TransUnit) : (s.modTu d f).colls = s.colls := rfl
@[simp] theorem State.modTu_lifts (d : Nat) (f : TransUnit → TransUnit) : (s.modTu d f).lifts = s.lifts := rfl
@[simp] theorem State.modTu_groups (d : Nat) (f : TransUnit → TransUnit) : (s.modTu d f).groups = s.groups := rfl
@[simp] theorem State.modTu_conns (d : Nat) (f : TransUnit → TransUnit) : (s.modTu d f).conns = s.conns := rfl
@[simp] theorem State.modTu_thermal (d : Nat) (f : TransUnit → TransUnit) : (s.modTu d f).thermal = s.thermal := rfl
@[simp] theorem State.modTu_runQueue (d : Nat) (f : TransUnit → TransUnit) : (s.modTu d f).runQueue = s.runQueue := rfl
@[simp] theorem State.modTu_crews (d : Nat) (f : TransUnit → TransUnit) : (s.modTu d f).crews = s.crews := rfl
@[simp] theorem State.modTu_refusedWrites (d : Nat) (f : TransUnit → TransUnit) : (s.modTu d f).refusedWrites = s.refusedWrites := rfl
@[simp] theorem State.modTu_late (d : Nat) (f : TransUnit → TransUnit) : (s.modTu d f).late = s.late := rfl
@[simp] theorem State.modTu_parked (d : Nat) (f : TransUnit → TransUnit) : (s.modTu d f).parked = s.parked := rfl
@[simp] theorem State.modTu_leases (d : Nat) (f : TransUnit → TransUnit) : (s.modTu d f).leases = s.leases := rfl
@[simp] theorem State.modTu_landings (d : Nat) (f : TransUnit → TransUnit) : (s.modTu d f).landings = s.landings := rfl
@[simp] theorem State.modTu_reorder (d : Nat) (f : TransUnit → TransUnit) : (s.modTu d f).reorder = s.reorder := rfl
@[simp] theorem State.modTu_streamsDone (d : Nat) (f : TransUnit → TransUnit) : (s.modTu d f).streamsDone = s.streamsDone := rfl
@[simp] theorem State.modTu_proxies (d : Nat) (f : TransUnit → TransUnit) : (s.modTu d f).proxies = s.proxies := rfl
@[simp] theorem State.modTu_hostFar (d : Nat) (f : TransUnit → TransUnit) : (s.modTu d f).hostFar = s.hostFar := rfl
@[simp] theorem State.modTu_unrouted (d : Nat) (f : TransUnit → TransUnit) : (s.modTu d f).unrouted = s.unrouted := rfl
@[simp] theorem State.modTu_power (d : Nat) (f : TransUnit → TransUnit) : (s.modTu d f).power = s.power := rfl

/-! ### `modChan` -/

@[simp] theorem State.modChan_pkg (d c : Nat) (f : Channel → Channel) : (s.modChan d c f).pkg = s.pkg := rfl
@[simp] theorem State.modChan_powered (d c : Nat) (f : Channel → Channel) : (s.modChan d c f).powered = s.powered := rfl
@[simp] theorem State.modChan_clockStopped (d c : Nat) (f : Channel → Channel) : (s.modChan d c f).clockStopped = s.clockStopped := rfl
@[simp] theorem State.modChan_ptime (d c : Nat) (f : Channel → Channel) : (s.modChan d c f).ptime = s.ptime := rfl
@[simp] theorem State.modChan_mem (d c : Nat) (f : Channel → Channel) : (s.modChan d c f).mem = s.mem := rfl
@[simp] theorem State.modChan_poison (d c : Nat) (f : Channel → Channel) : (s.modChan d c f).poison = s.poison := rfl
@[simp] theorem State.modChan_empties (d c : Nat) (f : Channel → Channel) : (s.modChan d c f).empties = s.empties := rfl
@[simp] theorem State.modChan_ctx (d c : Nat) (f : Channel → Channel) : (s.modChan d c f).ctx = s.ctx := rfl
@[simp] theorem State.modChan_seqs (d c : Nat) (f : Channel → Channel) : (s.modChan d c f).seqs = s.seqs := rfl
@[simp] theorem State.modChan_issue (d c : Nat) (f : Channel → Channel) : (s.modChan d c f).issue = s.issue := rfl
@[simp] theorem State.modChan_agenda (d c : Nat) (f : Channel → Channel) : (s.modChan d c f).agenda = s.agenda := rfl
@[simp] theorem State.modChan_egress (d c : Nat) (f : Channel → Channel) : (s.modChan d c f).egress = s.egress := rfl
@[simp] theorem State.modChan_freeCtr (d c : Nat) (f : Channel → Channel) : (s.modChan d c f).freeCtr = s.freeCtr := rfl
@[simp] theorem State.modChan_jobs (d c : Nat) (f : Channel → Channel) : (s.modChan d c f).jobs = s.jobs := rfl
@[simp] theorem State.modChan_cores (d c : Nat) (f : Channel → Channel) : (s.modChan d c f).cores = s.cores := rfl
@[simp] theorem State.modChan_dies (d c : Nat) (f : Channel → Channel) : (s.modChan d c f).dies = s.dies := rfl
@[simp] theorem State.modChan_channels (d c : Nat) (f : Channel → Channel) : (s.modChan d c f).channels = tset (128 * d + c) (f (s.chan d c)) s.channels := rfl
@[simp] theorem State.modChan_trans (d c : Nat) (f : Channel → Channel) : (s.modChan d c f).trans = s.trans := rfl
@[simp] theorem State.modChan_sessions (d c : Nat) (f : Channel → Channel) : (s.modChan d c f).sessions = s.sessions := rfl
@[simp] theorem State.modChan_ports (d c : Nat) (f : Channel → Channel) : (s.modChan d c f).ports = s.ports := rfl
@[simp] theorem State.modChan_colls (d c : Nat) (f : Channel → Channel) : (s.modChan d c f).colls = s.colls := rfl
@[simp] theorem State.modChan_lifts (d c : Nat) (f : Channel → Channel) : (s.modChan d c f).lifts = s.lifts := rfl
@[simp] theorem State.modChan_groups (d c : Nat) (f : Channel → Channel) : (s.modChan d c f).groups = s.groups := rfl
@[simp] theorem State.modChan_conns (d c : Nat) (f : Channel → Channel) : (s.modChan d c f).conns = s.conns := rfl
@[simp] theorem State.modChan_thermal (d c : Nat) (f : Channel → Channel) : (s.modChan d c f).thermal = s.thermal := rfl
@[simp] theorem State.modChan_runQueue (d c : Nat) (f : Channel → Channel) : (s.modChan d c f).runQueue = s.runQueue := rfl
@[simp] theorem State.modChan_crews (d c : Nat) (f : Channel → Channel) : (s.modChan d c f).crews = s.crews := rfl
@[simp] theorem State.modChan_refusedWrites (d c : Nat) (f : Channel → Channel) : (s.modChan d c f).refusedWrites = s.refusedWrites := rfl
@[simp] theorem State.modChan_late (d c : Nat) (f : Channel → Channel) : (s.modChan d c f).late = s.late := rfl
@[simp] theorem State.modChan_parked (d c : Nat) (f : Channel → Channel) : (s.modChan d c f).parked = s.parked := rfl
@[simp] theorem State.modChan_leases (d c : Nat) (f : Channel → Channel) : (s.modChan d c f).leases = s.leases := rfl
@[simp] theorem State.modChan_landings (d c : Nat) (f : Channel → Channel) : (s.modChan d c f).landings = s.landings := rfl
@[simp] theorem State.modChan_reorder (d c : Nat) (f : Channel → Channel) : (s.modChan d c f).reorder = s.reorder := rfl
@[simp] theorem State.modChan_streamsDone (d c : Nat) (f : Channel → Channel) : (s.modChan d c f).streamsDone = s.streamsDone := rfl
@[simp] theorem State.modChan_proxies (d c : Nat) (f : Channel → Channel) : (s.modChan d c f).proxies = s.proxies := rfl
@[simp] theorem State.modChan_hostFar (d c : Nat) (f : Channel → Channel) : (s.modChan d c f).hostFar = s.hostFar := rfl
@[simp] theorem State.modChan_unrouted (d c : Nat) (f : Channel → Channel) : (s.modChan d c f).unrouted = s.unrouted := rfl
@[simp] theorem State.modChan_power (d c : Nat) (f : Channel → Channel) : (s.modChan d c f).power = s.power := rfl

/-! ### `modColl` -/

@[simp] theorem State.modColl_pkg (c : Nat) (f : Coll → Coll) : (s.modColl c f).pkg = s.pkg := rfl
@[simp] theorem State.modColl_powered (c : Nat) (f : Coll → Coll) : (s.modColl c f).powered = s.powered := rfl
@[simp] theorem State.modColl_clockStopped (c : Nat) (f : Coll → Coll) : (s.modColl c f).clockStopped = s.clockStopped := rfl
@[simp] theorem State.modColl_ptime (c : Nat) (f : Coll → Coll) : (s.modColl c f).ptime = s.ptime := rfl
@[simp] theorem State.modColl_mem (c : Nat) (f : Coll → Coll) : (s.modColl c f).mem = s.mem := rfl
@[simp] theorem State.modColl_poison (c : Nat) (f : Coll → Coll) : (s.modColl c f).poison = s.poison := rfl
@[simp] theorem State.modColl_empties (c : Nat) (f : Coll → Coll) : (s.modColl c f).empties = s.empties := rfl
@[simp] theorem State.modColl_ctx (c : Nat) (f : Coll → Coll) : (s.modColl c f).ctx = s.ctx := rfl
@[simp] theorem State.modColl_seqs (c : Nat) (f : Coll → Coll) : (s.modColl c f).seqs = s.seqs := rfl
@[simp] theorem State.modColl_issue (c : Nat) (f : Coll → Coll) : (s.modColl c f).issue = s.issue := rfl
@[simp] theorem State.modColl_agenda (c : Nat) (f : Coll → Coll) : (s.modColl c f).agenda = s.agenda := rfl
@[simp] theorem State.modColl_egress (c : Nat) (f : Coll → Coll) : (s.modColl c f).egress = s.egress := rfl
@[simp] theorem State.modColl_freeCtr (c : Nat) (f : Coll → Coll) : (s.modColl c f).freeCtr = s.freeCtr := rfl
@[simp] theorem State.modColl_jobs (c : Nat) (f : Coll → Coll) : (s.modColl c f).jobs = s.jobs := rfl
@[simp] theorem State.modColl_cores (c : Nat) (f : Coll → Coll) : (s.modColl c f).cores = s.cores := rfl
@[simp] theorem State.modColl_dies (c : Nat) (f : Coll → Coll) : (s.modColl c f).dies = s.dies := rfl
@[simp] theorem State.modColl_channels (c : Nat) (f : Coll → Coll) : (s.modColl c f).channels = s.channels := rfl
@[simp] theorem State.modColl_trans (c : Nat) (f : Coll → Coll) : (s.modColl c f).trans = s.trans := rfl
@[simp] theorem State.modColl_sessions (c : Nat) (f : Coll → Coll) : (s.modColl c f).sessions = s.sessions := rfl
@[simp] theorem State.modColl_ports (c : Nat) (f : Coll → Coll) : (s.modColl c f).ports = s.ports := rfl
@[simp] theorem State.modColl_colls (c : Nat) (f : Coll → Coll) : (s.modColl c f).colls = tset c (f (s.coll c)) s.colls := rfl
@[simp] theorem State.modColl_lifts (c : Nat) (f : Coll → Coll) : (s.modColl c f).lifts = s.lifts := rfl
@[simp] theorem State.modColl_groups (c : Nat) (f : Coll → Coll) : (s.modColl c f).groups = s.groups := rfl
@[simp] theorem State.modColl_conns (c : Nat) (f : Coll → Coll) : (s.modColl c f).conns = s.conns := rfl
@[simp] theorem State.modColl_thermal (c : Nat) (f : Coll → Coll) : (s.modColl c f).thermal = s.thermal := rfl
@[simp] theorem State.modColl_runQueue (c : Nat) (f : Coll → Coll) : (s.modColl c f).runQueue = s.runQueue := rfl
@[simp] theorem State.modColl_crews (c : Nat) (f : Coll → Coll) : (s.modColl c f).crews = s.crews := rfl
@[simp] theorem State.modColl_refusedWrites (c : Nat) (f : Coll → Coll) : (s.modColl c f).refusedWrites = s.refusedWrites := rfl
@[simp] theorem State.modColl_late (c : Nat) (f : Coll → Coll) : (s.modColl c f).late = s.late := rfl
@[simp] theorem State.modColl_parked (c : Nat) (f : Coll → Coll) : (s.modColl c f).parked = s.parked := rfl
@[simp] theorem State.modColl_leases (c : Nat) (f : Coll → Coll) : (s.modColl c f).leases = s.leases := rfl
@[simp] theorem State.modColl_landings (c : Nat) (f : Coll → Coll) : (s.modColl c f).landings = s.landings := rfl
@[simp] theorem State.modColl_reorder (c : Nat) (f : Coll → Coll) : (s.modColl c f).reorder = s.reorder := rfl
@[simp] theorem State.modColl_streamsDone (c : Nat) (f : Coll → Coll) : (s.modColl c f).streamsDone = s.streamsDone := rfl
@[simp] theorem State.modColl_proxies (c : Nat) (f : Coll → Coll) : (s.modColl c f).proxies = s.proxies := rfl
@[simp] theorem State.modColl_hostFar (c : Nat) (f : Coll → Coll) : (s.modColl c f).hostFar = s.hostFar := rfl
@[simp] theorem State.modColl_unrouted (c : Nat) (f : Coll → Coll) : (s.modColl c f).unrouted = s.unrouted := rfl
@[simp] theorem State.modColl_power (c : Nat) (f : Coll → Coll) : (s.modColl c f).power = s.power := rfl

/-! ### `modLift` -/

@[simp] theorem State.modLift_pkg (e : Nat) (f : Lift → Lift) : (s.modLift e f).pkg = s.pkg := rfl
@[simp] theorem State.modLift_powered (e : Nat) (f : Lift → Lift) : (s.modLift e f).powered = s.powered := rfl
@[simp] theorem State.modLift_clockStopped (e : Nat) (f : Lift → Lift) : (s.modLift e f).clockStopped = s.clockStopped := rfl
@[simp] theorem State.modLift_ptime (e : Nat) (f : Lift → Lift) : (s.modLift e f).ptime = s.ptime := rfl
@[simp] theorem State.modLift_mem (e : Nat) (f : Lift → Lift) : (s.modLift e f).mem = s.mem := rfl
@[simp] theorem State.modLift_poison (e : Nat) (f : Lift → Lift) : (s.modLift e f).poison = s.poison := rfl
@[simp] theorem State.modLift_empties (e : Nat) (f : Lift → Lift) : (s.modLift e f).empties = s.empties := rfl
@[simp] theorem State.modLift_ctx (e : Nat) (f : Lift → Lift) : (s.modLift e f).ctx = s.ctx := rfl
@[simp] theorem State.modLift_seqs (e : Nat) (f : Lift → Lift) : (s.modLift e f).seqs = s.seqs := rfl
@[simp] theorem State.modLift_issue (e : Nat) (f : Lift → Lift) : (s.modLift e f).issue = s.issue := rfl
@[simp] theorem State.modLift_agenda (e : Nat) (f : Lift → Lift) : (s.modLift e f).agenda = s.agenda := rfl
@[simp] theorem State.modLift_egress (e : Nat) (f : Lift → Lift) : (s.modLift e f).egress = s.egress := rfl
@[simp] theorem State.modLift_freeCtr (e : Nat) (f : Lift → Lift) : (s.modLift e f).freeCtr = s.freeCtr := rfl
@[simp] theorem State.modLift_jobs (e : Nat) (f : Lift → Lift) : (s.modLift e f).jobs = s.jobs := rfl
@[simp] theorem State.modLift_cores (e : Nat) (f : Lift → Lift) : (s.modLift e f).cores = s.cores := rfl
@[simp] theorem State.modLift_dies (e : Nat) (f : Lift → Lift) : (s.modLift e f).dies = s.dies := rfl
@[simp] theorem State.modLift_channels (e : Nat) (f : Lift → Lift) : (s.modLift e f).channels = s.channels := rfl
@[simp] theorem State.modLift_trans (e : Nat) (f : Lift → Lift) : (s.modLift e f).trans = s.trans := rfl
@[simp] theorem State.modLift_sessions (e : Nat) (f : Lift → Lift) : (s.modLift e f).sessions = s.sessions := rfl
@[simp] theorem State.modLift_ports (e : Nat) (f : Lift → Lift) : (s.modLift e f).ports = s.ports := rfl
@[simp] theorem State.modLift_colls (e : Nat) (f : Lift → Lift) : (s.modLift e f).colls = s.colls := rfl
@[simp] theorem State.modLift_lifts (e : Nat) (f : Lift → Lift) : (s.modLift e f).lifts = tset e (f (s.lift e)) s.lifts := rfl
@[simp] theorem State.modLift_groups (e : Nat) (f : Lift → Lift) : (s.modLift e f).groups = s.groups := rfl
@[simp] theorem State.modLift_conns (e : Nat) (f : Lift → Lift) : (s.modLift e f).conns = s.conns := rfl
@[simp] theorem State.modLift_thermal (e : Nat) (f : Lift → Lift) : (s.modLift e f).thermal = s.thermal := rfl
@[simp] theorem State.modLift_runQueue (e : Nat) (f : Lift → Lift) : (s.modLift e f).runQueue = s.runQueue := rfl
@[simp] theorem State.modLift_crews (e : Nat) (f : Lift → Lift) : (s.modLift e f).crews = s.crews := rfl
@[simp] theorem State.modLift_refusedWrites (e : Nat) (f : Lift → Lift) : (s.modLift e f).refusedWrites = s.refusedWrites := rfl
@[simp] theorem State.modLift_late (e : Nat) (f : Lift → Lift) : (s.modLift e f).late = s.late := rfl
@[simp] theorem State.modLift_parked (e : Nat) (f : Lift → Lift) : (s.modLift e f).parked = s.parked := rfl
@[simp] theorem State.modLift_leases (e : Nat) (f : Lift → Lift) : (s.modLift e f).leases = s.leases := rfl
@[simp] theorem State.modLift_landings (e : Nat) (f : Lift → Lift) : (s.modLift e f).landings = s.landings := rfl
@[simp] theorem State.modLift_reorder (e : Nat) (f : Lift → Lift) : (s.modLift e f).reorder = s.reorder := rfl
@[simp] theorem State.modLift_streamsDone (e : Nat) (f : Lift → Lift) : (s.modLift e f).streamsDone = s.streamsDone := rfl
@[simp] theorem State.modLift_proxies (e : Nat) (f : Lift → Lift) : (s.modLift e f).proxies = s.proxies := rfl
@[simp] theorem State.modLift_hostFar (e : Nat) (f : Lift → Lift) : (s.modLift e f).hostFar = s.hostFar := rfl
@[simp] theorem State.modLift_unrouted (e : Nat) (f : Lift → Lift) : (s.modLift e f).unrouted = s.unrouted := rfl
@[simp] theorem State.modLift_power (e : Nat) (f : Lift → Lift) : (s.modLift e f).power = s.power := rfl

/-! ### `modSession` -/

@[simp] theorem State.modSession_pkg (n : Nat) (f : Session → Session) : (s.modSession n f).pkg = s.pkg := rfl
@[simp] theorem State.modSession_powered (n : Nat) (f : Session → Session) : (s.modSession n f).powered = s.powered := rfl
@[simp] theorem State.modSession_clockStopped (n : Nat) (f : Session → Session) : (s.modSession n f).clockStopped = s.clockStopped := rfl
@[simp] theorem State.modSession_ptime (n : Nat) (f : Session → Session) : (s.modSession n f).ptime = s.ptime := rfl
@[simp] theorem State.modSession_mem (n : Nat) (f : Session → Session) : (s.modSession n f).mem = s.mem := rfl
@[simp] theorem State.modSession_poison (n : Nat) (f : Session → Session) : (s.modSession n f).poison = s.poison := rfl
@[simp] theorem State.modSession_empties (n : Nat) (f : Session → Session) : (s.modSession n f).empties = s.empties := rfl
@[simp] theorem State.modSession_ctx (n : Nat) (f : Session → Session) : (s.modSession n f).ctx = s.ctx := rfl
@[simp] theorem State.modSession_seqs (n : Nat) (f : Session → Session) : (s.modSession n f).seqs = s.seqs := rfl
@[simp] theorem State.modSession_issue (n : Nat) (f : Session → Session) : (s.modSession n f).issue = s.issue := rfl
@[simp] theorem State.modSession_agenda (n : Nat) (f : Session → Session) : (s.modSession n f).agenda = s.agenda := rfl
@[simp] theorem State.modSession_egress (n : Nat) (f : Session → Session) : (s.modSession n f).egress = s.egress := rfl
@[simp] theorem State.modSession_freeCtr (n : Nat) (f : Session → Session) : (s.modSession n f).freeCtr = s.freeCtr := rfl
@[simp] theorem State.modSession_jobs (n : Nat) (f : Session → Session) : (s.modSession n f).jobs = s.jobs := rfl
@[simp] theorem State.modSession_cores (n : Nat) (f : Session → Session) : (s.modSession n f).cores = s.cores := rfl
@[simp] theorem State.modSession_dies (n : Nat) (f : Session → Session) : (s.modSession n f).dies = s.dies := rfl
@[simp] theorem State.modSession_channels (n : Nat) (f : Session → Session) : (s.modSession n f).channels = s.channels := rfl
@[simp] theorem State.modSession_trans (n : Nat) (f : Session → Session) : (s.modSession n f).trans = s.trans := rfl
@[simp] theorem State.modSession_sessions (n : Nat) (f : Session → Session) : (s.modSession n f).sessions = tset n (f (s.session n)) s.sessions := rfl
@[simp] theorem State.modSession_ports (n : Nat) (f : Session → Session) : (s.modSession n f).ports = s.ports := rfl
@[simp] theorem State.modSession_colls (n : Nat) (f : Session → Session) : (s.modSession n f).colls = s.colls := rfl
@[simp] theorem State.modSession_lifts (n : Nat) (f : Session → Session) : (s.modSession n f).lifts = s.lifts := rfl
@[simp] theorem State.modSession_groups (n : Nat) (f : Session → Session) : (s.modSession n f).groups = s.groups := rfl
@[simp] theorem State.modSession_conns (n : Nat) (f : Session → Session) : (s.modSession n f).conns = s.conns := rfl
@[simp] theorem State.modSession_thermal (n : Nat) (f : Session → Session) : (s.modSession n f).thermal = s.thermal := rfl
@[simp] theorem State.modSession_runQueue (n : Nat) (f : Session → Session) : (s.modSession n f).runQueue = s.runQueue := rfl
@[simp] theorem State.modSession_crews (n : Nat) (f : Session → Session) : (s.modSession n f).crews = s.crews := rfl
@[simp] theorem State.modSession_refusedWrites (n : Nat) (f : Session → Session) : (s.modSession n f).refusedWrites = s.refusedWrites := rfl
@[simp] theorem State.modSession_late (n : Nat) (f : Session → Session) : (s.modSession n f).late = s.late := rfl
@[simp] theorem State.modSession_parked (n : Nat) (f : Session → Session) : (s.modSession n f).parked = s.parked := rfl
@[simp] theorem State.modSession_leases (n : Nat) (f : Session → Session) : (s.modSession n f).leases = s.leases := rfl
@[simp] theorem State.modSession_landings (n : Nat) (f : Session → Session) : (s.modSession n f).landings = s.landings := rfl
@[simp] theorem State.modSession_reorder (n : Nat) (f : Session → Session) : (s.modSession n f).reorder = s.reorder := rfl
@[simp] theorem State.modSession_streamsDone (n : Nat) (f : Session → Session) : (s.modSession n f).streamsDone = s.streamsDone := rfl
@[simp] theorem State.modSession_proxies (n : Nat) (f : Session → Session) : (s.modSession n f).proxies = s.proxies := rfl
@[simp] theorem State.modSession_hostFar (n : Nat) (f : Session → Session) : (s.modSession n f).hostFar = s.hostFar := rfl
@[simp] theorem State.modSession_unrouted (n : Nat) (f : Session → Session) : (s.modSession n f).unrouted = s.unrouted := rfl
@[simp] theorem State.modSession_power (n : Nat) (f : Session → Session) : (s.modSession n f).power = s.power := rfl

/-! ### `modGroup` -/

@[simp] theorem State.modGroup_pkg (g : Nat) (f : McGroup → McGroup) : (s.modGroup g f).pkg = s.pkg := rfl
@[simp] theorem State.modGroup_powered (g : Nat) (f : McGroup → McGroup) : (s.modGroup g f).powered = s.powered := rfl
@[simp] theorem State.modGroup_clockStopped (g : Nat) (f : McGroup → McGroup) : (s.modGroup g f).clockStopped = s.clockStopped := rfl
@[simp] theorem State.modGroup_ptime (g : Nat) (f : McGroup → McGroup) : (s.modGroup g f).ptime = s.ptime := rfl
@[simp] theorem State.modGroup_mem (g : Nat) (f : McGroup → McGroup) : (s.modGroup g f).mem = s.mem := rfl
@[simp] theorem State.modGroup_poison (g : Nat) (f : McGroup → McGroup) : (s.modGroup g f).poison = s.poison := rfl
@[simp] theorem State.modGroup_empties (g : Nat) (f : McGroup → McGroup) : (s.modGroup g f).empties = s.empties := rfl
@[simp] theorem State.modGroup_ctx (g : Nat) (f : McGroup → McGroup) : (s.modGroup g f).ctx = s.ctx := rfl
@[simp] theorem State.modGroup_seqs (g : Nat) (f : McGroup → McGroup) : (s.modGroup g f).seqs = s.seqs := rfl
@[simp] theorem State.modGroup_issue (g : Nat) (f : McGroup → McGroup) : (s.modGroup g f).issue = s.issue := rfl
@[simp] theorem State.modGroup_agenda (g : Nat) (f : McGroup → McGroup) : (s.modGroup g f).agenda = s.agenda := rfl
@[simp] theorem State.modGroup_egress (g : Nat) (f : McGroup → McGroup) : (s.modGroup g f).egress = s.egress := rfl
@[simp] theorem State.modGroup_freeCtr (g : Nat) (f : McGroup → McGroup) : (s.modGroup g f).freeCtr = s.freeCtr := rfl
@[simp] theorem State.modGroup_jobs (g : Nat) (f : McGroup → McGroup) : (s.modGroup g f).jobs = s.jobs := rfl
@[simp] theorem State.modGroup_cores (g : Nat) (f : McGroup → McGroup) : (s.modGroup g f).cores = s.cores := rfl
@[simp] theorem State.modGroup_dies (g : Nat) (f : McGroup → McGroup) : (s.modGroup g f).dies = s.dies := rfl
@[simp] theorem State.modGroup_channels (g : Nat) (f : McGroup → McGroup) : (s.modGroup g f).channels = s.channels := rfl
@[simp] theorem State.modGroup_trans (g : Nat) (f : McGroup → McGroup) : (s.modGroup g f).trans = s.trans := rfl
@[simp] theorem State.modGroup_sessions (g : Nat) (f : McGroup → McGroup) : (s.modGroup g f).sessions = s.sessions := rfl
@[simp] theorem State.modGroup_ports (g : Nat) (f : McGroup → McGroup) : (s.modGroup g f).ports = s.ports := rfl
@[simp] theorem State.modGroup_colls (g : Nat) (f : McGroup → McGroup) : (s.modGroup g f).colls = s.colls := rfl
@[simp] theorem State.modGroup_lifts (g : Nat) (f : McGroup → McGroup) : (s.modGroup g f).lifts = s.lifts := rfl
@[simp] theorem State.modGroup_groups (g : Nat) (f : McGroup → McGroup) : (s.modGroup g f).groups = tset g (f (s.group g)) s.groups := rfl
@[simp] theorem State.modGroup_conns (g : Nat) (f : McGroup → McGroup) : (s.modGroup g f).conns = s.conns := rfl
@[simp] theorem State.modGroup_thermal (g : Nat) (f : McGroup → McGroup) : (s.modGroup g f).thermal = s.thermal := rfl
@[simp] theorem State.modGroup_runQueue (g : Nat) (f : McGroup → McGroup) : (s.modGroup g f).runQueue = s.runQueue := rfl
@[simp] theorem State.modGroup_crews (g : Nat) (f : McGroup → McGroup) : (s.modGroup g f).crews = s.crews := rfl
@[simp] theorem State.modGroup_refusedWrites (g : Nat) (f : McGroup → McGroup) : (s.modGroup g f).refusedWrites = s.refusedWrites := rfl
@[simp] theorem State.modGroup_late (g : Nat) (f : McGroup → McGroup) : (s.modGroup g f).late = s.late := rfl
@[simp] theorem State.modGroup_parked (g : Nat) (f : McGroup → McGroup) : (s.modGroup g f).parked = s.parked := rfl
@[simp] theorem State.modGroup_leases (g : Nat) (f : McGroup → McGroup) : (s.modGroup g f).leases = s.leases := rfl
@[simp] theorem State.modGroup_landings (g : Nat) (f : McGroup → McGroup) : (s.modGroup g f).landings = s.landings := rfl
@[simp] theorem State.modGroup_reorder (g : Nat) (f : McGroup → McGroup) : (s.modGroup g f).reorder = s.reorder := rfl
@[simp] theorem State.modGroup_streamsDone (g : Nat) (f : McGroup → McGroup) : (s.modGroup g f).streamsDone = s.streamsDone := rfl
@[simp] theorem State.modGroup_proxies (g : Nat) (f : McGroup → McGroup) : (s.modGroup g f).proxies = s.proxies := rfl
@[simp] theorem State.modGroup_hostFar (g : Nat) (f : McGroup → McGroup) : (s.modGroup g f).hostFar = s.hostFar := rfl
@[simp] theorem State.modGroup_unrouted (g : Nat) (f : McGroup → McGroup) : (s.modGroup g f).unrouted = s.unrouted := rfl
@[simp] theorem State.modGroup_power (g : Nat) (f : McGroup → McGroup) : (s.modGroup g f).power = s.power := rfl

/-! ### `modPort` -/

@[simp] theorem State.modPort_pkg (p : Nat) (f : Port → Port) : (s.modPort p f).pkg = s.pkg := rfl
@[simp] theorem State.modPort_powered (p : Nat) (f : Port → Port) : (s.modPort p f).powered = s.powered := rfl
@[simp] theorem State.modPort_clockStopped (p : Nat) (f : Port → Port) : (s.modPort p f).clockStopped = s.clockStopped := rfl
@[simp] theorem State.modPort_ptime (p : Nat) (f : Port → Port) : (s.modPort p f).ptime = s.ptime := rfl
@[simp] theorem State.modPort_mem (p : Nat) (f : Port → Port) : (s.modPort p f).mem = s.mem := rfl
@[simp] theorem State.modPort_poison (p : Nat) (f : Port → Port) : (s.modPort p f).poison = s.poison := rfl
@[simp] theorem State.modPort_empties (p : Nat) (f : Port → Port) : (s.modPort p f).empties = s.empties := rfl
@[simp] theorem State.modPort_ctx (p : Nat) (f : Port → Port) : (s.modPort p f).ctx = s.ctx := rfl
@[simp] theorem State.modPort_seqs (p : Nat) (f : Port → Port) : (s.modPort p f).seqs = s.seqs := rfl
@[simp] theorem State.modPort_issue (p : Nat) (f : Port → Port) : (s.modPort p f).issue = s.issue := rfl
@[simp] theorem State.modPort_agenda (p : Nat) (f : Port → Port) : (s.modPort p f).agenda = s.agenda := rfl
@[simp] theorem State.modPort_egress (p : Nat) (f : Port → Port) : (s.modPort p f).egress = s.egress := rfl
@[simp] theorem State.modPort_freeCtr (p : Nat) (f : Port → Port) : (s.modPort p f).freeCtr = s.freeCtr := rfl
@[simp] theorem State.modPort_jobs (p : Nat) (f : Port → Port) : (s.modPort p f).jobs = s.jobs := rfl
@[simp] theorem State.modPort_cores (p : Nat) (f : Port → Port) : (s.modPort p f).cores = s.cores := rfl
@[simp] theorem State.modPort_dies (p : Nat) (f : Port → Port) : (s.modPort p f).dies = s.dies := rfl
@[simp] theorem State.modPort_channels (p : Nat) (f : Port → Port) : (s.modPort p f).channels = s.channels := rfl
@[simp] theorem State.modPort_trans (p : Nat) (f : Port → Port) : (s.modPort p f).trans = s.trans := rfl
@[simp] theorem State.modPort_sessions (p : Nat) (f : Port → Port) : (s.modPort p f).sessions = s.sessions := rfl
@[simp] theorem State.modPort_ports (p : Nat) (f : Port → Port) : (s.modPort p f).ports = tset p (f (s.port p)) s.ports := rfl
@[simp] theorem State.modPort_colls (p : Nat) (f : Port → Port) : (s.modPort p f).colls = s.colls := rfl
@[simp] theorem State.modPort_lifts (p : Nat) (f : Port → Port) : (s.modPort p f).lifts = s.lifts := rfl
@[simp] theorem State.modPort_groups (p : Nat) (f : Port → Port) : (s.modPort p f).groups = s.groups := rfl
@[simp] theorem State.modPort_conns (p : Nat) (f : Port → Port) : (s.modPort p f).conns = s.conns := rfl
@[simp] theorem State.modPort_thermal (p : Nat) (f : Port → Port) : (s.modPort p f).thermal = s.thermal := rfl
@[simp] theorem State.modPort_runQueue (p : Nat) (f : Port → Port) : (s.modPort p f).runQueue = s.runQueue := rfl
@[simp] theorem State.modPort_crews (p : Nat) (f : Port → Port) : (s.modPort p f).crews = s.crews := rfl
@[simp] theorem State.modPort_refusedWrites (p : Nat) (f : Port → Port) : (s.modPort p f).refusedWrites = s.refusedWrites := rfl
@[simp] theorem State.modPort_late (p : Nat) (f : Port → Port) : (s.modPort p f).late = s.late := rfl
@[simp] theorem State.modPort_parked (p : Nat) (f : Port → Port) : (s.modPort p f).parked = s.parked := rfl
@[simp] theorem State.modPort_leases (p : Nat) (f : Port → Port) : (s.modPort p f).leases = s.leases := rfl
@[simp] theorem State.modPort_landings (p : Nat) (f : Port → Port) : (s.modPort p f).landings = s.landings := rfl
@[simp] theorem State.modPort_reorder (p : Nat) (f : Port → Port) : (s.modPort p f).reorder = s.reorder := rfl
@[simp] theorem State.modPort_streamsDone (p : Nat) (f : Port → Port) : (s.modPort p f).streamsDone = s.streamsDone := rfl
@[simp] theorem State.modPort_proxies (p : Nat) (f : Port → Port) : (s.modPort p f).proxies = s.proxies := rfl
@[simp] theorem State.modPort_hostFar (p : Nat) (f : Port → Port) : (s.modPort p f).hostFar = s.hostFar := rfl
@[simp] theorem State.modPort_unrouted (p : Nat) (f : Port → Port) : (s.modPort p f).unrouted = s.unrouted := rfl
@[simp] theorem State.modPort_power (p : Nat) (f : Port → Port) : (s.modPort p f).power = s.power := rfl

/-! ### `modConn` -/

@[simp] theorem State.modConn_pkg (c : Nat) (f : Conn → Conn) : (s.modConn c f).pkg = s.pkg := rfl
@[simp] theorem State.modConn_powered (c : Nat) (f : Conn → Conn) : (s.modConn c f).powered = s.powered := rfl
@[simp] theorem State.modConn_clockStopped (c : Nat) (f : Conn → Conn) : (s.modConn c f).clockStopped = s.clockStopped := rfl
@[simp] theorem State.modConn_ptime (c : Nat) (f : Conn → Conn) : (s.modConn c f).ptime = s.ptime := rfl
@[simp] theorem State.modConn_mem (c : Nat) (f : Conn → Conn) : (s.modConn c f).mem = s.mem := rfl
@[simp] theorem State.modConn_poison (c : Nat) (f : Conn → Conn) : (s.modConn c f).poison = s.poison := rfl
@[simp] theorem State.modConn_empties (c : Nat) (f : Conn → Conn) : (s.modConn c f).empties = s.empties := rfl
@[simp] theorem State.modConn_ctx (c : Nat) (f : Conn → Conn) : (s.modConn c f).ctx = s.ctx := rfl
@[simp] theorem State.modConn_seqs (c : Nat) (f : Conn → Conn) : (s.modConn c f).seqs = s.seqs := rfl
@[simp] theorem State.modConn_issue (c : Nat) (f : Conn → Conn) : (s.modConn c f).issue = s.issue := rfl
@[simp] theorem State.modConn_agenda (c : Nat) (f : Conn → Conn) : (s.modConn c f).agenda = s.agenda := rfl
@[simp] theorem State.modConn_egress (c : Nat) (f : Conn → Conn) : (s.modConn c f).egress = s.egress := rfl
@[simp] theorem State.modConn_freeCtr (c : Nat) (f : Conn → Conn) : (s.modConn c f).freeCtr = s.freeCtr := rfl
@[simp] theorem State.modConn_jobs (c : Nat) (f : Conn → Conn) : (s.modConn c f).jobs = s.jobs := rfl
@[simp] theorem State.modConn_cores (c : Nat) (f : Conn → Conn) : (s.modConn c f).cores = s.cores := rfl
@[simp] theorem State.modConn_dies (c : Nat) (f : Conn → Conn) : (s.modConn c f).dies = s.dies := rfl
@[simp] theorem State.modConn_channels (c : Nat) (f : Conn → Conn) : (s.modConn c f).channels = s.channels := rfl
@[simp] theorem State.modConn_trans (c : Nat) (f : Conn → Conn) : (s.modConn c f).trans = s.trans := rfl
@[simp] theorem State.modConn_sessions (c : Nat) (f : Conn → Conn) : (s.modConn c f).sessions = s.sessions := rfl
@[simp] theorem State.modConn_ports (c : Nat) (f : Conn → Conn) : (s.modConn c f).ports = s.ports := rfl
@[simp] theorem State.modConn_colls (c : Nat) (f : Conn → Conn) : (s.modConn c f).colls = s.colls := rfl
@[simp] theorem State.modConn_lifts (c : Nat) (f : Conn → Conn) : (s.modConn c f).lifts = s.lifts := rfl
@[simp] theorem State.modConn_groups (c : Nat) (f : Conn → Conn) : (s.modConn c f).groups = s.groups := rfl
@[simp] theorem State.modConn_conns (c : Nat) (f : Conn → Conn) : (s.modConn c f).conns = tset c (f (s.conn c)) s.conns := rfl
@[simp] theorem State.modConn_thermal (c : Nat) (f : Conn → Conn) : (s.modConn c f).thermal = s.thermal := rfl
@[simp] theorem State.modConn_runQueue (c : Nat) (f : Conn → Conn) : (s.modConn c f).runQueue = s.runQueue := rfl
@[simp] theorem State.modConn_crews (c : Nat) (f : Conn → Conn) : (s.modConn c f).crews = s.crews := rfl
@[simp] theorem State.modConn_refusedWrites (c : Nat) (f : Conn → Conn) : (s.modConn c f).refusedWrites = s.refusedWrites := rfl
@[simp] theorem State.modConn_late (c : Nat) (f : Conn → Conn) : (s.modConn c f).late = s.late := rfl
@[simp] theorem State.modConn_parked (c : Nat) (f : Conn → Conn) : (s.modConn c f).parked = s.parked := rfl
@[simp] theorem State.modConn_leases (c : Nat) (f : Conn → Conn) : (s.modConn c f).leases = s.leases := rfl
@[simp] theorem State.modConn_landings (c : Nat) (f : Conn → Conn) : (s.modConn c f).landings = s.landings := rfl
@[simp] theorem State.modConn_reorder (c : Nat) (f : Conn → Conn) : (s.modConn c f).reorder = s.reorder := rfl
@[simp] theorem State.modConn_streamsDone (c : Nat) (f : Conn → Conn) : (s.modConn c f).streamsDone = s.streamsDone := rfl
@[simp] theorem State.modConn_proxies (c : Nat) (f : Conn → Conn) : (s.modConn c f).proxies = s.proxies := rfl
@[simp] theorem State.modConn_hostFar (c : Nat) (f : Conn → Conn) : (s.modConn c f).hostFar = s.hostFar := rfl
@[simp] theorem State.modConn_unrouted (c : Nat) (f : Conn → Conn) : (s.modConn c f).unrouted = s.unrouted := rfl
@[simp] theorem State.modConn_power (c : Nat) (f : Conn → Conn) : (s.modConn c f).power = s.power := rfl

/-! ### `modTherm` -/

@[simp] theorem State.modTherm_pkg (d : Nat) (f : Thermal → Thermal) : (s.modTherm d f).pkg = s.pkg := rfl
@[simp] theorem State.modTherm_powered (d : Nat) (f : Thermal → Thermal) : (s.modTherm d f).powered = s.powered := rfl
@[simp] theorem State.modTherm_clockStopped (d : Nat) (f : Thermal → Thermal) : (s.modTherm d f).clockStopped = s.clockStopped := rfl
@[simp] theorem State.modTherm_ptime (d : Nat) (f : Thermal → Thermal) : (s.modTherm d f).ptime = s.ptime := rfl
@[simp] theorem State.modTherm_mem (d : Nat) (f : Thermal → Thermal) : (s.modTherm d f).mem = s.mem := rfl
@[simp] theorem State.modTherm_poison (d : Nat) (f : Thermal → Thermal) : (s.modTherm d f).poison = s.poison := rfl
@[simp] theorem State.modTherm_empties (d : Nat) (f : Thermal → Thermal) : (s.modTherm d f).empties = s.empties := rfl
@[simp] theorem State.modTherm_ctx (d : Nat) (f : Thermal → Thermal) : (s.modTherm d f).ctx = s.ctx := rfl
@[simp] theorem State.modTherm_seqs (d : Nat) (f : Thermal → Thermal) : (s.modTherm d f).seqs = s.seqs := rfl
@[simp] theorem State.modTherm_issue (d : Nat) (f : Thermal → Thermal) : (s.modTherm d f).issue = s.issue := rfl
@[simp] theorem State.modTherm_agenda (d : Nat) (f : Thermal → Thermal) : (s.modTherm d f).agenda = s.agenda := rfl
@[simp] theorem State.modTherm_egress (d : Nat) (f : Thermal → Thermal) : (s.modTherm d f).egress = s.egress := rfl
@[simp] theorem State.modTherm_freeCtr (d : Nat) (f : Thermal → Thermal) : (s.modTherm d f).freeCtr = s.freeCtr := rfl
@[simp] theorem State.modTherm_jobs (d : Nat) (f : Thermal → Thermal) : (s.modTherm d f).jobs = s.jobs := rfl
@[simp] theorem State.modTherm_cores (d : Nat) (f : Thermal → Thermal) : (s.modTherm d f).cores = s.cores := rfl
@[simp] theorem State.modTherm_dies (d : Nat) (f : Thermal → Thermal) : (s.modTherm d f).dies = s.dies := rfl
@[simp] theorem State.modTherm_channels (d : Nat) (f : Thermal → Thermal) : (s.modTherm d f).channels = s.channels := rfl
@[simp] theorem State.modTherm_trans (d : Nat) (f : Thermal → Thermal) : (s.modTherm d f).trans = s.trans := rfl
@[simp] theorem State.modTherm_sessions (d : Nat) (f : Thermal → Thermal) : (s.modTherm d f).sessions = s.sessions := rfl
@[simp] theorem State.modTherm_ports (d : Nat) (f : Thermal → Thermal) : (s.modTherm d f).ports = s.ports := rfl
@[simp] theorem State.modTherm_colls (d : Nat) (f : Thermal → Thermal) : (s.modTherm d f).colls = s.colls := rfl
@[simp] theorem State.modTherm_lifts (d : Nat) (f : Thermal → Thermal) : (s.modTherm d f).lifts = s.lifts := rfl
@[simp] theorem State.modTherm_groups (d : Nat) (f : Thermal → Thermal) : (s.modTherm d f).groups = s.groups := rfl
@[simp] theorem State.modTherm_conns (d : Nat) (f : Thermal → Thermal) : (s.modTherm d f).conns = s.conns := rfl
@[simp] theorem State.modTherm_thermal (d : Nat) (f : Thermal → Thermal) : (s.modTherm d f).thermal = tset d (f (s.therm d)) s.thermal := rfl
@[simp] theorem State.modTherm_runQueue (d : Nat) (f : Thermal → Thermal) : (s.modTherm d f).runQueue = s.runQueue := rfl
@[simp] theorem State.modTherm_crews (d : Nat) (f : Thermal → Thermal) : (s.modTherm d f).crews = s.crews := rfl
@[simp] theorem State.modTherm_refusedWrites (d : Nat) (f : Thermal → Thermal) : (s.modTherm d f).refusedWrites = s.refusedWrites := rfl
@[simp] theorem State.modTherm_late (d : Nat) (f : Thermal → Thermal) : (s.modTherm d f).late = s.late := rfl
@[simp] theorem State.modTherm_parked (d : Nat) (f : Thermal → Thermal) : (s.modTherm d f).parked = s.parked := rfl
@[simp] theorem State.modTherm_leases (d : Nat) (f : Thermal → Thermal) : (s.modTherm d f).leases = s.leases := rfl
@[simp] theorem State.modTherm_landings (d : Nat) (f : Thermal → Thermal) : (s.modTherm d f).landings = s.landings := rfl
@[simp] theorem State.modTherm_reorder (d : Nat) (f : Thermal → Thermal) : (s.modTherm d f).reorder = s.reorder := rfl
@[simp] theorem State.modTherm_streamsDone (d : Nat) (f : Thermal → Thermal) : (s.modTherm d f).streamsDone = s.streamsDone := rfl
@[simp] theorem State.modTherm_proxies (d : Nat) (f : Thermal → Thermal) : (s.modTherm d f).proxies = s.proxies := rfl
@[simp] theorem State.modTherm_hostFar (d : Nat) (f : Thermal → Thermal) : (s.modTherm d f).hostFar = s.hostFar := rfl
@[simp] theorem State.modTherm_unrouted (d : Nat) (f : Thermal → Thermal) : (s.modTherm d f).unrouted = s.unrouted := rfl
@[simp] theorem State.modTherm_power (d : Nat) (f : Thermal → Thermal) : (s.modTherm d f).power = s.power := rfl

/-! ### `modJob` -/

@[simp] theorem State.modJob_pkg (j : BitVec 16) (f : Job → Job) : (s.modJob j f).pkg = s.pkg := rfl
@[simp] theorem State.modJob_powered (j : BitVec 16) (f : Job → Job) : (s.modJob j f).powered = s.powered := rfl
@[simp] theorem State.modJob_clockStopped (j : BitVec 16) (f : Job → Job) : (s.modJob j f).clockStopped = s.clockStopped := rfl
@[simp] theorem State.modJob_ptime (j : BitVec 16) (f : Job → Job) : (s.modJob j f).ptime = s.ptime := rfl
@[simp] theorem State.modJob_mem (j : BitVec 16) (f : Job → Job) : (s.modJob j f).mem = s.mem := rfl
@[simp] theorem State.modJob_poison (j : BitVec 16) (f : Job → Job) : (s.modJob j f).poison = s.poison := rfl
@[simp] theorem State.modJob_empties (j : BitVec 16) (f : Job → Job) : (s.modJob j f).empties = s.empties := rfl
@[simp] theorem State.modJob_ctx (j : BitVec 16) (f : Job → Job) : (s.modJob j f).ctx = s.ctx := rfl
@[simp] theorem State.modJob_seqs (j : BitVec 16) (f : Job → Job) : (s.modJob j f).seqs = s.seqs := rfl
@[simp] theorem State.modJob_issue (j : BitVec 16) (f : Job → Job) : (s.modJob j f).issue = s.issue := rfl
@[simp] theorem State.modJob_agenda (j : BitVec 16) (f : Job → Job) : (s.modJob j f).agenda = s.agenda := rfl
@[simp] theorem State.modJob_egress (j : BitVec 16) (f : Job → Job) : (s.modJob j f).egress = s.egress := rfl
@[simp] theorem State.modJob_freeCtr (j : BitVec 16) (f : Job → Job) : (s.modJob j f).freeCtr = s.freeCtr := rfl
@[simp] theorem State.modJob_cores (j : BitVec 16) (f : Job → Job) : (s.modJob j f).cores = s.cores := rfl
@[simp] theorem State.modJob_dies (j : BitVec 16) (f : Job → Job) : (s.modJob j f).dies = s.dies := rfl
@[simp] theorem State.modJob_channels (j : BitVec 16) (f : Job → Job) : (s.modJob j f).channels = s.channels := rfl
@[simp] theorem State.modJob_trans (j : BitVec 16) (f : Job → Job) : (s.modJob j f).trans = s.trans := rfl
@[simp] theorem State.modJob_sessions (j : BitVec 16) (f : Job → Job) : (s.modJob j f).sessions = s.sessions := rfl
@[simp] theorem State.modJob_ports (j : BitVec 16) (f : Job → Job) : (s.modJob j f).ports = s.ports := rfl
@[simp] theorem State.modJob_colls (j : BitVec 16) (f : Job → Job) : (s.modJob j f).colls = s.colls := rfl
@[simp] theorem State.modJob_lifts (j : BitVec 16) (f : Job → Job) : (s.modJob j f).lifts = s.lifts := rfl
@[simp] theorem State.modJob_groups (j : BitVec 16) (f : Job → Job) : (s.modJob j f).groups = s.groups := rfl
@[simp] theorem State.modJob_conns (j : BitVec 16) (f : Job → Job) : (s.modJob j f).conns = s.conns := rfl
@[simp] theorem State.modJob_thermal (j : BitVec 16) (f : Job → Job) : (s.modJob j f).thermal = s.thermal := rfl
@[simp] theorem State.modJob_runQueue (j : BitVec 16) (f : Job → Job) : (s.modJob j f).runQueue = s.runQueue := rfl
@[simp] theorem State.modJob_crews (j : BitVec 16) (f : Job → Job) : (s.modJob j f).crews = s.crews := rfl
@[simp] theorem State.modJob_refusedWrites (j : BitVec 16) (f : Job → Job) : (s.modJob j f).refusedWrites = s.refusedWrites := rfl
@[simp] theorem State.modJob_late (j : BitVec 16) (f : Job → Job) : (s.modJob j f).late = s.late := rfl
@[simp] theorem State.modJob_parked (j : BitVec 16) (f : Job → Job) : (s.modJob j f).parked = s.parked := rfl
@[simp] theorem State.modJob_leases (j : BitVec 16) (f : Job → Job) : (s.modJob j f).leases = s.leases := rfl
@[simp] theorem State.modJob_landings (j : BitVec 16) (f : Job → Job) : (s.modJob j f).landings = s.landings := rfl
@[simp] theorem State.modJob_reorder (j : BitVec 16) (f : Job → Job) : (s.modJob j f).reorder = s.reorder := rfl
@[simp] theorem State.modJob_streamsDone (j : BitVec 16) (f : Job → Job) : (s.modJob j f).streamsDone = s.streamsDone := rfl
@[simp] theorem State.modJob_proxies (j : BitVec 16) (f : Job → Job) : (s.modJob j f).proxies = s.proxies := rfl
@[simp] theorem State.modJob_hostFar (j : BitVec 16) (f : Job → Job) : (s.modJob j f).hostFar = s.hostFar := rfl
@[simp] theorem State.modJob_unrouted (j : BitVec 16) (f : Job → Job) : (s.modJob j f).unrouted = s.unrouted := rfl
@[simp] theorem State.modJob_power (j : BitVec 16) (f : Job → Job) : (s.modJob j f).power = s.power := rfl

/-! ### `modSeq` -/

@[simp] theorem State.modSeq_pkg (h : BitVec 24) (f : Seqr → Seqr) : (s.modSeq h f).pkg = s.pkg := rfl
@[simp] theorem State.modSeq_powered (h : BitVec 24) (f : Seqr → Seqr) : (s.modSeq h f).powered = s.powered := rfl
@[simp] theorem State.modSeq_clockStopped (h : BitVec 24) (f : Seqr → Seqr) : (s.modSeq h f).clockStopped = s.clockStopped := rfl
@[simp] theorem State.modSeq_ptime (h : BitVec 24) (f : Seqr → Seqr) : (s.modSeq h f).ptime = s.ptime := rfl
@[simp] theorem State.modSeq_mem (h : BitVec 24) (f : Seqr → Seqr) : (s.modSeq h f).mem = s.mem := rfl
@[simp] theorem State.modSeq_poison (h : BitVec 24) (f : Seqr → Seqr) : (s.modSeq h f).poison = s.poison := rfl
@[simp] theorem State.modSeq_empties (h : BitVec 24) (f : Seqr → Seqr) : (s.modSeq h f).empties = s.empties := rfl
@[simp] theorem State.modSeq_ctx (h : BitVec 24) (f : Seqr → Seqr) : (s.modSeq h f).ctx = if s.ctx.handle = h then f s.ctx else s.ctx := rfl
@[simp] theorem State.modSeq_seqs (h : BitVec 24) (f : Seqr → Seqr) : (s.modSeq h f).seqs = lmod (fun q => q.handle = h) f s.seqs := rfl
@[simp] theorem State.modSeq_issue (h : BitVec 24) (f : Seqr → Seqr) : (s.modSeq h f).issue = s.issue := rfl
@[simp] theorem State.modSeq_agenda (h : BitVec 24) (f : Seqr → Seqr) : (s.modSeq h f).agenda = s.agenda := rfl
@[simp] theorem State.modSeq_egress (h : BitVec 24) (f : Seqr → Seqr) : (s.modSeq h f).egress = s.egress := rfl
@[simp] theorem State.modSeq_freeCtr (h : BitVec 24) (f : Seqr → Seqr) : (s.modSeq h f).freeCtr = s.freeCtr := rfl
@[simp] theorem State.modSeq_jobs (h : BitVec 24) (f : Seqr → Seqr) : (s.modSeq h f).jobs = s.jobs := rfl
@[simp] theorem State.modSeq_cores (h : BitVec 24) (f : Seqr → Seqr) : (s.modSeq h f).cores = s.cores := rfl
@[simp] theorem State.modSeq_dies (h : BitVec 24) (f : Seqr → Seqr) : (s.modSeq h f).dies = s.dies := rfl
@[simp] theorem State.modSeq_channels (h : BitVec 24) (f : Seqr → Seqr) : (s.modSeq h f).channels = s.channels := rfl
@[simp] theorem State.modSeq_trans (h : BitVec 24) (f : Seqr → Seqr) : (s.modSeq h f).trans = s.trans := rfl
@[simp] theorem State.modSeq_sessions (h : BitVec 24) (f : Seqr → Seqr) : (s.modSeq h f).sessions = s.sessions := rfl
@[simp] theorem State.modSeq_ports (h : BitVec 24) (f : Seqr → Seqr) : (s.modSeq h f).ports = s.ports := rfl
@[simp] theorem State.modSeq_colls (h : BitVec 24) (f : Seqr → Seqr) : (s.modSeq h f).colls = s.colls := rfl
@[simp] theorem State.modSeq_lifts (h : BitVec 24) (f : Seqr → Seqr) : (s.modSeq h f).lifts = s.lifts := rfl
@[simp] theorem State.modSeq_groups (h : BitVec 24) (f : Seqr → Seqr) : (s.modSeq h f).groups = s.groups := rfl
@[simp] theorem State.modSeq_conns (h : BitVec 24) (f : Seqr → Seqr) : (s.modSeq h f).conns = s.conns := rfl
@[simp] theorem State.modSeq_thermal (h : BitVec 24) (f : Seqr → Seqr) : (s.modSeq h f).thermal = s.thermal := rfl
@[simp] theorem State.modSeq_runQueue (h : BitVec 24) (f : Seqr → Seqr) : (s.modSeq h f).runQueue = s.runQueue := rfl
@[simp] theorem State.modSeq_crews (h : BitVec 24) (f : Seqr → Seqr) : (s.modSeq h f).crews = s.crews := rfl
@[simp] theorem State.modSeq_refusedWrites (h : BitVec 24) (f : Seqr → Seqr) : (s.modSeq h f).refusedWrites = s.refusedWrites := rfl
@[simp] theorem State.modSeq_late (h : BitVec 24) (f : Seqr → Seqr) : (s.modSeq h f).late = s.late := rfl
@[simp] theorem State.modSeq_parked (h : BitVec 24) (f : Seqr → Seqr) : (s.modSeq h f).parked = s.parked := rfl
@[simp] theorem State.modSeq_leases (h : BitVec 24) (f : Seqr → Seqr) : (s.modSeq h f).leases = s.leases := rfl
@[simp] theorem State.modSeq_landings (h : BitVec 24) (f : Seqr → Seqr) : (s.modSeq h f).landings = s.landings := rfl
@[simp] theorem State.modSeq_reorder (h : BitVec 24) (f : Seqr → Seqr) : (s.modSeq h f).reorder = s.reorder := rfl
@[simp] theorem State.modSeq_streamsDone (h : BitVec 24) (f : Seqr → Seqr) : (s.modSeq h f).streamsDone = s.streamsDone := rfl
@[simp] theorem State.modSeq_proxies (h : BitVec 24) (f : Seqr → Seqr) : (s.modSeq h f).proxies = s.proxies := rfl
@[simp] theorem State.modSeq_hostFar (h : BitVec 24) (f : Seqr → Seqr) : (s.modSeq h f).hostFar = s.hostFar := rfl
@[simp] theorem State.modSeq_unrouted (h : BitVec 24) (f : Seqr → Seqr) : (s.modSeq h f).unrouted = s.unrouted := rfl
@[simp] theorem State.modSeq_power (h : BitVec 24) (f : Seqr → Seqr) : (s.modSeq h f).power = s.power := rfl

/-! ### `wb` -/

@[simp] theorem State.wb_pkg (n : BitVec 3) (v : W64) (m : Mask) : (s.wb n v m).pkg = s.pkg := rfl
@[simp] theorem State.wb_powered (n : BitVec 3) (v : W64) (m : Mask) : (s.wb n v m).powered = s.powered := rfl
@[simp] theorem State.wb_clockStopped (n : BitVec 3) (v : W64) (m : Mask) : (s.wb n v m).clockStopped = s.clockStopped := rfl
@[simp] theorem State.wb_ptime (n : BitVec 3) (v : W64) (m : Mask) : (s.wb n v m).ptime = s.ptime := rfl
@[simp] theorem State.wb_mem (n : BitVec 3) (v : W64) (m : Mask) : (s.wb n v m).mem = s.mem := rfl
@[simp] theorem State.wb_poison (n : BitVec 3) (v : W64) (m : Mask) : (s.wb n v m).poison = s.poison := rfl
@[simp] theorem State.wb_empties (n : BitVec 3) (v : W64) (m : Mask) : (s.wb n v m).empties = s.empties := rfl
@[simp] theorem State.wb_ctx (n : BitVec 3) (v : W64) (m : Mask) : (s.wb n v m).ctx = { s.ctx with b := s.ctx.b.setIfInBounds n.toNat { val := v, taint := m } } := rfl
@[simp] theorem State.wb_seqs (n : BitVec 3) (v : W64) (m : Mask) : (s.wb n v m).seqs = s.seqs := rfl
@[simp] theorem State.wb_issue (n : BitVec 3) (v : W64) (m : Mask) : (s.wb n v m).issue = s.issue := rfl
@[simp] theorem State.wb_agenda (n : BitVec 3) (v : W64) (m : Mask) : (s.wb n v m).agenda = s.agenda := rfl
@[simp] theorem State.wb_egress (n : BitVec 3) (v : W64) (m : Mask) : (s.wb n v m).egress = s.egress := rfl
@[simp] theorem State.wb_freeCtr (n : BitVec 3) (v : W64) (m : Mask) : (s.wb n v m).freeCtr = s.freeCtr := rfl
@[simp] theorem State.wb_jobs (n : BitVec 3) (v : W64) (m : Mask) : (s.wb n v m).jobs = s.jobs := rfl
@[simp] theorem State.wb_cores (n : BitVec 3) (v : W64) (m : Mask) : (s.wb n v m).cores = s.cores := rfl
@[simp] theorem State.wb_dies (n : BitVec 3) (v : W64) (m : Mask) : (s.wb n v m).dies = s.dies := rfl
@[simp] theorem State.wb_channels (n : BitVec 3) (v : W64) (m : Mask) : (s.wb n v m).channels = s.channels := rfl
@[simp] theorem State.wb_trans (n : BitVec 3) (v : W64) (m : Mask) : (s.wb n v m).trans = s.trans := rfl
@[simp] theorem State.wb_sessions (n : BitVec 3) (v : W64) (m : Mask) : (s.wb n v m).sessions = s.sessions := rfl
@[simp] theorem State.wb_ports (n : BitVec 3) (v : W64) (m : Mask) : (s.wb n v m).ports = s.ports := rfl
@[simp] theorem State.wb_colls (n : BitVec 3) (v : W64) (m : Mask) : (s.wb n v m).colls = s.colls := rfl
@[simp] theorem State.wb_lifts (n : BitVec 3) (v : W64) (m : Mask) : (s.wb n v m).lifts = s.lifts := rfl
@[simp] theorem State.wb_groups (n : BitVec 3) (v : W64) (m : Mask) : (s.wb n v m).groups = s.groups := rfl
@[simp] theorem State.wb_conns (n : BitVec 3) (v : W64) (m : Mask) : (s.wb n v m).conns = s.conns := rfl
@[simp] theorem State.wb_thermal (n : BitVec 3) (v : W64) (m : Mask) : (s.wb n v m).thermal = s.thermal := rfl
@[simp] theorem State.wb_runQueue (n : BitVec 3) (v : W64) (m : Mask) : (s.wb n v m).runQueue = s.runQueue := rfl
@[simp] theorem State.wb_crews (n : BitVec 3) (v : W64) (m : Mask) : (s.wb n v m).crews = s.crews := rfl
@[simp] theorem State.wb_refusedWrites (n : BitVec 3) (v : W64) (m : Mask) : (s.wb n v m).refusedWrites = s.refusedWrites := rfl
@[simp] theorem State.wb_late (n : BitVec 3) (v : W64) (m : Mask) : (s.wb n v m).late = s.late := rfl
@[simp] theorem State.wb_parked (n : BitVec 3) (v : W64) (m : Mask) : (s.wb n v m).parked = s.parked := rfl
@[simp] theorem State.wb_leases (n : BitVec 3) (v : W64) (m : Mask) : (s.wb n v m).leases = s.leases := rfl
@[simp] theorem State.wb_landings (n : BitVec 3) (v : W64) (m : Mask) : (s.wb n v m).landings = s.landings := rfl
@[simp] theorem State.wb_reorder (n : BitVec 3) (v : W64) (m : Mask) : (s.wb n v m).reorder = s.reorder := rfl
@[simp] theorem State.wb_streamsDone (n : BitVec 3) (v : W64) (m : Mask) : (s.wb n v m).streamsDone = s.streamsDone := rfl
@[simp] theorem State.wb_proxies (n : BitVec 3) (v : W64) (m : Mask) : (s.wb n v m).proxies = s.proxies := rfl
@[simp] theorem State.wb_hostFar (n : BitVec 3) (v : W64) (m : Mask) : (s.wb n v m).hostFar = s.hostFar := rfl
@[simp] theorem State.wb_unrouted (n : BitVec 3) (v : W64) (m : Mask) : (s.wb n v m).unrouted = s.unrouted := rfl
@[simp] theorem State.wb_power (n : BitVec 3) (v : W64) (m : Mask) : (s.wb n v m).power = s.power := rfl

/-! ### `wv` -/

@[simp] theorem State.wv_pkg (n : Nat) (r : VReg) : (s.wv n r).pkg = s.pkg := rfl
@[simp] theorem State.wv_powered (n : Nat) (r : VReg) : (s.wv n r).powered = s.powered := rfl
@[simp] theorem State.wv_clockStopped (n : Nat) (r : VReg) : (s.wv n r).clockStopped = s.clockStopped := rfl
@[simp] theorem State.wv_ptime (n : Nat) (r : VReg) : (s.wv n r).ptime = s.ptime := rfl
@[simp] theorem State.wv_mem (n : Nat) (r : VReg) : (s.wv n r).mem = s.mem := rfl
@[simp] theorem State.wv_poison (n : Nat) (r : VReg) : (s.wv n r).poison = s.poison := rfl
@[simp] theorem State.wv_empties (n : Nat) (r : VReg) : (s.wv n r).empties = s.empties := rfl
@[simp] theorem State.wv_ctx (n : Nat) (r : VReg) : (s.wv n r).ctx = { s.ctx with v := s.ctx.v.setIfInBounds (physV s.src.vrot n) r } := rfl
@[simp] theorem State.wv_seqs (n : Nat) (r : VReg) : (s.wv n r).seqs = s.seqs := rfl
@[simp] theorem State.wv_issue (n : Nat) (r : VReg) : (s.wv n r).issue = s.issue := rfl
@[simp] theorem State.wv_agenda (n : Nat) (r : VReg) : (s.wv n r).agenda = s.agenda := rfl
@[simp] theorem State.wv_egress (n : Nat) (r : VReg) : (s.wv n r).egress = s.egress := rfl
@[simp] theorem State.wv_freeCtr (n : Nat) (r : VReg) : (s.wv n r).freeCtr = s.freeCtr := rfl
@[simp] theorem State.wv_jobs (n : Nat) (r : VReg) : (s.wv n r).jobs = s.jobs := rfl
@[simp] theorem State.wv_cores (n : Nat) (r : VReg) : (s.wv n r).cores = s.cores := rfl
@[simp] theorem State.wv_dies (n : Nat) (r : VReg) : (s.wv n r).dies = s.dies := rfl
@[simp] theorem State.wv_channels (n : Nat) (r : VReg) : (s.wv n r).channels = s.channels := rfl
@[simp] theorem State.wv_trans (n : Nat) (r : VReg) : (s.wv n r).trans = s.trans := rfl
@[simp] theorem State.wv_sessions (n : Nat) (r : VReg) : (s.wv n r).sessions = s.sessions := rfl
@[simp] theorem State.wv_ports (n : Nat) (r : VReg) : (s.wv n r).ports = s.ports := rfl
@[simp] theorem State.wv_colls (n : Nat) (r : VReg) : (s.wv n r).colls = s.colls := rfl
@[simp] theorem State.wv_lifts (n : Nat) (r : VReg) : (s.wv n r).lifts = s.lifts := rfl
@[simp] theorem State.wv_groups (n : Nat) (r : VReg) : (s.wv n r).groups = s.groups := rfl
@[simp] theorem State.wv_conns (n : Nat) (r : VReg) : (s.wv n r).conns = s.conns := rfl
@[simp] theorem State.wv_thermal (n : Nat) (r : VReg) : (s.wv n r).thermal = s.thermal := rfl
@[simp] theorem State.wv_runQueue (n : Nat) (r : VReg) : (s.wv n r).runQueue = s.runQueue := rfl
@[simp] theorem State.wv_crews (n : Nat) (r : VReg) : (s.wv n r).crews = s.crews := rfl
@[simp] theorem State.wv_refusedWrites (n : Nat) (r : VReg) : (s.wv n r).refusedWrites = s.refusedWrites := rfl
@[simp] theorem State.wv_late (n : Nat) (r : VReg) : (s.wv n r).late = s.late := rfl
@[simp] theorem State.wv_parked (n : Nat) (r : VReg) : (s.wv n r).parked = s.parked := rfl
@[simp] theorem State.wv_leases (n : Nat) (r : VReg) : (s.wv n r).leases = s.leases := rfl
@[simp] theorem State.wv_landings (n : Nat) (r : VReg) : (s.wv n r).landings = s.landings := rfl
@[simp] theorem State.wv_reorder (n : Nat) (r : VReg) : (s.wv n r).reorder = s.reorder := rfl
@[simp] theorem State.wv_streamsDone (n : Nat) (r : VReg) : (s.wv n r).streamsDone = s.streamsDone := rfl
@[simp] theorem State.wv_proxies (n : Nat) (r : VReg) : (s.wv n r).proxies = s.proxies := rfl
@[simp] theorem State.wv_hostFar (n : Nat) (r : VReg) : (s.wv n r).hostFar = s.hostFar := rfl
@[simp] theorem State.wv_unrouted (n : Nat) (r : VReg) : (s.wv n r).unrouted = s.unrouted := rfl
@[simp] theorem State.wv_power (n : Nat) (r : VReg) : (s.wv n r).power = s.power := rfl

/-! ### `orCtaint` -/

@[simp] theorem State.orCtaint_pkg (m : Mask) : (s.orCtaint m).pkg = s.pkg := rfl
@[simp] theorem State.orCtaint_powered (m : Mask) : (s.orCtaint m).powered = s.powered := rfl
@[simp] theorem State.orCtaint_clockStopped (m : Mask) : (s.orCtaint m).clockStopped = s.clockStopped := rfl
@[simp] theorem State.orCtaint_ptime (m : Mask) : (s.orCtaint m).ptime = s.ptime := rfl
@[simp] theorem State.orCtaint_mem (m : Mask) : (s.orCtaint m).mem = s.mem := rfl
@[simp] theorem State.orCtaint_poison (m : Mask) : (s.orCtaint m).poison = s.poison := rfl
@[simp] theorem State.orCtaint_empties (m : Mask) : (s.orCtaint m).empties = s.empties := rfl
@[simp] theorem State.orCtaint_ctx (m : Mask) : (s.orCtaint m).ctx = { s.ctx with ctaint := s.ctx.ctaint ||| m } := rfl
@[simp] theorem State.orCtaint_seqs (m : Mask) : (s.orCtaint m).seqs = s.seqs := rfl
@[simp] theorem State.orCtaint_issue (m : Mask) : (s.orCtaint m).issue = s.issue := rfl
@[simp] theorem State.orCtaint_agenda (m : Mask) : (s.orCtaint m).agenda = s.agenda := rfl
@[simp] theorem State.orCtaint_egress (m : Mask) : (s.orCtaint m).egress = s.egress := rfl
@[simp] theorem State.orCtaint_freeCtr (m : Mask) : (s.orCtaint m).freeCtr = s.freeCtr := rfl
@[simp] theorem State.orCtaint_jobs (m : Mask) : (s.orCtaint m).jobs = s.jobs := rfl
@[simp] theorem State.orCtaint_cores (m : Mask) : (s.orCtaint m).cores = s.cores := rfl
@[simp] theorem State.orCtaint_dies (m : Mask) : (s.orCtaint m).dies = s.dies := rfl
@[simp] theorem State.orCtaint_channels (m : Mask) : (s.orCtaint m).channels = s.channels := rfl
@[simp] theorem State.orCtaint_trans (m : Mask) : (s.orCtaint m).trans = s.trans := rfl
@[simp] theorem State.orCtaint_sessions (m : Mask) : (s.orCtaint m).sessions = s.sessions := rfl
@[simp] theorem State.orCtaint_ports (m : Mask) : (s.orCtaint m).ports = s.ports := rfl
@[simp] theorem State.orCtaint_colls (m : Mask) : (s.orCtaint m).colls = s.colls := rfl
@[simp] theorem State.orCtaint_lifts (m : Mask) : (s.orCtaint m).lifts = s.lifts := rfl
@[simp] theorem State.orCtaint_groups (m : Mask) : (s.orCtaint m).groups = s.groups := rfl
@[simp] theorem State.orCtaint_conns (m : Mask) : (s.orCtaint m).conns = s.conns := rfl
@[simp] theorem State.orCtaint_thermal (m : Mask) : (s.orCtaint m).thermal = s.thermal := rfl
@[simp] theorem State.orCtaint_runQueue (m : Mask) : (s.orCtaint m).runQueue = s.runQueue := rfl
@[simp] theorem State.orCtaint_crews (m : Mask) : (s.orCtaint m).crews = s.crews := rfl
@[simp] theorem State.orCtaint_refusedWrites (m : Mask) : (s.orCtaint m).refusedWrites = s.refusedWrites := rfl
@[simp] theorem State.orCtaint_late (m : Mask) : (s.orCtaint m).late = s.late := rfl
@[simp] theorem State.orCtaint_parked (m : Mask) : (s.orCtaint m).parked = s.parked := rfl
@[simp] theorem State.orCtaint_leases (m : Mask) : (s.orCtaint m).leases = s.leases := rfl
@[simp] theorem State.orCtaint_landings (m : Mask) : (s.orCtaint m).landings = s.landings := rfl
@[simp] theorem State.orCtaint_reorder (m : Mask) : (s.orCtaint m).reorder = s.reorder := rfl
@[simp] theorem State.orCtaint_streamsDone (m : Mask) : (s.orCtaint m).streamsDone = s.streamsDone := rfl
@[simp] theorem State.orCtaint_proxies (m : Mask) : (s.orCtaint m).proxies = s.proxies := rfl
@[simp] theorem State.orCtaint_hostFar (m : Mask) : (s.orCtaint m).hostFar = s.hostFar := rfl
@[simp] theorem State.orCtaint_unrouted (m : Mask) : (s.orCtaint m).unrouted = s.unrouted := rfl
@[simp] theorem State.orCtaint_power (m : Mask) : (s.orCtaint m).power = s.power := rfl

/-! ### `flag` -/

@[simp] theorem State.flag_pkg (f : BitVec 7) : (s.flag f).pkg = s.pkg := rfl
@[simp] theorem State.flag_powered (f : BitVec 7) : (s.flag f).powered = s.powered := rfl
@[simp] theorem State.flag_clockStopped (f : BitVec 7) : (s.flag f).clockStopped = s.clockStopped := rfl
@[simp] theorem State.flag_ptime (f : BitVec 7) : (s.flag f).ptime = s.ptime := rfl
@[simp] theorem State.flag_mem (f : BitVec 7) : (s.flag f).mem = s.mem := rfl
@[simp] theorem State.flag_poison (f : BitVec 7) : (s.flag f).poison = s.poison := rfl
@[simp] theorem State.flag_empties (f : BitVec 7) : (s.flag f).empties = s.empties := rfl
@[simp] theorem State.flag_ctx (f : BitVec 7) : (s.flag f).ctx = { s.ctx with fstat := s.ctx.fstat ||| f.zeroExtend 32 } := rfl
@[simp] theorem State.flag_seqs (f : BitVec 7) : (s.flag f).seqs = s.seqs := rfl
@[simp] theorem State.flag_issue (f : BitVec 7) : (s.flag f).issue = { s.issue with raised := s.issue.raised ||| f } := rfl
@[simp] theorem State.flag_agenda (f : BitVec 7) : (s.flag f).agenda = s.agenda := rfl
@[simp] theorem State.flag_egress (f : BitVec 7) : (s.flag f).egress = s.egress := rfl
@[simp] theorem State.flag_freeCtr (f : BitVec 7) : (s.flag f).freeCtr = s.freeCtr := rfl
@[simp] theorem State.flag_jobs (f : BitVec 7) : (s.flag f).jobs = s.jobs := rfl
@[simp] theorem State.flag_cores (f : BitVec 7) : (s.flag f).cores = s.cores := rfl
@[simp] theorem State.flag_dies (f : BitVec 7) : (s.flag f).dies = s.dies := rfl
@[simp] theorem State.flag_channels (f : BitVec 7) : (s.flag f).channels = s.channels := rfl
@[simp] theorem State.flag_trans (f : BitVec 7) : (s.flag f).trans = s.trans := rfl
@[simp] theorem State.flag_sessions (f : BitVec 7) : (s.flag f).sessions = s.sessions := rfl
@[simp] theorem State.flag_ports (f : BitVec 7) : (s.flag f).ports = s.ports := rfl
@[simp] theorem State.flag_colls (f : BitVec 7) : (s.flag f).colls = s.colls := rfl
@[simp] theorem State.flag_lifts (f : BitVec 7) : (s.flag f).lifts = s.lifts := rfl
@[simp] theorem State.flag_groups (f : BitVec 7) : (s.flag f).groups = s.groups := rfl
@[simp] theorem State.flag_conns (f : BitVec 7) : (s.flag f).conns = s.conns := rfl
@[simp] theorem State.flag_thermal (f : BitVec 7) : (s.flag f).thermal = s.thermal := rfl
@[simp] theorem State.flag_runQueue (f : BitVec 7) : (s.flag f).runQueue = s.runQueue := rfl
@[simp] theorem State.flag_crews (f : BitVec 7) : (s.flag f).crews = s.crews := rfl
@[simp] theorem State.flag_refusedWrites (f : BitVec 7) : (s.flag f).refusedWrites = s.refusedWrites := rfl
@[simp] theorem State.flag_late (f : BitVec 7) : (s.flag f).late = s.late := rfl
@[simp] theorem State.flag_parked (f : BitVec 7) : (s.flag f).parked = s.parked := rfl
@[simp] theorem State.flag_leases (f : BitVec 7) : (s.flag f).leases = s.leases := rfl
@[simp] theorem State.flag_landings (f : BitVec 7) : (s.flag f).landings = s.landings := rfl
@[simp] theorem State.flag_reorder (f : BitVec 7) : (s.flag f).reorder = s.reorder := rfl
@[simp] theorem State.flag_streamsDone (f : BitVec 7) : (s.flag f).streamsDone = s.streamsDone := rfl
@[simp] theorem State.flag_proxies (f : BitVec 7) : (s.flag f).proxies = s.proxies := rfl
@[simp] theorem State.flag_hostFar (f : BitVec 7) : (s.flag f).hostFar = s.hostFar := rfl
@[simp] theorem State.flag_unrouted (f : BitVec 7) : (s.flag f).unrouted = s.unrouted := rfl
@[simp] theorem State.flag_power (f : BitVec 7) : (s.flag f).power = s.power := rfl

/-! ### `roerrUp` -/

@[simp] theorem State.roerrUp_pkg : (s.roerrUp).pkg = s.pkg := rfl
@[simp] theorem State.roerrUp_powered : (s.roerrUp).powered = s.powered := rfl
@[simp] theorem State.roerrUp_clockStopped : (s.roerrUp).clockStopped = s.clockStopped := rfl
@[simp] theorem State.roerrUp_ptime : (s.roerrUp).ptime = s.ptime := rfl
@[simp] theorem State.roerrUp_mem : (s.roerrUp).mem = s.mem := rfl
@[simp] theorem State.roerrUp_poison : (s.roerrUp).poison = s.poison := rfl
@[simp] theorem State.roerrUp_empties : (s.roerrUp).empties = s.empties := rfl
@[simp] theorem State.roerrUp_ctx : (s.roerrUp).ctx = { s.ctx with roerr := satAdd s.ctx.roerr 1 } := rfl
@[simp] theorem State.roerrUp_seqs : (s.roerrUp).seqs = s.seqs := rfl
@[simp] theorem State.roerrUp_issue : (s.roerrUp).issue = { s.issue with roerrs := s.issue.roerrs + 1 } := rfl
@[simp] theorem State.roerrUp_agenda : (s.roerrUp).agenda = s.agenda := rfl
@[simp] theorem State.roerrUp_egress : (s.roerrUp).egress = s.egress := rfl
@[simp] theorem State.roerrUp_freeCtr : (s.roerrUp).freeCtr = s.freeCtr := rfl
@[simp] theorem State.roerrUp_jobs : (s.roerrUp).jobs = s.jobs := rfl
@[simp] theorem State.roerrUp_cores : (s.roerrUp).cores = s.cores := rfl
@[simp] theorem State.roerrUp_dies : (s.roerrUp).dies = s.dies := rfl
@[simp] theorem State.roerrUp_channels : (s.roerrUp).channels = s.channels := rfl
@[simp] theorem State.roerrUp_trans : (s.roerrUp).trans = s.trans := rfl
@[simp] theorem State.roerrUp_sessions : (s.roerrUp).sessions = s.sessions := rfl
@[simp] theorem State.roerrUp_ports : (s.roerrUp).ports = s.ports := rfl
@[simp] theorem State.roerrUp_colls : (s.roerrUp).colls = s.colls := rfl
@[simp] theorem State.roerrUp_lifts : (s.roerrUp).lifts = s.lifts := rfl
@[simp] theorem State.roerrUp_groups : (s.roerrUp).groups = s.groups := rfl
@[simp] theorem State.roerrUp_conns : (s.roerrUp).conns = s.conns := rfl
@[simp] theorem State.roerrUp_thermal : (s.roerrUp).thermal = s.thermal := rfl
@[simp] theorem State.roerrUp_runQueue : (s.roerrUp).runQueue = s.runQueue := rfl
@[simp] theorem State.roerrUp_crews : (s.roerrUp).crews = s.crews := rfl
@[simp] theorem State.roerrUp_refusedWrites : (s.roerrUp).refusedWrites = s.refusedWrites := rfl
@[simp] theorem State.roerrUp_late : (s.roerrUp).late = s.late := rfl
@[simp] theorem State.roerrUp_parked : (s.roerrUp).parked = s.parked := rfl
@[simp] theorem State.roerrUp_leases : (s.roerrUp).leases = s.leases := rfl
@[simp] theorem State.roerrUp_landings : (s.roerrUp).landings = s.landings := rfl
@[simp] theorem State.roerrUp_reorder : (s.roerrUp).reorder = s.reorder := rfl
@[simp] theorem State.roerrUp_streamsDone : (s.roerrUp).streamsDone = s.streamsDone := rfl
@[simp] theorem State.roerrUp_proxies : (s.roerrUp).proxies = s.proxies := rfl
@[simp] theorem State.roerrUp_hostFar : (s.roerrUp).hostFar = s.hostFar := rfl
@[simp] theorem State.roerrUp_unrouted : (s.roerrUp).unrouted = s.unrouted := rfl
@[simp] theorem State.roerrUp_power : (s.roerrUp).power = s.power := rfl

/-! ### `emit` -/

@[simp] theorem State.emit_pkg (p : Packet) : (s.emit p).pkg = s.pkg := rfl
@[simp] theorem State.emit_powered (p : Packet) : (s.emit p).powered = s.powered := rfl
@[simp] theorem State.emit_clockStopped (p : Packet) : (s.emit p).clockStopped = s.clockStopped := rfl
@[simp] theorem State.emit_ptime (p : Packet) : (s.emit p).ptime = s.ptime := rfl
@[simp] theorem State.emit_mem (p : Packet) : (s.emit p).mem = s.mem := rfl
@[simp] theorem State.emit_poison (p : Packet) : (s.emit p).poison = s.poison := rfl
@[simp] theorem State.emit_empties (p : Packet) : (s.emit p).empties = s.empties := rfl
@[simp] theorem State.emit_ctx (p : Packet) : (s.emit p).ctx = s.ctx := rfl
@[simp] theorem State.emit_seqs (p : Packet) : (s.emit p).seqs = s.seqs := rfl
@[simp] theorem State.emit_issue (p : Packet) : (s.emit p).issue = s.issue := rfl
@[simp] theorem State.emit_agenda (p : Packet) : (s.emit p).agenda = s.agenda := rfl
@[simp] theorem State.emit_egress (p : Packet) : (s.emit p).egress = s.egress ++ [p] := rfl
@[simp] theorem State.emit_freeCtr (p : Packet) : (s.emit p).freeCtr = s.freeCtr := rfl
@[simp] theorem State.emit_jobs (p : Packet) : (s.emit p).jobs = s.jobs := rfl
@[simp] theorem State.emit_cores (p : Packet) : (s.emit p).cores = s.cores := rfl
@[simp] theorem State.emit_dies (p : Packet) : (s.emit p).dies = s.dies := rfl
@[simp] theorem State.emit_channels (p : Packet) : (s.emit p).channels = s.channels := rfl
@[simp] theorem State.emit_trans (p : Packet) : (s.emit p).trans = s.trans := rfl
@[simp] theorem State.emit_sessions (p : Packet) : (s.emit p).sessions = s.sessions := rfl
@[simp] theorem State.emit_ports (p : Packet) : (s.emit p).ports = s.ports := rfl
@[simp] theorem State.emit_colls (p : Packet) : (s.emit p).colls = s.colls := rfl
@[simp] theorem State.emit_lifts (p : Packet) : (s.emit p).lifts = s.lifts := rfl
@[simp] theorem State.emit_groups (p : Packet) : (s.emit p).groups = s.groups := rfl
@[simp] theorem State.emit_conns (p : Packet) : (s.emit p).conns = s.conns := rfl
@[simp] theorem State.emit_thermal (p : Packet) : (s.emit p).thermal = s.thermal := rfl
@[simp] theorem State.emit_runQueue (p : Packet) : (s.emit p).runQueue = s.runQueue := rfl
@[simp] theorem State.emit_crews (p : Packet) : (s.emit p).crews = s.crews := rfl
@[simp] theorem State.emit_refusedWrites (p : Packet) : (s.emit p).refusedWrites = s.refusedWrites := rfl
@[simp] theorem State.emit_late (p : Packet) : (s.emit p).late = s.late := rfl
@[simp] theorem State.emit_parked (p : Packet) : (s.emit p).parked = s.parked := rfl
@[simp] theorem State.emit_leases (p : Packet) : (s.emit p).leases = s.leases := rfl
@[simp] theorem State.emit_landings (p : Packet) : (s.emit p).landings = s.landings := rfl
@[simp] theorem State.emit_reorder (p : Packet) : (s.emit p).reorder = s.reorder := rfl
@[simp] theorem State.emit_streamsDone (p : Packet) : (s.emit p).streamsDone = s.streamsDone := rfl
@[simp] theorem State.emit_proxies (p : Packet) : (s.emit p).proxies = s.proxies := rfl
@[simp] theorem State.emit_hostFar (p : Packet) : (s.emit p).hostFar = s.hostFar := rfl
@[simp] theorem State.emit_unrouted (p : Packet) : (s.emit p).unrouted = s.unrouted := rfl
@[simp] theorem State.emit_power (p : Packet) : (s.emit p).power = s.power := rfl

/-! ### `later` -/

@[simp] theorem State.later_pkg (a : Action) : (s.later a).pkg = s.pkg := rfl
@[simp] theorem State.later_powered (a : Action) : (s.later a).powered = s.powered := rfl
@[simp] theorem State.later_clockStopped (a : Action) : (s.later a).clockStopped = s.clockStopped := rfl
@[simp] theorem State.later_ptime (a : Action) : (s.later a).ptime = s.ptime := rfl
@[simp] theorem State.later_mem (a : Action) : (s.later a).mem = s.mem := rfl
@[simp] theorem State.later_poison (a : Action) : (s.later a).poison = s.poison := rfl
@[simp] theorem State.later_empties (a : Action) : (s.later a).empties = s.empties := rfl
@[simp] theorem State.later_ctx (a : Action) : (s.later a).ctx = s.ctx := rfl
@[simp] theorem State.later_seqs (a : Action) : (s.later a).seqs = s.seqs := rfl
@[simp] theorem State.later_issue (a : Action) : (s.later a).issue = s.issue := rfl
@[simp] theorem State.later_agenda (a : Action) : (s.later a).agenda = s.agenda ++ [a] := rfl
@[simp] theorem State.later_egress (a : Action) : (s.later a).egress = s.egress := rfl
@[simp] theorem State.later_freeCtr (a : Action) : (s.later a).freeCtr = s.freeCtr := rfl
@[simp] theorem State.later_jobs (a : Action) : (s.later a).jobs = s.jobs := rfl
@[simp] theorem State.later_cores (a : Action) : (s.later a).cores = s.cores := rfl
@[simp] theorem State.later_dies (a : Action) : (s.later a).dies = s.dies := rfl
@[simp] theorem State.later_channels (a : Action) : (s.later a).channels = s.channels := rfl
@[simp] theorem State.later_trans (a : Action) : (s.later a).trans = s.trans := rfl
@[simp] theorem State.later_sessions (a : Action) : (s.later a).sessions = s.sessions := rfl
@[simp] theorem State.later_ports (a : Action) : (s.later a).ports = s.ports := rfl
@[simp] theorem State.later_colls (a : Action) : (s.later a).colls = s.colls := rfl
@[simp] theorem State.later_lifts (a : Action) : (s.later a).lifts = s.lifts := rfl
@[simp] theorem State.later_groups (a : Action) : (s.later a).groups = s.groups := rfl
@[simp] theorem State.later_conns (a : Action) : (s.later a).conns = s.conns := rfl
@[simp] theorem State.later_thermal (a : Action) : (s.later a).thermal = s.thermal := rfl
@[simp] theorem State.later_runQueue (a : Action) : (s.later a).runQueue = s.runQueue := rfl
@[simp] theorem State.later_crews (a : Action) : (s.later a).crews = s.crews := rfl
@[simp] theorem State.later_refusedWrites (a : Action) : (s.later a).refusedWrites = s.refusedWrites := rfl
@[simp] theorem State.later_late (a : Action) : (s.later a).late = s.late := rfl
@[simp] theorem State.later_parked (a : Action) : (s.later a).parked = s.parked := rfl
@[simp] theorem State.later_leases (a : Action) : (s.later a).leases = s.leases := rfl
@[simp] theorem State.later_landings (a : Action) : (s.later a).landings = s.landings := rfl
@[simp] theorem State.later_reorder (a : Action) : (s.later a).reorder = s.reorder := rfl
@[simp] theorem State.later_streamsDone (a : Action) : (s.later a).streamsDone = s.streamsDone := rfl
@[simp] theorem State.later_proxies (a : Action) : (s.later a).proxies = s.proxies := rfl
@[simp] theorem State.later_hostFar (a : Action) : (s.later a).hostFar = s.hostFar := rfl
@[simp] theorem State.later_unrouted (a : Action) : (s.later a).unrouted = s.unrouted := rfl
@[simp] theorem State.later_power (a : Action) : (s.later a).power = s.power := rfl

/-! ### `drawFree` -/

@[simp] theorem State.drawFree_pkg : (s.drawFree).pkg = s.pkg := rfl
@[simp] theorem State.drawFree_powered : (s.drawFree).powered = s.powered := rfl
@[simp] theorem State.drawFree_clockStopped : (s.drawFree).clockStopped = s.clockStopped := rfl
@[simp] theorem State.drawFree_ptime : (s.drawFree).ptime = s.ptime := rfl
@[simp] theorem State.drawFree_mem : (s.drawFree).mem = s.mem := rfl
@[simp] theorem State.drawFree_poison : (s.drawFree).poison = s.poison := rfl
@[simp] theorem State.drawFree_empties : (s.drawFree).empties = s.empties := rfl
@[simp] theorem State.drawFree_ctx : (s.drawFree).ctx = s.ctx := rfl
@[simp] theorem State.drawFree_seqs : (s.drawFree).seqs = s.seqs := rfl
@[simp] theorem State.drawFree_issue : (s.drawFree).issue = s.issue := rfl
@[simp] theorem State.drawFree_agenda : (s.drawFree).agenda = s.agenda := rfl
@[simp] theorem State.drawFree_egress : (s.drawFree).egress = s.egress := rfl
@[simp] theorem State.drawFree_freeCtr : (s.drawFree).freeCtr = s.freeCtr + 1 := rfl
@[simp] theorem State.drawFree_jobs : (s.drawFree).jobs = s.jobs := rfl
@[simp] theorem State.drawFree_cores : (s.drawFree).cores = s.cores := rfl
@[simp] theorem State.drawFree_dies : (s.drawFree).dies = s.dies := rfl
@[simp] theorem State.drawFree_channels : (s.drawFree).channels = s.channels := rfl
@[simp] theorem State.drawFree_trans : (s.drawFree).trans = s.trans := rfl
@[simp] theorem State.drawFree_sessions : (s.drawFree).sessions = s.sessions := rfl
@[simp] theorem State.drawFree_ports : (s.drawFree).ports = s.ports := rfl
@[simp] theorem State.drawFree_colls : (s.drawFree).colls = s.colls := rfl
@[simp] theorem State.drawFree_lifts : (s.drawFree).lifts = s.lifts := rfl
@[simp] theorem State.drawFree_groups : (s.drawFree).groups = s.groups := rfl
@[simp] theorem State.drawFree_conns : (s.drawFree).conns = s.conns := rfl
@[simp] theorem State.drawFree_thermal : (s.drawFree).thermal = s.thermal := rfl
@[simp] theorem State.drawFree_runQueue : (s.drawFree).runQueue = s.runQueue := rfl
@[simp] theorem State.drawFree_crews : (s.drawFree).crews = s.crews := rfl
@[simp] theorem State.drawFree_refusedWrites : (s.drawFree).refusedWrites = s.refusedWrites := rfl
@[simp] theorem State.drawFree_late : (s.drawFree).late = s.late := rfl
@[simp] theorem State.drawFree_parked : (s.drawFree).parked = s.parked := rfl
@[simp] theorem State.drawFree_leases : (s.drawFree).leases = s.leases := rfl
@[simp] theorem State.drawFree_landings : (s.drawFree).landings = s.landings := rfl
@[simp] theorem State.drawFree_reorder : (s.drawFree).reorder = s.reorder := rfl
@[simp] theorem State.drawFree_streamsDone : (s.drawFree).streamsDone = s.streamsDone := rfl
@[simp] theorem State.drawFree_proxies : (s.drawFree).proxies = s.proxies := rfl
@[simp] theorem State.drawFree_hostFar : (s.drawFree).hostFar = s.hostFar := rfl
@[simp] theorem State.drawFree_unrouted : (s.drawFree).unrouted = s.unrouted := rfl
@[simp] theorem State.drawFree_power : (s.drawFree).power = s.power := rfl

/-! ### `leaveLdfe` -/

@[simp] theorem State.leaveLdfe_pkg (p : BitVec 15) (h : BitVec 24) : (s.leaveLdfe p h).pkg = s.pkg := rfl
@[simp] theorem State.leaveLdfe_powered (p : BitVec 15) (h : BitVec 24) : (s.leaveLdfe p h).powered = s.powered := rfl
@[simp] theorem State.leaveLdfe_clockStopped (p : BitVec 15) (h : BitVec 24) : (s.leaveLdfe p h).clockStopped = s.clockStopped := rfl
@[simp] theorem State.leaveLdfe_ptime (p : BitVec 15) (h : BitVec 24) : (s.leaveLdfe p h).ptime = s.ptime := rfl
@[simp] theorem State.leaveLdfe_mem (p : BitVec 15) (h : BitVec 24) : (s.leaveLdfe p h).mem = s.mem := rfl
@[simp] theorem State.leaveLdfe_poison (p : BitVec 15) (h : BitVec 24) : (s.leaveLdfe p h).poison = s.poison := rfl
@[simp] theorem State.leaveLdfe_empties (p : BitVec 15) (h : BitVec 24) : (s.leaveLdfe p h).empties = s.empties := rfl
@[simp] theorem State.leaveLdfe_ctx (p : BitVec 15) (h : BitVec 24) : (s.leaveLdfe p h).ctx = s.ctx := rfl
@[simp] theorem State.leaveLdfe_seqs (p : BitVec 15) (h : BitVec 24) : (s.leaveLdfe p h).seqs = s.seqs := rfl
@[simp] theorem State.leaveLdfe_issue (p : BitVec 15) (h : BitVec 24) : (s.leaveLdfe p h).issue = s.issue := rfl
@[simp] theorem State.leaveLdfe_agenda (p : BitVec 15) (h : BitVec 24) : (s.leaveLdfe p h).agenda = s.agenda := rfl
@[simp] theorem State.leaveLdfe_egress (p : BitVec 15) (h : BitVec 24) : (s.leaveLdfe p h).egress = s.egress := rfl
@[simp] theorem State.leaveLdfe_freeCtr (p : BitVec 15) (h : BitVec 24) : (s.leaveLdfe p h).freeCtr = s.freeCtr := rfl
@[simp] theorem State.leaveLdfe_jobs (p : BitVec 15) (h : BitVec 24) : (s.leaveLdfe p h).jobs = s.jobs := rfl
@[simp] theorem State.leaveLdfe_cores (p : BitVec 15) (h : BitVec 24) : (s.leaveLdfe p h).cores = s.cores := rfl
@[simp] theorem State.leaveLdfe_dies (p : BitVec 15) (h : BitVec 24) : (s.leaveLdfe p h).dies = s.dies := rfl
@[simp] theorem State.leaveLdfe_channels (p : BitVec 15) (h : BitVec 24) : (s.leaveLdfe p h).channels = s.channels := rfl
@[simp] theorem State.leaveLdfe_trans (p : BitVec 15) (h : BitVec 24) : (s.leaveLdfe p h).trans = s.trans := rfl
@[simp] theorem State.leaveLdfe_sessions (p : BitVec 15) (h : BitVec 24) : (s.leaveLdfe p h).sessions = s.sessions := rfl
@[simp] theorem State.leaveLdfe_ports (p : BitVec 15) (h : BitVec 24) : (s.leaveLdfe p h).ports = s.ports := rfl
@[simp] theorem State.leaveLdfe_colls (p : BitVec 15) (h : BitVec 24) : (s.leaveLdfe p h).colls = s.colls := rfl
@[simp] theorem State.leaveLdfe_lifts (p : BitVec 15) (h : BitVec 24) : (s.leaveLdfe p h).lifts = s.lifts := rfl
@[simp] theorem State.leaveLdfe_groups (p : BitVec 15) (h : BitVec 24) : (s.leaveLdfe p h).groups = s.groups := rfl
@[simp] theorem State.leaveLdfe_conns (p : BitVec 15) (h : BitVec 24) : (s.leaveLdfe p h).conns = s.conns := rfl
@[simp] theorem State.leaveLdfe_thermal (p : BitVec 15) (h : BitVec 24) : (s.leaveLdfe p h).thermal = s.thermal := rfl
@[simp] theorem State.leaveLdfe_runQueue (p : BitVec 15) (h : BitVec 24) : (s.leaveLdfe p h).runQueue = s.runQueue := rfl
@[simp] theorem State.leaveLdfe_crews (p : BitVec 15) (h : BitVec 24) : (s.leaveLdfe p h).crews = s.crews := rfl
@[simp] theorem State.leaveLdfe_refusedWrites (p : BitVec 15) (h : BitVec 24) : (s.leaveLdfe p h).refusedWrites = s.refusedWrites := rfl
@[simp] theorem State.leaveLdfe_late (p : BitVec 15) (h : BitVec 24) : (s.leaveLdfe p h).late = s.late := rfl
@[simp] theorem State.leaveLdfe_parked (p : BitVec 15) (h : BitVec 24) : (s.leaveLdfe p h).parked = s.parked := rfl
@[simp] theorem State.leaveLdfe_leases (p : BitVec 15) (h : BitVec 24) : (s.leaveLdfe p h).leases = s.leases := rfl
@[simp] theorem State.leaveLdfe_landings (p : BitVec 15) (h : BitVec 24) : (s.leaveLdfe p h).landings = s.landings := rfl
@[simp] theorem State.leaveLdfe_reorder (p : BitVec 15) (h : BitVec 24) : (s.leaveLdfe p h).reorder = s.reorder := rfl
@[simp] theorem State.leaveLdfe_streamsDone (p : BitVec 15) (h : BitVec 24) : (s.leaveLdfe p h).streamsDone = s.streamsDone := rfl
@[simp] theorem State.leaveLdfe_proxies (p : BitVec 15) (h : BitVec 24) : (s.leaveLdfe p h).proxies = s.proxies := rfl
@[simp] theorem State.leaveLdfe_hostFar (p : BitVec 15) (h : BitVec 24) : (s.leaveLdfe p h).hostFar = s.hostFar := rfl
@[simp] theorem State.leaveLdfe_unrouted (p : BitVec 15) (h : BitVec 24) : (s.leaveLdfe p h).unrouted = s.unrouted := rfl
@[simp] theorem State.leaveLdfe_power (p : BitVec 15) (h : BitVec 24) : (s.leaveLdfe p h).power = s.power := rfl

/-! ### `migrationHold` -/

@[simp] theorem State.migrationHold_pkg (a : Nat) (w : HeldWrite) : (s.migrationHold a w).pkg = s.pkg := rfl
@[simp] theorem State.migrationHold_powered (a : Nat) (w : HeldWrite) : (s.migrationHold a w).powered = s.powered := rfl
@[simp] theorem State.migrationHold_clockStopped (a : Nat) (w : HeldWrite) : (s.migrationHold a w).clockStopped = s.clockStopped := rfl
@[simp] theorem State.migrationHold_ptime (a : Nat) (w : HeldWrite) : (s.migrationHold a w).ptime = s.ptime := rfl
@[simp] theorem State.migrationHold_mem (a : Nat) (w : HeldWrite) : (s.migrationHold a w).mem = s.mem := rfl
@[simp] theorem State.migrationHold_poison (a : Nat) (w : HeldWrite) : (s.migrationHold a w).poison = s.poison := rfl
@[simp] theorem State.migrationHold_empties (a : Nat) (w : HeldWrite) : (s.migrationHold a w).empties = s.empties := rfl
@[simp] theorem State.migrationHold_ctx (a : Nat) (w : HeldWrite) : (s.migrationHold a w).ctx = s.ctx := rfl
@[simp] theorem State.migrationHold_seqs (a : Nat) (w : HeldWrite) : (s.migrationHold a w).seqs = s.seqs := rfl
@[simp] theorem State.migrationHold_issue (a : Nat) (w : HeldWrite) : (s.migrationHold a w).issue = s.issue := rfl
@[simp] theorem State.migrationHold_agenda (a : Nat) (w : HeldWrite) : (s.migrationHold a w).agenda = s.agenda := rfl
@[simp] theorem State.migrationHold_egress (a : Nat) (w : HeldWrite) : (s.migrationHold a w).egress = s.egress := rfl
@[simp] theorem State.migrationHold_freeCtr (a : Nat) (w : HeldWrite) : (s.migrationHold a w).freeCtr = s.freeCtr := rfl
@[simp] theorem State.migrationHold_jobs (a : Nat) (w : HeldWrite) : (s.migrationHold a w).jobs = s.jobs := rfl
@[simp] theorem State.migrationHold_cores (a : Nat) (w : HeldWrite) : (s.migrationHold a w).cores = s.cores := rfl
@[simp] theorem State.migrationHold_dies (a : Nat) (w : HeldWrite) : (s.migrationHold a w).dies = s.dies := rfl
@[simp] theorem State.migrationHold_channels (a : Nat) (w : HeldWrite) : (s.migrationHold a w).channels = s.channels := rfl
@[simp] theorem State.migrationHold_sessions (a : Nat) (w : HeldWrite) : (s.migrationHold a w).sessions = s.sessions := rfl
@[simp] theorem State.migrationHold_ports (a : Nat) (w : HeldWrite) : (s.migrationHold a w).ports = s.ports := rfl
@[simp] theorem State.migrationHold_colls (a : Nat) (w : HeldWrite) : (s.migrationHold a w).colls = s.colls := rfl
@[simp] theorem State.migrationHold_lifts (a : Nat) (w : HeldWrite) : (s.migrationHold a w).lifts = s.lifts := rfl
@[simp] theorem State.migrationHold_groups (a : Nat) (w : HeldWrite) : (s.migrationHold a w).groups = s.groups := rfl
@[simp] theorem State.migrationHold_conns (a : Nat) (w : HeldWrite) : (s.migrationHold a w).conns = s.conns := rfl
@[simp] theorem State.migrationHold_thermal (a : Nat) (w : HeldWrite) : (s.migrationHold a w).thermal = s.thermal := rfl
@[simp] theorem State.migrationHold_runQueue (a : Nat) (w : HeldWrite) : (s.migrationHold a w).runQueue = s.runQueue := rfl
@[simp] theorem State.migrationHold_crews (a : Nat) (w : HeldWrite) : (s.migrationHold a w).crews = s.crews := rfl
@[simp] theorem State.migrationHold_refusedWrites (a : Nat) (w : HeldWrite) : (s.migrationHold a w).refusedWrites = s.refusedWrites := rfl
@[simp] theorem State.migrationHold_late (a : Nat) (w : HeldWrite) : (s.migrationHold a w).late = s.late := rfl
@[simp] theorem State.migrationHold_parked (a : Nat) (w : HeldWrite) : (s.migrationHold a w).parked = s.parked := rfl
@[simp] theorem State.migrationHold_leases (a : Nat) (w : HeldWrite) : (s.migrationHold a w).leases = s.leases := rfl
@[simp] theorem State.migrationHold_landings (a : Nat) (w : HeldWrite) : (s.migrationHold a w).landings = s.landings := rfl
@[simp] theorem State.migrationHold_reorder (a : Nat) (w : HeldWrite) : (s.migrationHold a w).reorder = s.reorder := rfl
@[simp] theorem State.migrationHold_streamsDone (a : Nat) (w : HeldWrite) : (s.migrationHold a w).streamsDone = s.streamsDone := rfl
@[simp] theorem State.migrationHold_proxies (a : Nat) (w : HeldWrite) : (s.migrationHold a w).proxies = s.proxies := rfl
@[simp] theorem State.migrationHold_hostFar (a : Nat) (w : HeldWrite) : (s.migrationHold a w).hostFar = s.hostFar := rfl
@[simp] theorem State.migrationHold_unrouted (a : Nat) (w : HeldWrite) : (s.migrationHold a w).unrouted = s.unrouted := rfl
@[simp] theorem State.migrationHold_power (a : Nat) (w : HeldWrite) : (s.migrationHold a w).power = s.power := rfl

/-! ### `trapReturn` -/

@[simp] theorem State.trapReturn_pkg : (s.trapReturn).pkg = s.pkg := rfl
@[simp] theorem State.trapReturn_powered : (s.trapReturn).powered = s.powered := rfl
@[simp] theorem State.trapReturn_clockStopped : (s.trapReturn).clockStopped = s.clockStopped := rfl
@[simp] theorem State.trapReturn_ptime : (s.trapReturn).ptime = s.ptime := rfl
@[simp] theorem State.trapReturn_mem : (s.trapReturn).mem = s.mem := rfl
@[simp] theorem State.trapReturn_poison : (s.trapReturn).poison = s.poison := rfl
@[simp] theorem State.trapReturn_empties : (s.trapReturn).empties = s.empties := rfl
@[simp] theorem State.trapReturn_ctx : (s.trapReturn).ctx = s.ctx := rfl
@[simp] theorem State.trapReturn_seqs : (s.trapReturn).seqs = s.seqs := rfl
@[simp] theorem State.trapReturn_issue : (s.trapReturn).issue = { s.issue with npc := some s.src.epc } := rfl
@[simp] theorem State.trapReturn_agenda : (s.trapReturn).agenda = s.agenda := rfl
@[simp] theorem State.trapReturn_egress : (s.trapReturn).egress = s.egress := rfl
@[simp] theorem State.trapReturn_freeCtr : (s.trapReturn).freeCtr = s.freeCtr := rfl
@[simp] theorem State.trapReturn_jobs : (s.trapReturn).jobs = s.jobs := rfl
@[simp] theorem State.trapReturn_cores : (s.trapReturn).cores = s.cores := rfl
@[simp] theorem State.trapReturn_dies : (s.trapReturn).dies = s.dies := rfl
@[simp] theorem State.trapReturn_channels : (s.trapReturn).channels = s.channels := rfl
@[simp] theorem State.trapReturn_trans : (s.trapReturn).trans = s.trans := rfl
@[simp] theorem State.trapReturn_sessions : (s.trapReturn).sessions = s.sessions := rfl
@[simp] theorem State.trapReturn_ports : (s.trapReturn).ports = s.ports := rfl
@[simp] theorem State.trapReturn_colls : (s.trapReturn).colls = s.colls := rfl
@[simp] theorem State.trapReturn_lifts : (s.trapReturn).lifts = s.lifts := rfl
@[simp] theorem State.trapReturn_groups : (s.trapReturn).groups = s.groups := rfl
@[simp] theorem State.trapReturn_conns : (s.trapReturn).conns = s.conns := rfl
@[simp] theorem State.trapReturn_thermal : (s.trapReturn).thermal = s.thermal := rfl
@[simp] theorem State.trapReturn_runQueue : (s.trapReturn).runQueue = s.runQueue := rfl
@[simp] theorem State.trapReturn_crews : (s.trapReturn).crews = s.crews := rfl
@[simp] theorem State.trapReturn_refusedWrites : (s.trapReturn).refusedWrites = s.refusedWrites := rfl
@[simp] theorem State.trapReturn_late : (s.trapReturn).late = s.late := rfl
@[simp] theorem State.trapReturn_parked : (s.trapReturn).parked = s.parked := rfl
@[simp] theorem State.trapReturn_leases : (s.trapReturn).leases = s.leases := rfl
@[simp] theorem State.trapReturn_landings : (s.trapReturn).landings = s.landings := rfl
@[simp] theorem State.trapReturn_reorder : (s.trapReturn).reorder = s.reorder := rfl
@[simp] theorem State.trapReturn_streamsDone : (s.trapReturn).streamsDone = s.streamsDone := rfl
@[simp] theorem State.trapReturn_proxies : (s.trapReturn).proxies = s.proxies := rfl
@[simp] theorem State.trapReturn_hostFar : (s.trapReturn).hostFar = s.hostFar := rfl
@[simp] theorem State.trapReturn_unrouted : (s.trapReturn).unrouted = s.unrouted := rfl
@[simp] theorem State.trapReturn_power : (s.trapReturn).power = s.power := rfl

/-! ### `wg` -/

@[simp] theorem State.wg_pkg (n : BitVec 5) (v : W32) (m : Mask) : (s.wg n v m).pkg = s.pkg := by unfold State.wg; split <;> rfl
@[simp] theorem State.wg_powered (n : BitVec 5) (v : W32) (m : Mask) : (s.wg n v m).powered = s.powered := by unfold State.wg; split <;> rfl
@[simp] theorem State.wg_clockStopped (n : BitVec 5) (v : W32) (m : Mask) : (s.wg n v m).clockStopped = s.clockStopped := by unfold State.wg; split <;> rfl
@[simp] theorem State.wg_ptime (n : BitVec 5) (v : W32) (m : Mask) : (s.wg n v m).ptime = s.ptime := by unfold State.wg; split <;> rfl
@[simp] theorem State.wg_mem (n : BitVec 5) (v : W32) (m : Mask) : (s.wg n v m).mem = s.mem := by unfold State.wg; split <;> rfl
@[simp] theorem State.wg_poison (n : BitVec 5) (v : W32) (m : Mask) : (s.wg n v m).poison = s.poison := by unfold State.wg; split <;> rfl
@[simp] theorem State.wg_empties (n : BitVec 5) (v : W32) (m : Mask) : (s.wg n v m).empties = s.empties := by unfold State.wg; split <;> rfl
@[simp] theorem State.wg_seqs (n : BitVec 5) (v : W32) (m : Mask) : (s.wg n v m).seqs = s.seqs := by unfold State.wg; split <;> rfl
@[simp] theorem State.wg_issue (n : BitVec 5) (v : W32) (m : Mask) : (s.wg n v m).issue = s.issue := by unfold State.wg; split <;> rfl
@[simp] theorem State.wg_agenda (n : BitVec 5) (v : W32) (m : Mask) : (s.wg n v m).agenda = s.agenda := by unfold State.wg; split <;> rfl
@[simp] theorem State.wg_egress (n : BitVec 5) (v : W32) (m : Mask) : (s.wg n v m).egress = s.egress := by unfold State.wg; split <;> rfl
@[simp] theorem State.wg_freeCtr (n : BitVec 5) (v : W32) (m : Mask) : (s.wg n v m).freeCtr = s.freeCtr := by unfold State.wg; split <;> rfl
@[simp] theorem State.wg_jobs (n : BitVec 5) (v : W32) (m : Mask) : (s.wg n v m).jobs = s.jobs := by unfold State.wg; split <;> rfl
@[simp] theorem State.wg_cores (n : BitVec 5) (v : W32) (m : Mask) : (s.wg n v m).cores = s.cores := by unfold State.wg; split <;> rfl
@[simp] theorem State.wg_dies (n : BitVec 5) (v : W32) (m : Mask) : (s.wg n v m).dies = s.dies := by unfold State.wg; split <;> rfl
@[simp] theorem State.wg_channels (n : BitVec 5) (v : W32) (m : Mask) : (s.wg n v m).channels = s.channels := by unfold State.wg; split <;> rfl
@[simp] theorem State.wg_trans (n : BitVec 5) (v : W32) (m : Mask) : (s.wg n v m).trans = s.trans := by unfold State.wg; split <;> rfl
@[simp] theorem State.wg_sessions (n : BitVec 5) (v : W32) (m : Mask) : (s.wg n v m).sessions = s.sessions := by unfold State.wg; split <;> rfl
@[simp] theorem State.wg_ports (n : BitVec 5) (v : W32) (m : Mask) : (s.wg n v m).ports = s.ports := by unfold State.wg; split <;> rfl
@[simp] theorem State.wg_colls (n : BitVec 5) (v : W32) (m : Mask) : (s.wg n v m).colls = s.colls := by unfold State.wg; split <;> rfl
@[simp] theorem State.wg_lifts (n : BitVec 5) (v : W32) (m : Mask) : (s.wg n v m).lifts = s.lifts := by unfold State.wg; split <;> rfl
@[simp] theorem State.wg_groups (n : BitVec 5) (v : W32) (m : Mask) : (s.wg n v m).groups = s.groups := by unfold State.wg; split <;> rfl
@[simp] theorem State.wg_conns (n : BitVec 5) (v : W32) (m : Mask) : (s.wg n v m).conns = s.conns := by unfold State.wg; split <;> rfl
@[simp] theorem State.wg_thermal (n : BitVec 5) (v : W32) (m : Mask) : (s.wg n v m).thermal = s.thermal := by unfold State.wg; split <;> rfl
@[simp] theorem State.wg_runQueue (n : BitVec 5) (v : W32) (m : Mask) : (s.wg n v m).runQueue = s.runQueue := by unfold State.wg; split <;> rfl
@[simp] theorem State.wg_crews (n : BitVec 5) (v : W32) (m : Mask) : (s.wg n v m).crews = s.crews := by unfold State.wg; split <;> rfl
@[simp] theorem State.wg_refusedWrites (n : BitVec 5) (v : W32) (m : Mask) : (s.wg n v m).refusedWrites = s.refusedWrites := by unfold State.wg; split <;> rfl
@[simp] theorem State.wg_late (n : BitVec 5) (v : W32) (m : Mask) : (s.wg n v m).late = s.late := by unfold State.wg; split <;> rfl
@[simp] theorem State.wg_parked (n : BitVec 5) (v : W32) (m : Mask) : (s.wg n v m).parked = s.parked := by unfold State.wg; split <;> rfl
@[simp] theorem State.wg_leases (n : BitVec 5) (v : W32) (m : Mask) : (s.wg n v m).leases = s.leases := by unfold State.wg; split <;> rfl
@[simp] theorem State.wg_landings (n : BitVec 5) (v : W32) (m : Mask) : (s.wg n v m).landings = s.landings := by unfold State.wg; split <;> rfl
@[simp] theorem State.wg_reorder (n : BitVec 5) (v : W32) (m : Mask) : (s.wg n v m).reorder = s.reorder := by unfold State.wg; split <;> rfl
@[simp] theorem State.wg_streamsDone (n : BitVec 5) (v : W32) (m : Mask) : (s.wg n v m).streamsDone = s.streamsDone := by unfold State.wg; split <;> rfl
@[simp] theorem State.wg_proxies (n : BitVec 5) (v : W32) (m : Mask) : (s.wg n v m).proxies = s.proxies := by unfold State.wg; split <;> rfl
@[simp] theorem State.wg_hostFar (n : BitVec 5) (v : W32) (m : Mask) : (s.wg n v m).hostFar = s.hostFar := by unfold State.wg; split <;> rfl
@[simp] theorem State.wg_unrouted (n : BitVec 5) (v : W32) (m : Mask) : (s.wg n v m).unrouted = s.unrouted := by unfold State.wg; split <;> rfl
@[simp] theorem State.wg_power (n : BitVec 5) (v : W32) (m : Mask) : (s.wg n v m).power = s.power := by unfold State.wg; split <;> rfl

/-! ### `wk` -/

@[simp] theorem State.wk_pkg (n : BitVec 3) (v : W64) (m : Mask) : (s.wk n v m).pkg = s.pkg := by unfold State.wk; split <;> rfl
@[simp] theorem State.wk_powered (n : BitVec 3) (v : W64) (m : Mask) : (s.wk n v m).powered = s.powered := by unfold State.wk; split <;> rfl
@[simp] theorem State.wk_clockStopped (n : BitVec 3) (v : W64) (m : Mask) : (s.wk n v m).clockStopped = s.clockStopped := by unfold State.wk; split <;> rfl
@[simp] theorem State.wk_ptime (n : BitVec 3) (v : W64) (m : Mask) : (s.wk n v m).ptime = s.ptime := by unfold State.wk; split <;> rfl
@[simp] theorem State.wk_mem (n : BitVec 3) (v : W64) (m : Mask) : (s.wk n v m).mem = s.mem := by unfold State.wk; split <;> rfl
@[simp] theorem State.wk_poison (n : BitVec 3) (v : W64) (m : Mask) : (s.wk n v m).poison = s.poison := by unfold State.wk; split <;> rfl
@[simp] theorem State.wk_empties (n : BitVec 3) (v : W64) (m : Mask) : (s.wk n v m).empties = s.empties := by unfold State.wk; split <;> rfl
@[simp] theorem State.wk_seqs (n : BitVec 3) (v : W64) (m : Mask) : (s.wk n v m).seqs = s.seqs := by unfold State.wk; split <;> rfl
@[simp] theorem State.wk_issue (n : BitVec 3) (v : W64) (m : Mask) : (s.wk n v m).issue = s.issue := by unfold State.wk; split <;> rfl
@[simp] theorem State.wk_agenda (n : BitVec 3) (v : W64) (m : Mask) : (s.wk n v m).agenda = s.agenda := by unfold State.wk; split <;> rfl
@[simp] theorem State.wk_egress (n : BitVec 3) (v : W64) (m : Mask) : (s.wk n v m).egress = s.egress := by unfold State.wk; split <;> rfl
@[simp] theorem State.wk_freeCtr (n : BitVec 3) (v : W64) (m : Mask) : (s.wk n v m).freeCtr = s.freeCtr := by unfold State.wk; split <;> rfl
@[simp] theorem State.wk_jobs (n : BitVec 3) (v : W64) (m : Mask) : (s.wk n v m).jobs = s.jobs := by unfold State.wk; split <;> rfl
@[simp] theorem State.wk_cores (n : BitVec 3) (v : W64) (m : Mask) : (s.wk n v m).cores = s.cores := by unfold State.wk; split <;> rfl
@[simp] theorem State.wk_dies (n : BitVec 3) (v : W64) (m : Mask) : (s.wk n v m).dies = s.dies := by unfold State.wk; split <;> rfl
@[simp] theorem State.wk_channels (n : BitVec 3) (v : W64) (m : Mask) : (s.wk n v m).channels = s.channels := by unfold State.wk; split <;> rfl
@[simp] theorem State.wk_trans (n : BitVec 3) (v : W64) (m : Mask) : (s.wk n v m).trans = s.trans := by unfold State.wk; split <;> rfl
@[simp] theorem State.wk_sessions (n : BitVec 3) (v : W64) (m : Mask) : (s.wk n v m).sessions = s.sessions := by unfold State.wk; split <;> rfl
@[simp] theorem State.wk_ports (n : BitVec 3) (v : W64) (m : Mask) : (s.wk n v m).ports = s.ports := by unfold State.wk; split <;> rfl
@[simp] theorem State.wk_colls (n : BitVec 3) (v : W64) (m : Mask) : (s.wk n v m).colls = s.colls := by unfold State.wk; split <;> rfl
@[simp] theorem State.wk_lifts (n : BitVec 3) (v : W64) (m : Mask) : (s.wk n v m).lifts = s.lifts := by unfold State.wk; split <;> rfl
@[simp] theorem State.wk_groups (n : BitVec 3) (v : W64) (m : Mask) : (s.wk n v m).groups = s.groups := by unfold State.wk; split <;> rfl
@[simp] theorem State.wk_conns (n : BitVec 3) (v : W64) (m : Mask) : (s.wk n v m).conns = s.conns := by unfold State.wk; split <;> rfl
@[simp] theorem State.wk_thermal (n : BitVec 3) (v : W64) (m : Mask) : (s.wk n v m).thermal = s.thermal := by unfold State.wk; split <;> rfl
@[simp] theorem State.wk_runQueue (n : BitVec 3) (v : W64) (m : Mask) : (s.wk n v m).runQueue = s.runQueue := by unfold State.wk; split <;> rfl
@[simp] theorem State.wk_crews (n : BitVec 3) (v : W64) (m : Mask) : (s.wk n v m).crews = s.crews := by unfold State.wk; split <;> rfl
@[simp] theorem State.wk_refusedWrites (n : BitVec 3) (v : W64) (m : Mask) : (s.wk n v m).refusedWrites = s.refusedWrites := by unfold State.wk; split <;> rfl
@[simp] theorem State.wk_late (n : BitVec 3) (v : W64) (m : Mask) : (s.wk n v m).late = s.late := by unfold State.wk; split <;> rfl
@[simp] theorem State.wk_parked (n : BitVec 3) (v : W64) (m : Mask) : (s.wk n v m).parked = s.parked := by unfold State.wk; split <;> rfl
@[simp] theorem State.wk_leases (n : BitVec 3) (v : W64) (m : Mask) : (s.wk n v m).leases = s.leases := by unfold State.wk; split <;> rfl
@[simp] theorem State.wk_landings (n : BitVec 3) (v : W64) (m : Mask) : (s.wk n v m).landings = s.landings := by unfold State.wk; split <;> rfl
@[simp] theorem State.wk_reorder (n : BitVec 3) (v : W64) (m : Mask) : (s.wk n v m).reorder = s.reorder := by unfold State.wk; split <;> rfl
@[simp] theorem State.wk_streamsDone (n : BitVec 3) (v : W64) (m : Mask) : (s.wk n v m).streamsDone = s.streamsDone := by unfold State.wk; split <;> rfl
@[simp] theorem State.wk_proxies (n : BitVec 3) (v : W64) (m : Mask) : (s.wk n v m).proxies = s.proxies := by unfold State.wk; split <;> rfl
@[simp] theorem State.wk_hostFar (n : BitVec 3) (v : W64) (m : Mask) : (s.wk n v m).hostFar = s.hostFar := by unfold State.wk; split <;> rfl
@[simp] theorem State.wk_unrouted (n : BitVec 3) (v : W64) (m : Mask) : (s.wk n v m).unrouted = s.unrouted := by unfold State.wk; split <;> rfl
@[simp] theorem State.wk_power (n : BitVec 3) (v : W64) (m : Mask) : (s.wk n v m).power = s.power := by unfold State.wk; split <;> rfl

end Sys2Proof.Machine
end

