-- ==== Sys2Proof/Laws/Memory.lean ====
section
/-!
SUPPORT. The laws of tables and of memory: a read after a write, and that every memory operation keeps the canonical form.
-/

namespace Sys2Proof.Machine

/-! ### Tables -/

theorem tget_tset {α : Type} (d : α) (t : Table α) (k j : Nat) (v : α) :
    tget d (tset k v t) j = if j = k then v else tget d t j := by
  induction t with
  | nil => rfl
  | cons e t ih =>
    obtain ⟨i, w⟩ := e
    simp only [tset]
    split
    · rfl
    · split
      · subst k
        by_cases h : j = i <;> simp [tget, h]
      · by_cases h : j = i
        · subst h
          simp [tget, show j ≠ k by omega]
        · simp [tget, h, ih]

@[simp] theorem tget_tset_self {α : Type} (d : α) (t : Table α) (k : Nat) (v : α) : tget d (tset k v t) k = v := by
  simp [tget_tset]

theorem tget_tset_other {α : Type} (d : α) (t : Table α) {k j : Nat} (v : α) (h : j ≠ k) :
    tget d (tset k v t) j = tget d t j := by
  simp [tget_tset, h]

@[simp] theorem coreOf_modCore (s : State) (n : Nat) (f : Core → Core) : (s.modCore n f).coreOf n = f (s.coreOf n) :=
  tget_tset_self _ _ _ _

@[simp] theorem dieAt_modDie (s : State) (d : Nat) (f : Die → Die) : (s.modDie d f).dieAt d = f (s.dieAt d) :=
  tget_tset_self _ _ _ _

@[simp] theorem chan_modChan (s : State) (d c : Nat) (f : Channel → Channel) : (s.modChan d c f).chan d c = f (s.chan d c) :=
  tget_tset_self _ _ _ _

@[simp] theorem session_modSession (s : State) (n : Nat) (f : Session → Session) :
    (s.modSession n f).session n = f (s.session n) :=
  tget_tset_self _ _ _ _

theorem session_modSession_other (s : State) {n m : Nat} (f : Session → Session) (h : m ≠ n) :
    (s.modSession n f).session m = s.session m :=
  tget_tset_other _ _ _ h

@[simp] theorem port_modPort (s : State) (p : Nat) (f : Port → Port) : (s.modPort p f).port p = f (s.port p) :=
  tget_tset_self _ _ _ _

@[simp] theorem coll_modColl (s : State) (c : Nat) (f : Coll → Coll) : (s.modColl c f).coll c = f (s.coll c) :=
  tget_tset_self _ _ _ _

/-! ### One byte -/

/-- An address below every listed one reads as an unlisted address does. -/
theorem Memory.read_above {a b : Nat} {m : List Host.Cell} (h : Memory.above a m = true) (hb : b ≤ a) :
    Memory.read m b = Memory.unlisted := by
  induction m with
  | nil => rfl
  | cons c m ih =>
    simp only [Memory.above, List.all_cons, Bool.and_eq_true, decide_eq_true_eq] at h
    simp only [Memory.read]
    rw [if_neg (by omega)]
    exact ih h.2

theorem Memory.above_mono {a b : Nat} {m : List Host.Cell} (h : Memory.above a m = true) (hb : b ≤ a) :
    Memory.above b m = true := by
  simp only [Memory.above, List.all_eq_true, decide_eq_true_eq] at *
  intro c hc
  have := h c hc
  omega

/-- A write lists no address at or below a bound that neither the memory nor the write reaches. -/
theorem Memory.above_write {a b : Nat} (v : Byte) {m : List Host.Cell} (h : Memory.above b m = true) (hb : b < a) :
    Memory.above b (Memory.write a v m) = true := by
  induction m with
  | nil => simp only [Memory.write]; split <;> simp [Memory.above, hb]
  | cons c m ih =>
    simp only [Memory.above, List.all_cons, Bool.and_eq_true, decide_eq_true_eq] at h ih
    simp only [Memory.write]
    split
    · split <;> simp [Memory.above, h.1, hb] <;> simpa using h.2
    · split
      · split <;> simp [Memory.above, hb] <;> simpa using h.2
      · simp only [Memory.above, List.all_cons, Bool.and_eq_true, decide_eq_true_eq]
        exact ⟨h.1, ih h.2⟩

/-- Every write keeps the canonical form. -/
theorem Memory.wf_write (a : Nat) (v : Byte) {m : List Host.Cell} (h : Memory.wf m = true) :
    Memory.wf (Memory.write a v m) = true := by
  induction m with
  | nil => simp only [Memory.write]; split <;> simp_all [Memory.wf, Memory.above]
  | cons c m ih =>
    simp only [Memory.wf, Bool.and_eq_true, decide_eq_true_eq] at h
    obtain ⟨⟨hv, ha⟩, hm⟩ := h
    have tail {b : Nat} (hb : b ≤ c.1) := Memory.above_mono ha hb
    simp only [Memory.write]
    split
    next lt =>
      split
      · simp [Memory.wf, hv, ha, hm]
      · have : Memory.above a (c :: m) = true := by
          have := tail (Nat.le_of_lt lt)
          simp only [Memory.above, List.all_cons, Bool.and_eq_true, decide_eq_true_eq] at *
          exact ⟨lt, this⟩
        simp_all [Memory.wf]
    next nlt =>
      split
      next eq =>
        split
        · exact hm
        · subst eq
          simp_all [Memory.wf]
      next ne =>
        have := Memory.above_write v ha (show c.1 < a by omega)
        simp_all [Memory.wf]

/-- A read after a write gives what was written there, and elsewhere what was there before. -/
theorem Memory.read_write (a b : Nat) (v : Byte) {m : List Host.Cell} (h : Memory.wf m = true) :
    Memory.read (Memory.write a v m) b = if b = a then v else Memory.read m b := by
  induction m with
  | nil =>
    by_cases hv : v = Memory.unlisted <;> simp [Memory.write, Memory.read, hv]
  | cons c m ih =>
    simp only [Memory.wf, Bool.and_eq_true, decide_eq_true_eq] at h
    obtain ⟨⟨hv, ha⟩, hm⟩ := h
    have low : a ≤ c.1 → Memory.read m a = Memory.unlisted := fun hb => Memory.read_above ha hb
    simp only [Memory.write]
    split
    next lt =>
      by_cases hu : v = Memory.unlisted
      · by_cases hb : b = a
        · subst hb
          simp [hu, Memory.read, show b ≠ c.1 by omega, low (by omega)]
        · simp [hu, hb]
      · by_cases hb : b = a <;> simp [hu, hb, Memory.read]
    next nlt =>
      split
      next eq =>
        subst eq
        by_cases hu : v = Memory.unlisted
        · by_cases hb : b = c.1
          · subst hb; simp [hu, low (Nat.le_refl _)]
          · simp [hu, hb, Memory.read]
        · by_cases hb : b = c.1 <;> simp [hu, hb, Memory.read]
      next ne =>
        by_cases hb : b = c.1
        · subst hb
          simp [Memory.read, Ne.symm ne]
        · simp [Memory.read, hb, ih hm]

/-! ### Runs of bytes -/

theorem Memory.wf_writes (bs : List (Nat × Byte)) {m : List Host.Cell} (h : Memory.wf m = true) :
    Memory.wf (bs.foldl (fun m b => Memory.write b.1 b.2 m) m) = true := by
  induction bs generalizing m with
  | nil => exact h
  | cons b bs ih => exact ih (Memory.wf_write b.1 b.2 h)

/-- A byte that no written address names is unchanged. -/
theorem Memory.read_writes_other (bs : List (Nat × Byte)) {m : List Host.Cell} (h : Memory.wf m = true) {a : Nat}
    (ha : ∀ b ∈ bs, a ≠ b.1) : Memory.read (bs.foldl (fun m b => Memory.write b.1 b.2 m) m) a = Memory.read m a := by
  induction bs generalizing m with
  | nil => rfl
  | cons b bs ih =>
    rw [List.foldl_cons, ih (Memory.wf_write b.1 b.2 h) (fun c hc => ha c (List.mem_cons_of_mem _ hc)),
      Memory.read_write _ _ _ h, if_neg (ha b (List.mem_cons_self ..))]

theorem atAddrs_ge {a : Nat} {bs : List Byte} {c : Nat × Byte} (h : c ∈ atAddrs a bs) : a ≤ c.1 ∧ c.1 < a + bs.length := by
  induction bs generalizing a with
  | nil => cases h
  | cons b bs ih =>
    rcases List.mem_cons.mp h with rfl | h
    · simp
    · have := ih h
      simp only [List.length_cons]
      omega

@[simp] theorem leBytes_length (v n : Nat) : (leBytes v n).length = n := by
  induction n generalizing v with
  | zero => rfl
  | succ n ih => simp [leBytes, ih]

/-! ### The memory of a state -/

theorem reset_inv : State.reset.Inv := rfl

theorem State.writeBytes_inv {s : State} (bs : List (Nat × Byte)) (h : s.Inv) : (s.writeBytes bs).Inv :=
  Memory.wf_writes bs h

theorem State.writeLE_inv {s : State} (a v n : Nat) (h : s.Inv) : (s.writeLE a v n).Inv :=
  State.writeBytes_inv _ h

/-- An update that leaves memory alone keeps the invariant. -/
theorem State.inv_of_mem {s t : State} (h : s.Inv) (e : t.mem = s.mem) : t.Inv := by
  unfold State.Inv; rw [e]; exact h

/-- The bytes outside a little-endian write are unchanged. -/
theorem State.read_writeLE_other {s : State} (a v n b : Nat) (h : s.Inv) (hb : b < a ∨ a + n ≤ b) :
    Memory.read (s.writeLE a v n).mem b = Memory.read s.mem b := by
  refine Memory.read_writes_other _ h (fun c hc => ?_)
  have := atAddrs_ge hc
  rw [leBytes_length] at this
  omega

theorem State.syncAdd_inv {s : State} (a n : Nat) (h : s.Inv) : (s.syncAdd a n).Inv := by
  unfold State.syncAdd
  dsimp only
  split
  · exact State.writeLE_inv _ _ _ h
  · exact State.writeLE_inv _ _ _ (State.writeLE_inv _ _ _ h)

/-- An addition to a sync word, made now or held by a migrating frame, keeps the canonical form (R138, R337). -/
theorem State.countAt_inv {s : State} (a n : Nat) (h : s.Inv) : (s.countAt a n).Inv := by
  unfold State.countAt
  split
  · exact State.inv_of_mem h rfl
  · exact State.syncAdd_inv _ _ h

/-- A posted record changes memory only through the sync word of its queue, which keeps the canonical form (R339). -/
theorem State.post_inv {s : State} (d : Nat) (r : TrapRec) (h : s.Inv) : (s.post d r).Inv := by
  unfold State.post
  dsimp only
  split
  · split
    · exact State.countAt_inv _ _ (State.inv_of_mem h rfl)
    · exact State.inv_of_mem h rfl
  · split <;> exact State.inv_of_mem h rfl

end Sys2Proof.Machine
end

