-- ==== Sys2Proof/Laws/Traps.lean ====
section
/-!
SUPPORT. What taking a trap does (R32, R74, R218), what a held error, a tainted operand and a wait do (R117, R172, R191,
R217, R232, R252): each operation once, with every case it has.
-/

namespace Sys2Proof.Machine

/-- An addition to a sync word leaves contexts and the issue of a group alone (R138). -/
@[simp] theorem State.countAt_ctx (s : State) (a n : Nat) : (s.countAt a n).ctx = s.ctx := by
  unfold State.countAt State.syncAdd
  dsimp only
  split
  · rfl
  · split <;> rfl

@[simp] theorem State.countAt_issue (s : State) (a n : Nat) : (s.countAt a n).issue = s.issue := by
  unfold State.countAt State.syncAdd
  dsimp only
  split
  · rfl
  · split <;> rfl

/-- A posted record changes the trap queues and, through the sync word, memory: the context is untouched. -/
@[simp] theorem State.post_ctx (s : State) (d : Nat) (r : TrapRec) : (s.post d r).ctx = s.ctx := by
  unfold State.post
  dsimp only
  split
  · split
    · simp
    · rfl
  · split <;> rfl

@[simp] theorem State.post_issue (s : State) (d : Nat) (r : TrapRec) : (s.post d r).issue = s.issue := by
  unfold State.post
  dsimp only
  split
  · split
    · simp
    · rfl
  · split <;> rfl

@[simp] theorem Seqr.report_handle (q : Seqr) (t : Trap) : (q.report t).handle = q.handle := by
  unfold Seqr.report; split <;> (try split) <;> (try split) <;> (try split) <;> rfl

@[simp] theorem Seqr.report_pc (q : Seqr) (t : Trap) : (q.report t).pc = q.pc := by
  unfold Seqr.report; split <;> (try split) <;> (try split) <;> (try split) <;> rfl

@[simp] theorem Seqr.report_sup (q : Seqr) (t : Trap) : (q.report t).sup = q.sup := by
  unfold Seqr.report; split <;> (try split) <;> (try split) <;> (try split) <;> rfl

@[simp] theorem Seqr.report_trapBase (q : Seqr) (t : Trap) : (q.report t).trapBase = q.trapBase := by
  unfold Seqr.report; split <;> (try split) <;> (try split) <;> (try split) <;> rfl

/-- Leaving the requests of a waiting group sends packets and does nothing else (R252). -/
theorem State.leaveWaits_sends (s : State) (q : Seqr) : ∃ ps, s.leaveWaits q = { s with egress := s.egress ++ ps } := by
  unfold State.leaveWaits
  induction q.asks generalizing s with
  | nil => exact ⟨[], by simp⟩
  | cons a l ih =>
    rw [List.foldl_cons]
    split
    · next pkg via exp addr _ =>
      obtain ⟨ps, e⟩ := ih (s.emit (.read pkg via q.cdie.toNat q.handle a.tag 7 0 exp addr 4))
      exact ⟨.read pkg via q.cdie.toNat q.handle a.tag 7 0 exp addr 4 :: ps, e.trans (by simp [State.emit])⟩
    · exact ih s

@[simp] theorem State.leaveWaits_mem (s : State) (q : Seqr) : (s.leaveWaits q).mem = s.mem := by
  obtain ⟨ps, e⟩ := s.leaveWaits_sends q
  rw [e]

@[simp] theorem State.leaveWaits_ctx (s : State) (q : Seqr) : (s.leaveWaits q).ctx = s.ctx := by
  obtain ⟨ps, e⟩ := s.leaveWaits_sends q
  rw [e]

/-- Every trap saves its cause, the address of its group and its address (R32, R74). -/
theorem State.takeTrap_saves (s : State) (t : Trap) :
    (s.takeTrap t).ctx.cause = t.causeWord ∧ (s.takeTrap t).ctx.epc = s.ctx.pc ∧ (s.takeTrap t).ctx.badaddr = t.bad := by
  unfold State.takeTrap
  dsimp only
  split <;> simp [Seqr.noWait]

/-- The group that takes a trap ends in it. -/
theorem State.takeTrap_flow (s : State) (t : Trap) : (s.takeTrap t).issue.flow = .trap t := by
  unfold State.takeTrap
  dsimp only
  split <;> simp

/-- A supervisor context goes on at cr.trap (R218). -/
theorem State.takeTrap_supervisor (s : State) (t : Trap) (h : s.ctx.sup = true) :
    (s.takeTrap t).ctx.pc = s.ctx.trapBase ∧ (s.takeTrap t).mem = s.mem := by
  unfold State.takeTrap
  simp [h, Seqr.noWait]

/-- A user context departs from its slot to be frozen at its group (R218, R250). -/
theorem State.takeTrap_user (s : State) (t : Trap) (h : s.ctx.sup = false) :
    (s.takeTrap t).ctx.depart = some .freeze ∧ (s.takeTrap t).ctx.pc = s.ctx.pc := by
  unfold State.takeTrap
  simp [h, Seqr.noWait]

/-- Taking a trap keeps the canonical form of memory. -/
theorem State.takeTrap_inv {s : State} (t : Trap) (h : s.Inv) : (s.takeTrap t).Inv := by
  unfold State.takeTrap
  dsimp only
  split
  · exact State.inv_of_mem h (State.leaveWaits_mem _ _)
  · exact State.post_inv _ _ (State.inv_of_mem h (State.leaveWaits_mem _ _))

/-- A trap return takes cr.epc as the next PC and changes nothing else (R219). -/
theorem State.trapReturn_npc (s : State) : s.trapReturn.issue.npc = some s.src.epc := rfl

/-- A member that waits records the wait, unless a held matrix error ends it (R191, R252). -/
theorem State.stall_cases (s : State) (w : Wait) :
    (s.stall w = { s with issue := { s.issue with flow := .wait w } } ∧ (s.ctx.held = none ∨ w.parkable = false)) ∨
    (∃ c a, s.ctx.held = some (c, a) ∧ w.parkable = true ∧ s.stall w = s.raiseHeld c a) := by
  unfold State.stall
  match s.ctx.held with
  | none => exact .inl ⟨rfl, .inl rfl⟩
  | some (c, a) =>
    cases w.parkable
    · exact .inl ⟨rfl, .inr rfl⟩
    · exact .inr ⟨c, a, rfl, rfl, rfl⟩

/-- A wait keeps the canonical form of memory. -/
theorem State.stall_inv {s : State} (w : Wait) (h : s.Inv) : (s.stall w).Inv := by
  rcases s.stall_cases w with ⟨e, -⟩ | ⟨c, a, -, -, e⟩ <;> rw [e]
  · exact h
  · exact State.takeTrap_inv _ h

/-- A member before which no matrix error is held goes on (R191). -/
theorem State.heldFirst_none {s : State} (go : State → State) (h : s.ctx.held = none) : s.heldFirst go = go s := by
  unfold State.heldFirst; rw [h]

/-- A held matrix error is taken first (R191). -/
theorem State.heldFirst_some {s : State} (go : State → State) {c : BitVec 8} {a : W64} (h : s.ctx.held = some (c, a)) :
    s.heldFirst go = s.raiseHeld c a := by
  unfold State.heldFirst; rw [h]

/-- Untainted operands hold nothing (R217). -/
@[simp] theorem State.hold_zero (s : State) (go : State → State) : s.hold 0 go = go s := by
  unfold State.hold; rw [if_pos rfl]

/-- What a member does whose operands carry a mask: it goes on, it reports a void tag, or it waits (R117, R217, R232). -/
theorem State.hold_cases (s : State) (m : Mask) (go : State → State) :
    s.hold m go = go s ∨ (∃ i a, s.hold m go = s.raiseVoid i a) ∨ s.hold m go = s.stall .taint := by
  unfold State.hold
  split
  · exact .inl rfl
  · split
    · exact .inl rfl
    · split
      · exact .inr (.inl ⟨_, _, rfl⟩)
      · exact .inr (.inr rfl)

/-- A hold keeps the canonical form of memory where what it guards does. -/
theorem State.hold_inv {s : State} (m : Mask) {go : State → State} (h : s.Inv) (hg : (go s).Inv) : (s.hold m go).Inv := by
  rcases s.hold_cases m go with e | ⟨i, a, e⟩ | e <;> rw [e]
  · exact hg
  · exact State.takeTrap_inv _ h
  · exact State.stall_inv _ h

end Sys2Proof.Machine
end

