-- ==== Sys2Proof/Laws/Operations.lean ====
section
/-!
SUPPORT. What each operation that the meanings share can do: one lemma lists its cases, one says that it keeps the canonical form
of memory where its continuation does.
-/

namespace Sys2Proof.Machine

theorem State.raise_inv {s : State} (c : BitVec 8) (a : W64) (h : s.Inv) : (s.raise c a).Inv := State.takeTrap_inv _ h

/-! ### Vector sources and results -/

theorem State.modFeed_mem (s : State) (p : Nat) (f : FeedPort → FeedPort) : (s.modFeed p f).mem = s.mem := rfl

/-- Popping ports changes no memory (R23). -/
theorem State.popCodes_mem (s : State) (cs : List (BitVec 6)) : (s.popCodes cs).mem = s.mem := by
  unfold State.popCodes
  generalize cs.eraseDups.filter (fun c => decide (56 ≤ c.toNat)) = l
  induction l generalizing s with
  | nil => rfl
  | cons c l ih => exact (ih _).trans (State.modFeed_mem _ _ _)

/-- Reading vector sources goes on with their values and the ports popped, traps, or waits for a port to fill (R23, R148). -/
theorem State.withCodes_cases (s : State) (cs : List (BitVec 6)) (go : List VReg → State → State) :
    (∃ rs, readCodes s.src cs = .ok rs ∧ s.withCodes cs go = go rs (s.popCodes cs)) ∨
    (∃ c a, s.withCodes cs go = s.raise c a) ∨ (∃ p, s.withCodes cs go = s.stall (.fillPort p)) ∨
    s.withCodes cs go = s := by
  unfold State.withCodes
  split
  · exact .inl ⟨_, ‹_›, rfl⟩
  · exact .inr (.inl ⟨_, _, rfl⟩)
  · exact .inr (.inr (.inl ⟨_, rfl⟩))
  · exact .inr (.inr (.inr rfl))

theorem State.withCodes_inv {s : State} (cs : List (BitVec 6)) {go : List VReg → State → State} (h : s.Inv)
    (hg : ∀ rs t, t.Inv → (go rs t).Inv) : (s.withCodes cs go).Inv := by
  rcases s.withCodes_cases cs go with ⟨rs, -, e⟩ | ⟨c, a, e⟩ | ⟨p, e⟩ | e <;> rw [e]
  · exact hg rs _ (State.inv_of_mem h (s.popCodes_mem cs))
  · exact State.raise_inv _ _ h
  · exact State.stall_inv _ h
  · exact h

/-- A push to a drain port keeps the canonical form of memory. -/
theorem State.pushPort_inv {s : State} (p : Nat) (r : VReg) (h : s.Inv) : (s.pushPort p r).Inv := by
  unfold State.pushPort
  dsimp only
  split
  · exact State.raise_inv _ _ h
  · split
    · exact State.raise_inv _ _ h
    · refine State.hold_inv _ h ?_
      split
      · exact State.raise_inv _ _ h
      · split
        · exact State.raise_inv _ _ h
        · split
          · exact State.raise_inv _ _ h
          · split
            · exact State.stall_inv _ h
            · exact State.inv_of_mem h (State.modFeed_mem _ _ _)

theorem State.writeCode_inv {s : State} (c : BitVec 6) (r : VReg) (h : s.Inv) : (s.writeCode c r).Inv := by
  unfold State.writeCode
  split
  · exact State.inv_of_mem h (State.wv_mem _ _ _)
  · exact State.pushPort_inv _ _ h

/-- A vector computation ends in OVF_TRAP, or goes on with its flags and the generator after its draws (R153, R163). -/
theorem State.finish_cases (s : State) (o : VOut) (go : State → State) :
    (o.trap = true ∧ s.finish o go = s.raise cOvf 0) ∨
    (o.trap = false ∧ s.finish o go = go ({ s with ctx := { s.ctx with seed := o.seed } }.flag o.flags)) := by
  unfold State.finish
  cases o.trap <;> simp

theorem State.finish_inv {s : State} (o : VOut) {go : State → State} (h : s.Inv) (hg : ∀ t, t.Inv → (go t).Inv) :
    (s.finish o go).Inv := by
  rcases s.finish_cases o go with ⟨-, e⟩ | ⟨-, e⟩ <;> rw [e]
  · exact State.raise_inv _ _ h
  · exact hg _ (State.inv_of_mem h rfl)

/-- Every merging vector form keeps the canonical form of memory (R150). -/
theorem State.vform_inv {s : State} (d : BitVec 6) (k : BitVec 3) (srcs : List (BitVec 6)) (readsD : Bool)
    (check : List VReg → VReg → Bool) (resTag : List VReg → BitVec 4 × BitVec 3)
    (compute : List VReg → Vec → W64 → W32 → VOut) (h : s.Inv) : (s.vform d k srcs readsD check resTag compute).Inv := by
  unfold State.vform
  dsimp only
  split
  · exact State.raise_inv _ _ h
  · refine State.withCodes_inv _ h (fun rs t ht => ?_)
    generalize (if d.toNat < 56 then t.src.rv d.toNat else VReg.zero) = old
    split
    · exact State.raise_inv _ _ ht
    · split
      · exact State.raise_inv _ _ ht
      · exact State.finish_inv _ ht (fun u hu => State.writeCode_inv _ _ hu)

/-! ### The memory slot -/

/-- An access goes on, reports a void tag, or waits for its operands or for an SC access (R117, R119). -/
theorem State.mslot_cases (s : State) (m : Mask) (go : State → State) :
    (s.scPending = false ∧ s.mslot m go = go s) ∨ (∃ i a, s.mslot m go = s.raiseVoid i a) ∨ (∃ w, s.mslot m go = s.stall w) := by
  unfold State.mslot
  rcases s.hold_cases (m ||| s.src.ctaint) (fun s => if s.scPending then s.stall .fence else go s) with e | ⟨i, a, e⟩ | e <;>
    rw [e]
  · cases hp : s.scPending
    · exact .inl ⟨rfl, by simp⟩
    · exact .inr (.inr ⟨.fence, by simp⟩)
  · exact .inr (.inl ⟨i, a, rfl⟩)
  · exact .inr (.inr ⟨_, rfl⟩)

theorem State.mslot_inv {s : State} (m : Mask) {go : State → State} (h : s.Inv) (hg : (go s).Inv) : (s.mslot m go).Inv := by
  rcases s.mslot_cases m go with ⟨-, e⟩ | ⟨i, a, e⟩ | ⟨w, e⟩ <;> rw [e]
  · exact hg
  · exact State.takeTrap_inv _ h
  · exact State.stall_inv _ h

/-- A translated access goes on with its pieces, or traps (R114). -/
theorem State.checked_cases (s : State) (u : Use) (ps : List (W64 × Nat)) (go : List Piece → State → State) :
    (∃ l, s.translateAll s.me u ps = .ok l ∧ s.checked u ps go = go (toPieces l) s) ∨
    (∃ c a, s.translateAll s.me u ps = .error (c, a) ∧ s.checked u ps go = s.raise c a) := by
  unfold State.checked
  split
  · exact .inr ⟨_, _, ‹_›, rfl⟩
  · exact .inl ⟨_, ‹_›, rfl⟩

theorem State.checked_inv {s : State} (u : Use) (ps : List (W64 × Nat)) {go : List Piece → State → State} (h : s.Inv)
    (hg : ∀ l, (go l s).Inv) : (s.checked u ps go).Inv := by
  rcases s.checked_cases u ps go with ⟨l, -, e⟩ | ⟨c, a, -, e⟩ <;> rw [e]
  · exact hg _
  · exact State.raise_inv _ _ h

/-! ### Modes and control -/

/-- A supervisor-only operation raises PRIV in user mode (R35). -/
theorem State.supOnly_user {s : State} (go : State → State) (h : s.src.sup = false) : s.supOnly go = s.raise cPriv 0 := by
  simp [State.supOnly, h]

/-- A supervisor-only operation goes on in supervisor mode (R35). -/
theorem State.supOnly_supervisor {s : State} (go : State → State) (h : s.src.sup = true) : s.supOnly go = go s := by
  simp [State.supOnly, h]

@[simp] theorem State.goTo_ctx (s : State) (a : W64) : (s.goTo a).ctx = s.ctx := rfl
@[simp] theorem State.goTo_mem (s : State) (a : W64) : (s.goTo a).mem = s.mem := rfl
@[simp] theorem State.goTo_npc (s : State) (a : W64) : (s.goTo a).issue.npc = some a := rfl

/-- Leaving a loop goes on at ExitAddress, or traps (R105). -/
theorem State.toExit_cases (s : State) (x : W64) (go : State → State) :
    (∃ a, s.exitFrom 7 x = .ok a ∧ s.toExit x go = (go s).goTo a) ∨ (∃ c a, s.toExit x go = s.raise c a) ∨
    s.toExit x go = s.takeTrap { code := cIllGroup, slot := 0, whole := true, word := 0, bad := x } := by
  unfold State.toExit
  split
  · exact .inl ⟨_, ‹_›, rfl⟩
  · exact .inr (.inl ⟨_, _, rfl⟩)
  · exact .inr (.inr rfl)

end Sys2Proof.Machine
end

