-- ==== Sys2Proof/Laws/Registers.lean ====
section
/-!
SUPPORT. What a write of a register does to every register of its file (R15, R16, R18–R20, R24).
-/

namespace Sys2Proof.Machine

/-- g0 discards (R16). -/
@[simp] theorem State.wg_zero (s : State) (v : W32) (m : Mask) : s.wg 0#5 v m = s := by
  rfl

/-- k0 discards (R16). -/
@[simp] theorem State.wk_zero (s : State) (v : W64) (m : Mask) : s.wk 0#3 v m = s := by
  rfl

theorem State.wg_ctx (s : State) (d : BitVec 5) (v : W32) (m : Mask) (hd : d ≠ 0) :
    (s.wg d v m).ctx = { s.ctx with g := s.ctx.g.setIfInBounds d.toNat { val := v, taint := m } } := by
  unfold State.wg; rw [if_neg hd]

theorem State.wk_ctx (s : State) (d : BitVec 3) (v : W64) (m : Mask) (hd : d ≠ 0) :
    (s.wk d v m).ctx =
      { s.ctx with k := s.ctx.k.setIfInBounds (physK s.src.krot d.toNat) { val := v, taint := m } } := by
  unfold State.wk; rw [if_neg hd]

/-- g0 reads zero with a zero mask (R15). -/
@[simp] theorem Seqr.rg_zero (q : Seqr) : q.rg 0#5 = .zero 32 := rfl

/-- k0 reads all ones with a zero mask (R15, R24). -/
@[simp] theorem Seqr.rk_zero (q : Seqr) : q.rk 0#3 = { val := BitVec.allOnes 64, taint := 0 } := rfl

/-- A write of g[d] is what g[d] reads, and every other register reads as before. -/
theorem State.rg_wg (s : State) (d n : BitVec 5) (v : W32) (m : Mask) :
    (s.wg d v m).ctx.rg n = if n = d ∧ d ≠ 0 then ⟨v, m⟩ else s.ctx.rg n := by
  by_cases hd : d = 0
  · subst hd; simp
  · unfold Seqr.rg
    rw [State.wg_ctx s d v m hd]
    by_cases hn : n = d
    · subst hn
      rw [if_neg hd, if_pos ⟨rfl, hd⟩, Vector.getElem?_setIfInBounds_self, if_pos n.isLt]
      rfl
    · have : d.toNat ≠ n.toNat := fun h => hn (BitVec.eq_of_toNat_eq h.symm)
      simp [Vector.getElem?_setIfInBounds_ne this, hn]

/-- A write of b[d] is what b[d] reads, and every other register reads as before. -/
theorem State.rb_wb (s : State) (d n : BitVec 3) (v : W64) (m : Mask) :
    (s.wb d v m).ctx.rb n = if n = d then ⟨v, m⟩ else s.ctx.rb n := by
  unfold Seqr.rb
  by_cases hn : n = d
  · subst hn
    simp [n.isLt]
  · have : d.toNat ≠ n.toNat := fun h => hn (BitVec.eq_of_toNat_eq h.symm)
    simp [Vector.getElem?_setIfInBounds_ne this, hn]

theorem physK_lt (r : BitVec 2) (n : BitVec 3) : physK r n.toNat < 8 := by
  unfold physK
  have := n.isLt
  split <;> omega

theorem physV_lt (r : BitVec 5) {n : Nat} (h : n < 56) : physV r n < 56 := by
  unfold physV
  split <;> omega

/-- The rotation is a permutation of the rotating predicates (R19). -/
theorem physK_inj (r : BitVec 2) {n m : BitVec 3} (h : physK r n.toNat = physK r m.toNat) : n = m := by
  unfold physK at h
  have := n.isLt
  have := m.isLt
  apply BitVec.eq_of_toNat_eq
  split at h <;> split at h <;> omega

/-- The rotation is a permutation of the rotating vector registers (R19). -/
theorem physV_inj (r : BitVec 5) {n m : Nat} (hn : n < 56) (hm : m < 56) (h : physV r n = physV r m) : n = m := by
  unfold physV at h
  split at h <;> split at h <;> omega

/-- A write of k[d] changes the one physical register that the base from before the group selects (R20). -/
theorem State.k_wk (s : State) (d : BitVec 3) (v : W64) (m : Mask) (n : Nat) :
    (s.wk d v m).ctx.k[n]? = if n = physK s.src.krot d.toNat ∧ d ≠ 0 then some ⟨v, m⟩ else s.ctx.k[n]? := by
  by_cases hd : d = 0
  · subst hd; simp
  · rw [State.wk_ctx s d v m hd]
    by_cases hn : n = physK s.src.krot d.toNat
    · subst hn
      rw [if_pos ⟨rfl, hd⟩]
      simp [physK_lt]
    · simp [Vector.getElem?_setIfInBounds_ne (Ne.symm hn), hn]

/-- A write of the vector register with a logical number changes the one physical register it selects (R18, R20). -/
theorem State.v_wv (s : State) (d : Nat) (r : VReg) (hd : d < 56) (n : Nat) :
    (s.wv d r).ctx.v[n]? = if n = physV s.src.vrot d then some r else s.ctx.v[n]? := by
  by_cases hn : n = physV s.src.vrot d
  · subst hn
    simp [physV_lt _ hd]
  · simp [Vector.getElem?_setIfInBounds_ne (Ne.symm hn), hn]

end Sys2Proof.Machine
end

