-- ==== Sys2Proof/Tests/Slice0.lean ====
section
/-!
SUPPORT. Tests of the model on fixed values: an ill-formed term for each check of `Instr.wf`, which refuses it (R29, R80, R81,
R131, R145, R164, R170, R275); for each major opcode a word written out field by field from Tables 3.3 to 3.5, and for each micro-op
one from Table 11.3; single steps of `exec`, whose results are read off the rule each test names.
-/

namespace Sys2Proof.Tests

set_option Elab.async false

open Sys2Proof.Machine

/-! ### Ill-formed terms -/

/-- A loop level is 0 to 5 (R80); control registers are 0 to 19 (R29); LDV sub-operations 0 to 7, MA operations 0 to 11, a fence
scope 0 to 4, a stream of `sfence` not 0 (Table 3.5). -/
theorem test_wf_ranges :
    (Instr.loop 1 6 1).wf = false ∧ (Instr.brl 6).wf = false ∧ (Instr.brlRot 7).wf = false ∧ (Instr.mfc 1 2 20).wf = false ∧
    (Instr.mtc 1 2 20).wf = false ∧ (Instr.ldv 1 2 3 8 0).wf = false ∧ (Instr.stAcc 1 2 3 0 12).wf = false ∧
    (Instr.stvAcc 1 2 3 0 12).wf = false ∧ (Instr.fence 5).wf = false ∧ (Instr.sfence 0).wf = false := by decide

/-- The register that a taint instruction names exists (Table 3.5). -/
theorem test_wf_taint_registers :
    (Instr.tbind 1 1 0).wf = false ∧ (Instr.tclr 8 0 1).wf = false ∧ (Instr.tmask 1 8 0 3).wf = false ∧
    (Instr.tbind 31 1 2).wf = true := by decide

/-- Conditions, tags, modes and policies of the vector forms (R80, R81, R164, R170). -/
theorem test_wf_vector :
    (Instr.vcmp 1 2 3 0 7).wf = false ∧ (Instr.vcvt 1 2 8 0 0 0).wf = false ∧ (Instr.vcvt 1 2 1 5 0 0).wf = false ∧
    (Instr.vcvt 1 2 1 0 1 1).wf = false ∧ (Instr.vqBfp 1 2 3 7).wf = false ∧ (Instr.vqBfp 3 2 3 0).wf = false ∧
    (Instr.vtag 1 2 10 0).wf = false ∧ (Instr.vtag 1 2 1 1).wf = false ∧ (Instr.vtag 1 2 8 7).wf = false := by decide

/-- Operation codes, unused operand fields, roles and classes of the engine forms (R80, R81). -/
theorem test_wf_engine :
    (Instr.xrmw 13 1 0).wf = false ∧ (Instr.xrmw 0 1 2).wf = false ∧ (Instr.mzero 1 0 3).wf = false ∧ (Instr.phreg 3 1).wf = false ∧
    (Instr.mte 1 0 1 2).wf = false ∧ (Instr.mfe 5 0 1 2).wf = false := by decide

/-- The conditions of R275 on one micro-op word. -/
theorem test_wf_micro_ops :
    (Instr.zero 0 0 1 8).wf = false ∧ (Instr.zero 0 1 0 1).wf = false ∧ (Instr.anchor 0 1 8).wf = false ∧
    (Instr.loadb 1 0 0 0).wf = false ∧ (Instr.loadb 2 1 0 0).wf = false ∧ (Instr.streama 2 0 0 0 0 127 1 0).wf = false ∧
    (Instr.acc 0 1 64 64).wf = false ∧ (Instr.had 0 127 1).wf = false ∧ (Instr.drain 0 5 0 0 0 0 0 0 0 0).wf = false ∧
    (Instr.drain 0 1 0 6 0 0 0 0 0 0).wf = false ∧ (Instr.drain 0 1 0 0 1 1 0 0 0 0).wf = false ∧ (Instr.uopLoop 0 0 1).wf = false ∧
    (Instr.uopLoop 1 1 8).wf = false := by decide

/-! ### Words of the spec's encoding: S, Y, major, then the fields of Table 3.3 in its order -/

/-- The group of Table 3.7 and the words beside it. -/
theorem test_decode_worked_example :
    decodeTableWord 32 0x01190A00 = some (.add 3 4 5) ∧ decodeTableWord 32 0x30209283 = some (.vfma 8 9 10 0) ∧
    decodeTableWord 32 0xA62D1883 = some (.stv 11 2 6 2 3) ∧ decodeTableWord 32 0xD03FFFFB = some (.br 0 3 0xFFFFB) ∧
    decodeTableWord 32 0x8F000000 = some .nop := by decide

/-- Slot A: SR, SI and SL. -/
theorem test_decode_slot_a :
    decodeTableWord 32 0b1_0_000001_00011_00100_00101_011000_110 = some (.sel 3 4 5 6) ∧
    decodeTableWord 32 0b1_0_000001_00011_00100_00101_000101_000 = some (.div 3 4 5) ∧
    decodeTableWord 32 0b1_0_000010_00001_00010_11111111111111 = some (.addi 1 2 0x3FFF) ∧
    decodeTableWord 32 0b1_0_000110_00001_00010_0000000_10_11111 = some (.srai 1 2 31) ∧
    decodeTableWord 32 0b1_0_000111_11111_1000000000000000001 = some (.lhi 31 0x40001) ∧
    decodeTableWord 32 0b1_0_001000_00111_00010_00001_000000001 = some (.movb 7 2 1) ∧
    decodeTableWord 32 0b1_0_001001_00111_00110_00101_000000010 = some (.kxor 7 6 5) := by decide

/-- Slot B: BR, LP, BX and SY. -/
theorem test_decode_slot_b :
    decodeTableWord 32 0b1_0_010001_1_111_10000000000000000000 = some (.bra 1 7 0x80000) ∧
    decodeTableWord 32 0b1_0_010010_0_001_00000000000000000010 = some (.call 0 1 2) ∧
    decodeTableWord 32 0b1_0_010100_00011_101_0_000000000000111 = some (.loop 3 5 7) ∧
    decodeTableWord 32 0b1_0_010101_00000_101_1_000000000000000 = some (.brlRot 5) ∧
    decodeTableWord 32 0b1_0_010110_00001_00101_00000_000000010 = some (.lidx 1 5) ∧
    decodeTableWord 32 0b1_0_010111_000011_00100_00101_00001010 = some (.mtc 4 5 10) ∧
    decodeTableWord 32 0b1_0_010111_001001_00111_00000_00000000 = some (.ptime 7) := by decide

/-- Slot M: MR, MK, MV, MA and MEMSYS. -/
theorem test_decode_slot_m :
    decodeTableWord 32 0b1_0_100000_000001_010_00011_0101_100000 = some (.ldb 1 2 3 0x20) ∧
    decodeTableWord 32 0b1_0_100000_000001_010_00011_0100_100000 = some (.ldW 1 2 3 0x20) ∧
    decodeTableWord 32 0b1_0_100001_111111_010_00011_0111_000001 = some (.ldv 63 2 3 7 1) ∧
    decodeTableWord 32 0b1_0_100111_001011_010_111_00_1111_000001 = some (.stm 11 2 7 15 1) ∧
    decodeTableWord 32 0b1_0_101010_000001_010_000011_111_1111_00 = some (.vscat 1 2 3 7 15) ∧
    decodeTableWord 32 0b1_0_101011_011111_010_00011_1111_1011_00 = some (.stAcc 31 2 3 15 11) ∧
    decodeTableWord 32 0b1_0_101101_00001_00111_00011_00100_0000 = some (.swait 1 7 3) ∧
    decodeTableWord 32 0b1_0_101101_00000_00000_00000_01000_0100 = some (.fence 4) ∧
    decodeTableWord 32 0b1_0_101101_11111_00000_00000_01011_0110 = some (.tclr 31 1 2) := by decide

/-- Slot V: VR, VC and VQ. -/
theorem test_decode_slot_v :
    decodeTableWord 32 0b1_0_110001_000001_000010_000011_100_000 = some (.vmax 1 2 3 4) ∧
    decodeTableWord 32 0b1_0_110010_000111_000010_000011_100_110 = some (.vcmp 7 2 3 4 6) ∧
    decodeTableWord 32 0b1_0_110101_000001_000010_000011_100_101 = some (.vsraI16 1 2 3 4) ∧
    decodeTableWord 32 0b1_0_110111_000001_000010_000000_100_011 = some (.vnot 1 2 4) ∧
    decodeTableWord 32 0b1_0_111000_000001_000010_1001_100_11_0_00 = some (.vcvt 1 2 9 4 3 0) ∧
    decodeTableWord 32 0b1_0_111001_000001_000010_000011_110_000 = some (.vqBfp 1 2 3 6) ∧
    decodeTableWord 32 0b1_0_111010_000001_000010_000011_000_000 = some (.vdqBfp 1 2 3) ∧
    decodeTableWord 32 0b1_0_111011_011111_000010_111111_000_011 = some (.vext 31 2 63) ∧
    decodeTableWord 32 0b1_0_111100_000001_000010_001000_110_011 = some (.vtag 1 2 8 6) := by decide

/-- Slot E: EX, by engine. -/
theorem test_decode_slot_e :
    decodeTableWord 32 0b1_0_111101_000_001_01111111_00001_00010 = some (.xstat 127 1 2) ∧
    decodeTableWord 32 0b1_0_111101_001_1100_0000000_00001_00010 = some (.xrmw 12 1 2) ∧
    decodeTableWord 32 0b1_0_111101_010_010_00001111_00000_00000 = some (.mzero 1 7 0) ∧
    decodeTableWord 32 0b1_0_111101_010_100_00000111_00001_00010 = some (.zld 7 1 2) ∧
    decodeTableWord 32 0b1_0_111101_100_111_00000000_00001_00010 = some (.ctrig 1 2) ∧
    decodeTableWord 32 0b1_0_111101_101_100_00000010_00001_00000 = some (.phreg 2 1) ∧
    decodeTableWord 32 0b1_0_111101_110_000_11111111_00001_00010 = some (.launch 31 7 1 2) ∧
    decodeTableWord 32 0b1_0_111110_100_1000000_0000_00001_00010 = some (.mte 4 64 1 2) ∧
    decodeTableWord 32 0b1_0_111111_000_0000010_0000_00001_00010 = some (.mfe 0 2 1 2) := by decide

/-- Micro-ops, OPC then the fields of Table 11.3. -/
theorem test_decode_micro_ops :
    decodeTableWord 64 (1 * 2 ^ 60 + 9 * 2 ^ 56 + 0x3FF * 2 ^ 44) = some (.zero 9 0 0 0x3FF) ∧
    decodeTableWord 64 (3 * 2 ^ 60 + 8 * 2 ^ 56 + 6 * 2 ^ 53 + 0xFF * 2 ^ 45 + 5 * 2 ^ 42) = some (.loadb 8 6 0xFF 5) ∧
    decodeTableWord 64 (4 * 2 ^ 60 + 2 * 2 ^ 56 + 3 * 2 ^ 42 + 7 * 2 ^ 38 + 1 * 2 ^ 31 + 126 * 2 ^ 24 + 2 ^ 23) =
      some (.streama 2 0 0 3 7 1 126 1) ∧
    decodeTableWord 64 (8 * 2 ^ 60 + 7 * 2 ^ 56 + 1 * 2 ^ 52 + 7 * 2 ^ 46 + 2 ^ 43 + 2 * 2 ^ 40 + 1 * 2 ^ 33 + 126 * 2 ^ 26 + 3 * 2 ^ 18) =
      some (.drain 7 1 0 7 0 1 2 1 126 3) ∧
    decodeTableWord 64 (6 * 2 ^ 60 + 1) = some (.trans 1) ∧ decodeTableWord 64 (9 * 2 ^ 60) = some .waitf ∧
    decodeTableWord 64 (9 * 2 ^ 60 + 1) = none := by decide

/-- What R80 and R81 call no instruction. -/
theorem test_decode_refuses :
    decodeTableWord 32 0 = none ∧ decodeTableWord 32 0x8A000000 = none ∧
    decodeTableWord 32 0b1_0_000001_00011_00100_00101_011111_000 = none ∧
    decodeTableWord 32 0b1_0_000001_00011_00100_00101_000000_001 = none ∧
    decodeTableWord 32 0b1_0_111000_000001_000010_1000_100_00_0_00 = none ∧
    decodeTableWord 32 0b1_0_010100_00011_110_0_000000000000111 = none ∧
    decodeTableWord 32 0b1_0_111101_000_001_10000000_00001_00010 = none ∧
    decodeTableWord 32 0b1_0_001000_01000_00010_00001_000000001 = none := by decide

/-! ### Single steps -/

/-- A user context that runs on core 0 of die 0, with its page tables and a `nop` at its PC. -/
def base : State := State.reset.withFetchWord 32 0x8F000000

/-- The base state with another context. -/
def ctx (f : Seqr → Seqr) : State := { base with ctx := f base.ctx }

/-- Values in g registers, without masks. -/
def gs (l : List (Nat × W32)) (q : Seqr) : Seqr :=
  { q with g := l.foldl (fun g e => g.setIfInBounds e.1 { val := e.2, taint := 0 }) q.g }

/-- Values in b registers, without masks. -/
def bs (l : List (Nat × W64)) (q : Seqr) : Seqr :=
  { q with b := l.foldl (fun g e => g.setIfInBounds e.1 { val := e.2, taint := 0 }) q.b }

/-- What an outcome shows of a next state. -/
def shows {α : Type} (o : Out) (f : State → α) : Option α := match o with | .next t => some (f t) | _ => none

/-- Division by zero gives all ones, and the remainder the dividend (R91). -/
theorem test_div_by_zero :
    shows (exec (.div 3 1 0) (ctx (gs [(1, 7)]))) (fun t => (t.ctx.rg 3).val) = some 0xFFFFFFFF ∧
    shows (exec (.rem 3 1 0) (ctx (gs [(1, 7)]))) (fun t => (t.ctx.rg 3).val) = some 7 := by decide +kernel

/-- g0 discards a write (R16). -/
theorem test_write_g0 : shows (exec (.addi 0 1 5) (ctx (gs [(1, 7)]))) (fun t => (t.ctx.rg 0).val) = some 0 := by decide +kernel

/-- The most negative number divided by −1 (R91). -/
theorem test_div_overflow :
    shows (exec (.div 3 1 2) (ctx (gs [(1, 0x80000000), (2, 0xFFFFFFFF)]))) (fun t => (t.ctx.rg 3).val) = some 0x80000000 := by
  decide +kernel

/-- The scalar store of a word to HBM enters the Curb and changes no memory yet (R121, R123). -/
theorem test_store_enters_curb :
    shows (exec (.stW 1 2 0 0 0) (ctx (fun q => bs [(2, 0x200100)] (gs [(1, 0xAB)] q))))
      (fun t => ((t.dieAt 0).curb.length, t.readLE 0x200100 4)) = some (1, 0) := by decide +kernel

/-- A misaligned load raises ALIGN with the effective address (R113), which the trap saves (R32). -/
theorem test_load_misaligned :
    shows (exec (.ldW 1 2 0 0) (ctx (bs [(2, 0x200102)]))) (fun t => (t.ctx.cause.toNat % 256, t.ctx.badaddr, t.ctx.depart)) =
      some (7, 0x200102, some .freeze) := by decide +kernel

/-- `trap` in a supervisor context goes on at cr.trap with the group's address in cr.epc (R218). -/
theorem test_trap_supervisor :
    shows (exec (.trap 3) (ctx (fun q => { q with sup := true, trapBase := 0x400 })))
      (fun t => (t.ctx.pc, t.ctx.epc, t.ctx.cause.toNat % 256)) = some (0x400, 0x200000, 0x12) := by decide +kernel

/-- `eret` goes on at cr.epc (R219). -/
theorem test_eret :
    shows (exec .eret (ctx (fun q => { q with sup := true, epc := 0x500 }))) (fun t => t.issue.npc) = some (some 0x500) := by
  decide +kernel

/-- A step runs the placed instruction: `nop` takes the PC past its group (R66). -/
theorem test_step_nop : shows (step base) (fun t => t.ctx.pc) = some 0x200004 := by decide +kernel

/-- A step runs `addi g3, g2, 5` with g2 = 1. -/
theorem test_step_addi :
    shows (step (State.reset.withFetchWord 32 0b1_0_000010_00011_00010_00000000000101)) (fun t => (t.ctx.rg 3).val) = some 6 := by
  decide +kernel

/-- The sync word of R138: 64 bytes at target 64 make one generation and leave no count. -/
theorem test_sync_word :
    (let s := (base.writeLE 0x200040 64 4).syncAdd 0x200040 64
     (s.readLE 0x200044 4, s.readLE 0x200048 4)) = (0, 1) := by decide +kernel

/-- A reset part is without work: a step of it changes neither memory nor the context (log entry 5). -/
theorem test_reset_step : shows (step State.reset) (fun t => (t.mem, t.ctx.handle)) = some ([], 0) := by decide +kernel

end Sys2Proof.Tests
end

