-- ==== Sys2Proof/Tests/Witnesses.lean ====
section
/-!
SUPPORT. Witnesses for the statements: for every statement with hypotheses, concrete states and operands that meet, clause by clause,
all the hypotheses together, at a boundary of their range where they have one. The name says the statement.
-/

namespace Sys2Proof.Tests

set_option Elab.async false

open Sys2Proof.Machine Sys2Proof.Claims

/-- The base state in which the sequencer's job has two lots, mapped to the core's lots 0 and 1. -/
def own : State :=
  { base with
    jobs := base.jobs.map (fun j => { j with card := j.card.setIfInBounds 1 (1 + 2 ^ 21) })
    ctx := { base.ctx with lots := [0, 1] } }

/-- The state with another context. -/
def withCtx (s : State) (f : Seqr → Seqr) : State := { s with ctx := f s.ctx }

/-- The base state in supervisor mode. -/
def sup : State := ctx (fun q => { q with sup := true })

/-- The home of the first byte of lot 0 of core 0. -/
def lot0 : Home := { place := 2 ^ 45, fe := some (.line (2 ^ 38)) }

/-- The translation of an address of the identity page. -/
def plain (a : W64) : Xlat := { pkg := 0, via := .phys, addr := a, mc := none, sc := false, exp := 50000 }

/-- The translation of byte o of lot 0 of sequencer 0 of job 1. -/
def inLot (o : W64) : Xlat := { pkg := 0, via := .lot 1 0, addr := o, mc := none, sc := false, exp := BitVec.allOnes 64 }

/-- A word of this package's HBM, whose lines keep no bit. -/
def word (a : Nat) : Home := { place := a, fe := none }

/-- The executing member's request of another package, with this reply if it has one. -/
def asked (r : Option Reply) (q : Seqr) : Seqr := { q with asks := [{ pos := 0, tag := 0, effect := false, place := none, reply := r }] }

/-- The state with stores of the executing group whose queue lags. -/
def lagging (s : State) : State := { s with issue := { s.issue with late := true } }

/-- The state while the frame of place 0 of die 0 moves to the next. -/
def migrating (s : State) : State :=
  s.modTu 0 (fun t => { t with migration := some { old := 0, fresh := 0x200000, leaf := 0, switched := none, heldOld := [], heldNew := [] } })

/-- The base state with three more leaves: a window of multicast group 3 at 0x400000, a REMOTE page of package 5 at 0x600000, and
one of this package at 0x800000, whose address space 9 has no page. -/
def windows : State :=
  (((ctx (bs [(1, 0x400000), (2, 0x600000), (3, 0x800000)])).writeLE 0x4010 (3 + 2 ^ 8 + 1 * 2 ^ 9 + 3 * 2 ^ 11) 8).writeLE 0x4018
    (3 + 2 ^ 8 + 3 * 2 ^ 9 + 5 * 2 ^ 11 + 1 * 2 ^ 26) 8).writeLE 0x4020 (3 + 2 ^ 8 + 3 * 2 ^ 9 + 9 * 2 ^ 26) 8

/-- The translation of an address of that REMOTE page. -/
def remote (a : W64) : Xlat := { plain a with pkg := 5, via := .remote 1 }

/-- The translation of 0x800000, which its destination does not translate. -/
def nowhere : Xlat := { plain 0x800000 with via := .remote 9 }

/-! ### Scalar, control and system -/

theorem wit_LotWindowBase :
    (∃ j, own.jobOf own.ctx.job = some j ∧ (own.rg 2).val.toNat < j.lots ∧ j.lots ≤ ((ctx (gs [(1, 2)])).rg 1).val.toNat) := by
  refine ⟨((own.jobOf 1).getD probeJob), ?_⟩
  decide +kernel

theorem wit_ControlTransfers :
    let s := ctx (bs [(1, 0x400), (2, 0x402), (7, 0x404)])
    xor ((s.rk 0).val.getLsbD 0) ((1 : BitVec 1) = 1) = false ∧ xor ((s.rk 0).val.getLsbD 0) ((0 : BitVec 1) = 1) = true ∧
    (s.rb 1).val.toNat % 4 = 0 ∧ (s.rb 7).val.toNat % 4 = 0 ∧ (s.rb 2).val.toNat % 4 ≠ 0 ∧
    ((ctx (bs [(7, 3)])).rb 7).val.toNat % 4 ≠ 0 := by decide +kernel

/-- A valid level of the loop stack with these counts. -/
def level (count index : W32) : LoopLevel := { valid := true, count := count, index := index, start := 0x200000, stop := 0x200000 }

/-- The base state with n valid levels. -/
def looping (n : Nat) (count index : W32) : State :=
  ctx (fun q => { q with ls := Vector.ofFn (fun i => if i.val < n then level count index else .zero) })

theorem wit_exitsTo : exitsTo base 0x200000 0x200004 :=
  ⟨0, by decide, by decide, by decide +kernel, by decide⟩

theorem wit_LoopResults :
    (let s := looping 5 1 0; (5 : BitVec 3).toNat = s.src.levels ∧ (5 : BitVec 3).toNat ≤ 5 ∧ (s.rg 2).val ≠ 0 ∧ (s.rg 0).val = 0) ∧
    ((6 : BitVec 3).toNat ≠ (looping 6 1 0).src.levels ∨ 6 ≤ (6 : BitVec 3).toNat) ∧
    (let s := looping 6 2 0; s.src.levels = (5 : BitVec 3).toNat + 1 ∧ (s.src.level 5).index.toNat + 1 < (s.src.level 5).count.toNat) ∧
    (let s := looping 6 1 0; s.src.levels = (5 : BitVec 3).toNat + 1 ∧ (s.src.level 5).count.toNat ≤ (s.src.level 5).index.toNat + 1) ∧
    (looping 0 1 0).src.levels ≠ (0 : BitVec 3).toNat + 1 := by decide +kernel

theorem wit_LoopBreakResults :
    (looping 1 1 0).src.levels ≠ 0 ∧ xor (((looping 1 1 0).rk 0).val.getLsbD 0) ((0 : BitVec 1) = 1) = true ∧
    ((looping 1 1 0).src.level 0).stop = 0x200000 ∧
    xor (((looping 1 1 0).rk 0).val.getLsbD 0) ((1 : BitVec 1) = 1) = false ∧ (looping 0 1 0).src.levels = 0 ∧
    (looping 6 1 0).src.levels = (5 : BitVec 5).toNat + 1 ∧ (looping 6 1 0).src.levels ≠ (0 : BitVec 5).toNat + 1 := by
  decide +kernel

/-- A member executes in slot 0, and n records are pending in the trap queue. -/
def pendingQueue (n : Nat) : State := { base with issue := { base.issue with slot := 0 } }.modDie 0 (fun d => { d with queue := { d.queue with tail := BitVec.ofNat 11 n } })

theorem wit_TrapInstruction :
    base.ctx.sup = false ∧ sup.ctx.sup = true ∧ (pendingQueue 1023).issue.slot ≠ 7 ∧
    (let q := ((pendingQueue 1023).dieAt 0).queue
     q.pending < 1024 ∧ paPkg q.qsync = (pendingQueue 1023).pkg ∧ (pendingQueue 1023).migrationAt (paLocal q.qsync) = none ∧
     ((migrating (pendingQueue 1023)).migrationAt (paLocal q.qsync)).isSome = true) ∧
    paPkg ((base.modDie 0 (fun d => { d with queue := { d.queue with qsync := 2 ^ 49 } })).dieAt 0).queue.qsync ≠ base.pkg ∧
    1024 ≤ ((pendingQueue 1024).dieAt 0).queue.pending := by decide +kernel

theorem wit_TrapReturn : sup.src.sup = true ∧ base.src.sup = false := by decide +kernel

theorem wit_ControlRegisterRead :
    (18 : BitVec 8).toNat ≤ 19 ∧ sup.src.sup = true ∧ base.src.sup = false ∧ ((19 : BitVec 8) ≠ 18) := by decide +kernel

theorem wit_ControlRegisterWrite :
    (base.rg 2).taint = 0 ∧ 19 ∈ [6, 7, 13, 14, 19] ∧ 18 ∈ [8, 10, 11, 15, 16, 17, 18] ∧ base.src.sup = false ∧ sup.src.sup = true ∧
    (2 : BitVec 8).toNat ∉ [6, 7, 13, 14, 19] ∧ (2 : BitVec 8).toNat ∉ [8, 10, 11, 15, 16, 17, 18] ∧
    5 ≤ (BitVec.ofNat 64 (((ctx (gs [(1, 5)])).rg 1).val.toNat)).toNat % 8 ∧ ¬ 5 ≤ (BitVec.ofNat 64 ((base.rg 2).val.toNat)).toNat % 8 := by
  decide +kernel

theorem wit_SystemReads :
    (let s := withCtx sup (bs [(1, BitVec.ofNat 64 (4 * 2 ^ 46 + 0x17 * 2 ^ 40 + 0x20 * 2 ^ 16)), (2, BitVec.ofNat 64 (4 * 2 ^ 46)),
        (3, BitVec.ofNat 64 (2 ^ 49))])
     s.src.sup = true ∧ (s.rb 1).taint = 0 ∧ (s.rb 1).val.toNat / 2 ^ 49 = s.pkg.toNat ∧ (s.keyWord (s.rb 1).val).isSome = true ∧
     (s.rb 2).val.toNat / 2 ^ 49 = s.pkg.toNat ∧ s.keyWord (s.rb 2).val = none ∧ (s.rb 3).val.toNat / 2 ^ 49 ≠ s.pkg.toNat ∧
     request s = none ∧ (request (withCtx s (asked (some (.value 5))))).bind Ask.reply = some (.value 5)) ∧
    base.src.sup = false := by decide +kernel

theorem wit_YieldAndSleep :
    base.queuedForCore = false ∧
    ({ base with runQueue := [2], seqs := [{ base.ctx with handle := 2, index := 1, st := .queued }] }).queuedForCore = true ∧
    (base.rg 0).val = 0 ∧ (base.rg 2).taint = 0 ∧ (base.rg 2).val ≠ 0 ∧ base.ctx.wait = none ∧ base.ctx.held = none ∧
    (let s := ctx (fun q => { q with wait := some (.sleepUntil 0, 0) })
     s.ctx.wait = some (.sleepUntil 0, 0) ∧ s.ctx.wakeAt = 0 ∧ 0 ≤ (s.dieAt s.ctx.cdie.toNat).cycle) := by decide +kernel

/-- A supervisor context beside the base context, which is `q`, with g1 naming the master m. -/
def beside (q : Seqr) (m : W32) : State :=
  { base with ctx := gs [(1, m)] { base.ctx with handle := 2, sup := true, index := 1 }, seqs := [q] }

theorem wit_FreezeAndThaw :
    (let s := beside base.ctx 1; s.src.sup = true ∧ (s.rg 1).val.toNat / 2 ^ 28 = 0 ∧ (s.rg 1).val.toNat % 2 ^ 28 < 2 ^ 24 ∧
      s.seqOf 1 = some base.ctx ∧ base.ctx.sup = false ∧ base.ctx.st = .running ∧ base.ctx.st ≠ .frozen ∧ base.ctx.st ≠ .retired ∧
      s.jobLive base.ctx.job = true) ∧
    (let q := { base.ctx with sup := true }; (beside q 1).seqOf 1 = some q ∧ q.sup = true) ∧
    (let q := asked none base.ctx; (beside q 1).seqOf 1 = some q ∧ q.st = .running ∧ ∀ x ∈ q.asks, x.effect = false) ∧
    (let q := { base.ctx with asks := [{ pos := 0, tag := 0, effect := true, place := none, reply := none }] }
     (beside q 1).seqOf 1 = some q ∧ q.st = .running ∧ ∃ x ∈ q.asks, x.effect = true) ∧
    (let q := { base.ctx with st := .frozen }; (beside q 1).seqOf 1 = some q ∧ q.st = .frozen) ∧
    (let q := { base.ctx with depart := some .freeze }
     (beside q 1).seqOf 1 = some q ∧ q.depart = some .freeze ∧ q.st ≠ .retired ∧ (beside q 1).masterEnded (.seq q.handle) = false) ∧
    (let q := base.ctx
     q.depart ≠ some .freeze ∧ q.st ≠ .frozen ∧ q.st ≠ .retired ∧ (beside q 1).masterEnded (.seq q.handle) = false ∧
       State.masterEnded { beside q 1 with jobs := base.jobs.map (fun j => { j with ended := some 1 }) } (.seq q.handle) = true) ∧
    (let q := { base.ctx with st := .retired }; (beside q 1).seqOf 1 = some q ∧ q.st = .retired) ∧
    (let s := beside base.ctx 0x1300007F; (s.rg 1).val.toNat / 2 ^ 28 = 1 ∧ (s.rg 1).val.toNat % 2 ^ 28 < 2 ^ 26 ∧
      (s.rg 1).val.toNat % 2 ^ 28 % 2 ^ 24 < 128 ∧ (s.chan 3 127).state ≠ 4 ∧ s.masterEnded (.channel 3 127) = false) ∧
    (let s := beside base.ctx 0x20000FFF; (s.rg 1).val.toNat / 2 ^ 28 = 2 ∧ (s.rg 1).val.toNat % 2 ^ 28 < 4096 ∧
      (s.coll 4095).frozen = false ∧ s.masterEnded (.coll 4095) = false ∧
      ({ s.modColl 4095 (fun c => { c with job := 9 }) with
        jobs := [{ probeJob with num := 9, ended := some 1, retired := true }] }).masterEnded (.coll 4095) = true) ∧
    (let s := beside base.ctx 0x30000043; (s.rg 1).val.toNat / 2 ^ 28 = 3 ∧ (s.rg 1).val.toNat % 2 ^ 28 < 68 ∧ s.groups = []) ∧
    (let s := (beside base.ctx 0x4000003F).modConn 63 (fun c => { c with isOpen := true })
     (s.rg 1).val.toNat / 2 ^ 28 = 4 ∧ (s.rg 1).val.toNat % 2 ^ 28 < 64 ∧ (s.conn 63).isOpen = true) ∧
    5 ≤ ((beside base.ctx 0x50000000).rg 1).val.toNat / 2 ^ 28 ∧ base.src.sup = false := by decide +kernel

theorem wit_ExitRetires :
    let s := { base with jobs := base.jobs.map (fun j => { j with left := 2 }) }
    (s.rg 2).taint = 0 ∧ quiet s ∧ s.crews = [] ∧ (s.coreOf s.ctx.coreNo).mq = [] ∧ (∀ p < 8, (s.src.port p).bind ≠ 2) ∧
    s.jobOf s.ctx.job = some { probeJob with left := 2 } ∧ 1 < ({ probeJob with left := 2 } : Job).left := by
  unfold quiet; decide +kernel

/-! ### Memory -/

/-- The base state with b1 at the last word of the page's first line, b2 misaligned and b3 in no page. -/
def addressed : State := ctx (bs [(1, 0x20007C), (2, 0x20007D), (3, 0x400000), (4, 0x200080), (5, 0x200100)])

theorem wit_ScalarLoads :
    noStores addressed ∧ plainAddress addressed 1 0 ∧ (address addressed 1 0 0 4).toNat % 4 = 0 ∧
    loadable addressed (addressed.touchAll addressed.me [address addressed 1 0 0 4]) .load (address addressed 1 0 0 4) 4
      (plain 0x20007C) (word 0x20007C) := by
  unfold noStores plainAddress loadable; decide +kernel

theorem wit_ScalarLoads_widths :
    (∀ n ∈ [1, 2, 4, 8],
      (address addressed 4 0 0 n).toNat % n = 0 ∧
      loadable addressed (addressed.touchAll addressed.me [0x200080]) .load (address addressed 4 0 0 n) n (plain 0x200080) (word 0x200080)) ∧
    (∀ n ∈ [1, 2, 4, 8],
      noStores windows ∧ plainAddress windows 2 0 ∧ (address windows 2 0 0 n).toNat % n = 0 ∧
      windows.translate windows.me .load (address windows 2 0 0 n) n = .ok (remote 0x600000) ∧ (remote 0x600000).pkg ≠ windows.pkg ∧
      request windows = none ∧ (request (withCtx windows (asked (some (.value 5))))).bind Ask.reply = some (.value 5)) := by
  unfold noStores plainAddress loadable; decide +kernel

theorem wit_ScalarLoads_stops :
    (∀ n ∈ [2, 4, 8], (address addressed 2 0 0 n).toNat % n ≠ 0) ∧
    (∀ n ∈ [1, 2, 4, 8], (address addressed 3 0 0 n).toNat % n = 0 ∧
      addressed.translate addressed.me .load (address addressed 3 0 0 n) n = .error (8, 0x400000)) ∧
    (let s := { addressed with poison := [0x10003] }.touchAll addressed.me [0x20007C]
     s.homeOf 0 false .load .phys 0x20007C = .ok (word 0x20007C) ∧ isSession 0x20007C = false ∧
       s.feFull none = true ∧ s.poisoned 0x20007C 1 = true) ∧
    (let s := { withCtx own (bs [(1, 0xFFFF000000000000)]) with empties := [2 ^ 38] }
     ∀ n ∈ [1, 2, 4, 8], s.translate s.me .load (address s 1 0 0 n) n = .ok (inLot 0) ∧
       (s.touchAll s.me [address s 1 0 0 n]).homeOf 0 false .load (.lot 1 0) 0 = .ok lot0 ∧ s.feFull lot0.fe = false) ∧
    (∀ n ∈ [1, 2, 4, 8], windows.translate windows.me .load (address windows 3 0 0 n) n = .ok nowhere ∧
      (windows.touchAll windows.me [address windows 3 0 0 n]).homeOf 0 false .load nowhere.via nowhere.addr = .error 8) := by
  decide +kernel

theorem wit_VectorLoad :
    (0 : BitVec 4).toNat ≤ 7 ∧ (address addressed 4 0 0 256).toNat % 128 = 0 ∧
    (let s := addressed.touchAll addressed.me [0x200080, 0x200100]
     loadable addressed s .load 0x200080 128 (plain 0x200080) (word 0x200080) ∧
     loadable addressed (noted s (plain 0x200080) (word 0x200080)) .load 0x200100 128 (plain 0x200100) (word 0x200100)) := by
  unfold loadable; decide +kernel

/-- A walk of four entries of 256 bytes at an address. -/
def walkAt (a : W64) : Walk := .start #v[0, a, 0x0001000100010400, 0, 0, 0, 0, 0]

/-- A port bound to such a walk. -/
def portAt (bind : BitVec 2) (entries : List Vec) : FeedPort :=
  { bind := bind, tag := 1, aux := 0, swz := 0, entries := entries, walk := some (walkAt 0x200000), closing := false }

/-- The context with port 0 bound for fill with an entry, and port 1 for drain with three. -/
def ported (q : Seqr) : Seqr := { q with ports := (q.ports.setIfInBounds 0 (portAt 1 [5])).setIfInBounds 1 (portAt 2 [1, 2, 3]) }

theorem wit_VectorLoad_port :
    let f := (ctx ported).src.port 1
    f.bind = 2 ∧ f.closing = false ∧ f.walk = some (walkAt 0x200000) ∧ (walkAt 0x200000).failed = none ∧
    (walkAt 0x200000).place + 256 * (f.entries.length + 1) ≤ (walkAt 0x200000).length ∧ f.entries.length < 4 := by decide +kernel

/-- The context with offsets 0, 1, 2 and on in v1, of tag i32, and the lower 32 lanes in k1. -/
def offsets (q : Seqr) : Seqr :=
  { q with
    v := q.v.setIfInBounds 1 { val := ofLanes (fun l => BitVec.ofNat 32 l), tag := 5, aux := 0, taint := 0 }
    k := q.k.setIfInBounds 1 { val := 0xFFFFFFFF, taint := 0 } }

theorem wit_Gather :
    let s := withCtx addressed offsets
    (1 : BitVec 6).toNat < 56 ∧ (s.src.rv 1).tag = 5 ∧ (s.src.rv 1).taint = 0 ∧ (s.rb 4).taint = 0 ∧ (s.rk 1).taint = 0 ∧ s.src.ctaint = 0 ∧
    (∀ l < 64, (s.rk 1).val.getLsbD l = true ↔ l < 32) ∧ s.ctx.depart = none ∧ noStores s := by
  unfold noStores; decide +kernel

/-- The lanes of that gather, one by one. -/
theorem wit_Gather_lanes :
    let s := withCtx addressed offsets
    let on (l : Nat) : Bool := (s.rk 1).val.getLsbD l
    let a (l : Nat) : W64 := (s.rb 4).val + BitVec.ofInt 64 (((s.src.rv 1).val.extractLsb' (32 * l) 32).toInt * 4)
    let s' := s.touchAll s.me (((List.range 64).filter on).map a)
    let ys (l : Nat) : Xlat := plain (0x200080 + BitVec.ofNat 64 (4 * l))
    let hs (l : Nat) : Home := word (0x200080 + 4 * l)
    ∀ l < 64, on l = true → (a l).toNat % 4 = 0 ∧
      loadable s (((List.range l).filter on).foldl (fun u j => noted u (ys j) (hs j)) s') .load (a l) 4 (ys l) (hs l) := by
  unfold loadable; decide +kernel

theorem wit_FullEmptyReads :
    (let s := withCtx own (bs [(1, 0xFFFF000000000000)])
     let s' := s.touchAll s.me [address s 1 0 0 4]
     noStores s ∧ plainAddress s 1 0 ∧ (address s 1 0 0 4).toNat % 4 = 0 ∧
     loadable s s' .bit (address s 1 0 0 4) 4 (inLot 0) lot0 ∧ s'.frameOf lot0 = none ∧
     s.translate s.me .load (address s 1 0 0 1) 1 = .ok (inLot 0) ∧ s'.homeOf 0 false .load (.lot 1 0) 0 = .ok lot0 ∧
     s'.homeOf 0 false .bit (.lot 1 0) 0 = .ok lot0 ∧ lot0.fe = some (.line (2 ^ 38)) ∧ 2 ^ 38 ∉ s.empties ∧ s.ldfeQueue = [] ∧
     2 ^ 38 ∈ ({ s with empties := [2 ^ 38] } : State).empties) ∧
    (let s := { own with ldfeQueue := [(.line (2 ^ 38), 0, 7)] }
     s.ldfeQueue.find? (fun e => e.1 = .line (2 ^ 38)) = some (.line (2 ^ 38), 0, 7) ∧ ((0 : BitVec 15), (7 : BitVec 24)) ≠ (s.pkg, s.ctx.handle)) := by
  unfold noStores plainAddress loadable; decide +kernel

/-- The lot's window in b1, and a value in g1. -/
def storing : State := withCtx own (fun q => bs [(1, 0xFFFF000000000000), (2, 0x11223344)] (gs [(1, 0xABCD)] q))

theorem wit_ScalarStores :
    noStores storing ∧ plainAddress storing 1 0 ∧ (storing.rg 1).taint = 0 ∧ (storing.rb 2).taint = 0 ∧
    (∀ n ∈ [1, 2, 4, 8], (address storing 1 0 0 n).toNat % n = 0 ∧
      storing.translate storing.me .store (address storing 1 0 0 n) n = .ok (inLot 0) ∧
      (storing.touchAll storing.me [address storing 1 0 0 n]).ownHome (inLot 0) = some lot0) ∧
    prompt storing (inLot 0).sc ∧ prompt (lagging storing) true := by
  unfold noStores plainAddress prompt; decide +kernel

theorem wit_VectorStores :
    plainVector storing 1 ∧ plainVector (withCtx storing ported) 56 ∧ (storing.rk 0).taint = 0 ∧
    (address storing 1 0 0 256).toNat % 128 = 0 ∧
    storing.translate storing.me .store 0xFFFF000000000000 128 = .ok (inLot 0) ∧
    storing.translate storing.me .store (0xFFFF000000000000 + 128) 128 = .ok (inLot 128) ∧ prompt storing false ∧
    (let s := storing.touchAll storing.me [0xFFFF000000000000, 0xFFFF000000000080]
     s.ownHome (inLot 0) = some lot0 ∧
     s.ownHome (inLot 128) = some { place := 2 ^ 45 + 128, fe := some (.line (2 ^ 38 + 1)) }) := by
  unfold plainVector readable prompt; decide +kernel

theorem wit_ScatterStore :
    let s := withCtx storing offsets
    (s.src.rv 1).tag = 5 ∧ (s.src.rv 1).taint = 0 ∧ (s.rk 1).taint = 0 ∧ (∃ l < 64, (s.rk 1).val.getLsbD l = true) ∧
    noStores s ∧ plainVector s 1 ∧ s.src.ctaint = 0 ∧ (∀ l < 64, (s.rk 1).val.getLsbD l = true → l < 32) ∧
    (∀ l < 32, s.translate s.me .scat ((s.rb 1).val + BitVec.ofInt 64 (((s.src.rv 1).val.extractLsb' (32 * l) 32).toInt * 4)) 4 =
      .ok (inLot (BitVec.ofNat 64 (4 * l)))) ∧
    (∀ l < 32, s.ownHome (inLot (BitVec.ofNat 64 (4 * l))) = some { place := 2 ^ 45 + 4 * l, fe := some (.line (2 ^ 38)) }) ∧
    prompt s (inLot 0).sc ∧ (lagging s).issue.late = true ∧ (inLot 0).sc = false ∧
    (let z := withCtx s (fun q => { q with k := q.k.setIfInBounds 1 { val := 0, taint := 0 } })
     (∀ l < 64, (z.rk 1).val.getLsbD l = false) ∧ z.translate z.me .store (z.rb 1).val 0 = .ok (inLot 0) ∧
       (z.touchAll z.me [(z.rb 1).val]).ownHome (inLot 0) = some lot0) := by
  unfold noStores plainVector readable prompt; decide +kernel

theorem wit_CurbStores :
    noStores addressed ∧ plainAddress addressed 4 0 ∧ (addressed.rg 2).taint = 0 ∧ (addressed.rb 1).taint = 0 ∧
    (∀ n ∈ [1, 2, 4, 8], (address addressed 4 0 0 n).toNat % n = 0 ∧
      addressed.translate addressed.me .store (address addressed 4 0 0 n) n = .ok (plain 0x200080) ∧
      (addressed.touchAll addressed.me [address addressed 4 0 0 n]).ownHome (plain 0x200080) = none) ∧
    prompt addressed (plain 0x200080).sc ∧ (lagging addressed).issue.late = true ∧ (plain 0x200080).sc = false ∧ noStores (lagging addressed) := by
  unfold noStores plainAddress prompt; decide +kernel

theorem wit_CurbVectorStores :
    plainVector addressed 1 ∧ (address addressed 4 0 0 256).toNat % 128 = 0 ∧ prompt addressed false ∧
    (lagging addressed).issue.late = true ∧ (plain 0x200080).sc = false ∧ (plain 0x200100).sc = false ∧
    addressed.translate addressed.me .store 0x200080 128 = .ok (plain 0x200080) ∧
    addressed.translate addressed.me .store (0x200080 + 128) 128 = .ok (plain 0x200100) ∧
    (addressed.touchAll addressed.me [0x200080, 0x200100]).ownHome (plain 0x200080) = none ∧
    (let s := withCtx addressed offsets; (0 : BitVec 4).toNat ∈ [0, 4, 5] ∧ (source s.src 1).tag = 5) := by
  unfold plainVector readable prompt; decide +kernel

/-- The base state with the lot's window 128 bytes below its end in b1. -/
theorem wit_CurbVectorStores_half :
    let s := withCtx own (bs [(1, 0xFFFF00000000FF80)])
    (address s 1 0 0 256).toNat % 128 = 0 ∧ s.translate s.me .store 0xFFFF00000000FF80 128 = .ok (inLot 0xFF80) ∧
    (s.touchAll s.me [0xFFFF00000000FF80, 0xFFFF000000010000]).ownHome (inLot 0xFF80) =
      some { place := 2 ^ 45 + 0xFF80, fe := some (.line (2 ^ 38 + 511)) } := by
  decide +kernel

theorem wit_CurbVectorStores_multicast :
    windows.translate windows.me .mc 0x400000 128 = .ok { plain 0 with mc := some 3 } ∧
    windows.translate windows.me .mc (0x400000 + 128) 128 = .ok { plain 128 with mc := some 3 } ∧ (128 : W64) = 0 + 128 := by
  decide +kernel

theorem wit_CurbStores_remote :
    (∀ n ∈ [1, 2, 4, 8, 128], windows.translate windows.me .store 0x600000 n = .ok (remote 0x600000)) ∧
    (windows.touchAll windows.me [0x600000]).ownHome (remote 0x600000) = none ∧
    windows.translate windows.me .bit 0x600000 1 = .ok (remote 0x600000) ∧
    (remote 0x600000).pkg ≠ windows.pkg ∧ (remote 0x600000).via ≠ .phys := by
  decide +kernel

theorem wit_LineMarks :
    (byteAddress storing 1 0 = 0xFFFF000000000000 ∧ noStores storing ∧ plainAddress storing 1 0 ∧
      storing.translate storing.me .bit 0xFFFF000000000000 1 = .ok (inLot 0) ∧
      (storing.touchAll storing.me [0xFFFF000000000000]).ownHome (inLot 0) = some lot0) ∧
    (addressed.translate addressed.me .bit 0x200080 1 = .ok (plain 0x200080) ∧
      (addressed.touchAll addressed.me [0x200080]).homeOf 0 false .bit .phys 0x200080 = .ok (word 0x200080)) ∧
    (inLotWindows 0x600000 = false ∧ prompt windows (remote 0x600000).sc ∧ (lagging windows).issue.late = true ∧
      (remote 0x600000).sc = false ∧ noStores (lagging windows)) := by
  unfold noStores plainAddress prompt; decide +kernel

theorem wit_LineMarks_stops :
    (let s := (ctx (bs [(1, 0x400000)])).writeLE 0x4010 (0x13 + 5 * 2 ^ 49) 8
     s.translate s.me .bit 0x400000 1 = .ok { plain (5 * 2 ^ 49) with pkg := 5 } ∧ isScratch (paLocal (5 * 2 ^ 49)) = false) ∧
    (let s : State := { storing with jobs := storing.jobs.map (fun j => { j with ended := some 1 }) }
     inLotWindows 0xFFFF000000000000 = true ∧ s.translate s.me .bit 0xFFFF000000000000 1 = .ok (inLot 0) ∧
       (s.touchAll s.me [0xFFFF000000000000]).ownHome (inLot 0) = none ∧
       (s.touchAll s.me [0xFFFF000000000000]).homeOf 0 false .bit (.lot 1 0) 0 = .error 9) := by
  decide +kernel

theorem wit_SyncWords :
    (noStores addressed ∧ plainAddress addressed 4 0 ∧ byteAddress addressed 4 0 = 0x200080 ∧ (0x200080 : W64).toNat % 16 = 0 ∧
      addressed.translate addressed.me .store 0x200080 16 = .ok (plain 0x200080) ∧
      addressed.translate addressed.me .load 0x200080 16 = .ok (plain 0x200080) ∧
      (addressed.touchAll addressed.me [0x200080]).homeOf 0 false .store .phys 0x200080 = .ok (word 0x200080) ∧
      (addressed.touchAll addressed.me [0x200080]).homeOf 0 false .load .phys 0x200080 = .ok (word 0x200080) ∧
      hasMemory 0x200080 = true ∧ (addressed.touchAll addressed.me [0x200080]).migrationAt 0x200080 = none ∧
      (addressed.touchAll addressed.me [0x200080]).poisoned 0x200080 12 = false ∧
      (addressed.touchAll addressed.me [0x200080]).poisoned 0x200088 4 = false ∧
      0 < ((0 : W32) - 0xFFFFFFFF).toInt ∧ ((0 : W32) - (addressed.rg 0).val).toInt ≤ 0 ∧ (byteAddress addressed 2 0).toNat % 16 ≠ 0) ∧
    (let s := { addressed with poison := [0x10004] }.touchAll addressed.me [0x200080]
     s.poisoned 0x200080 12 = true ∧ s.poisoned 0x200088 4 = true) ∧
    (noStores windows ∧ plainAddress windows 2 0 ∧ byteAddress windows 2 0 = 0x600000 ∧
      windows.translate windows.me .store 0x600000 16 = .ok (remote 0x600000) ∧
      windows.translate windows.me .load 0x600000 16 = .ok (remote 0x600000) ∧ (remote 0x600000).pkg ≠ windows.pkg ∧
      request windows = none ∧ windows.ctx.held = none ∧
      (request (withCtx windows (asked (some (.value 5))))).bind Ask.reply = some (.value 5)) := by
  unfold noStores plainAddress; decide +kernel

theorem wit_FeedPorts :
    (let s := ctx (fun q => { gs [(1, 1 + 2 ^ 5)] q with staging := [(128, 0x100), (130, 0x0001000100010400)] })
     let f := s.src.port 0
     f.bind = 0 ∧ f.closing = false ∧ (s.rg 1).val.toNat % 4 = 1 ∧ (s.rg 1).val.toNat / 2 ^ 5 % 16 = 1 ∧
     (s.rg 1).val.toNat / 2 ^ 12 = 0 ∧ descOk (feedDescriptor s 0) = true ∧
     ((feedDescriptor s 0)[0]).toNat / 2 ^ 8 % 16 = 1 ∧ ((feedDescriptor s 0)[0]).toNat / 2 ^ 12 % 8 = 0) ∧
    (∀ w ∈ [(0 : Nat), 3, 1 + 10 * 2 ^ 5, 1 + 8 * 2 ^ 5 + 7 * 2 ^ 9, 1 + 2 ^ 5 + 2 ^ 9, 1 + 2 ^ 5 + 2 ^ 12, 1 + 2 ^ 5, 1 + 2 ^ 5 + 6 * 4],
      let s := ctx (fun q => { gs [(1, BitVec.ofNat 32 w)] q with staging := [(128, 0x1100), (130, 0x0001000100010400)] })
      let w := (s.rg 1).val.toNat
      let header := ((feedDescriptor s (w / 4 % 8))[0]).toNat
      (s.src.port 0).closing = false ∧ (w % 4 = 0 ∨ w % 4 = 3 ∨ 10 ≤ w / 2 ^ 5 % 16 ∨ w / 2 ^ 5 % 16 = 8 ∧ w / 2 ^ 9 % 8 = 7 ∨
        w / 2 ^ 5 % 16 ≠ 8 ∧ w / 2 ^ 9 % 8 ≠ 0 ∨ w / 2 ^ 12 ≠ 0 ∨ descOk (feedDescriptor s (w / 4 % 8)) = false ∨
        header / 2 ^ 8 % 16 ≠ w / 2 ^ 5 % 16 ∨ header / 2 ^ 12 % 8 ≠ w / 2 ^ 9 % 8)) ∧
    (let s := ctx ported; (s.src.port 0).bind ≠ 0 ∧ (s.src.port 0).bind = 1 ∧ (s.src.port 1).bind = 2 ∧ (s.src.port 1).closing = false ∧
      (s.src.port 1).walk.bind Walk.failed = none ∧ (s.src.port 1).entries ≠ [] ∧ (s.src.port 2).bind = 0) ∧
    (let s := ctx (fun q => { q with ports := (q.ports.setIfInBounds 0 { portAt 2 [1] with closing := true }).setIfInBounds 1 (portAt 2 []) })
     (s.src.port 0).closing = true ∧ (s.src.port 0).walk.bind Walk.failed = none ∧ (s.src.port 1).bind = 2 ∧ (s.src.port 1).entries = []) ∧
    (let failing : FeedPort := { portAt 2 [1] with walk := some { walkAt 0 with failed := some (8, 0) } }
     let s := ctx (fun q => { q with ports := q.ports.setIfInBounds 0 failing })
     (s.src.port 0).bind = 2 ∧ (s.src.port 0).closing = false ∧ (s.src.port 0).walk.bind Walk.failed = some (8, 0)) ∧
    (let failing : FeedPort := { portAt 0 [1] with closing := true, walk := some { walkAt 0 with failed := some (8, 0) } }
     let s := ctx (fun q => { q with ports := q.ports.setIfInBounds 0 failing })
     (s.src.port 0).closing = true ∧ (s.src.port 0).walk.bind Walk.failed = some (8, 0)) := by
  decide +kernel

/-- A part on its way, and an entry of the Curb of die 0 that holds it. -/
def part : Part := { pkg := 0, die := 0, via := .phys, addr := 0x200100, va := 0x200100, exp := 50000, effects := [.byte 0x200100 7], st := .waiting }
def entry : CurbEntry :=
  { num := 3, handle := 1, job := 1, asid := 1, sup := false, kind := .plain, sc := false, stream := 1, seqno := 0, group := none
    offset := 0, released := some 1, order := 0, parts := [part] }

/-- The base state with an entry in the Curb of die 0. -/
def curbed (e : CurbEntry) : State := base.modDie 0 (fun d => { d with curb := [e] })

/-- A loss of a store of stream 1. -/
def aLoss : Loss := { stream := 1, dests := [{ pkg := 1, die := 4, core := none }], addr := 0x200100 }

theorem wit_Fences :
    (noStores base ∧ base.src.ctaint = 0 ∧ base.ctx.losses = [] ∧ base.ctx.held = none) ∧
    (∃ e ∈ (curbed entry).earlierEntries, e.stream = 1) ∧ (∀ e ∈ (curbed entry).earlierEntries, e.sc = false ∧ e.stream ≠ 2) ∧
    (let s := ctx (fun q => { q with losses := [aLoss] })
     s.earlierEntries = [] ∧ s.ctx.losses.find? (fun l => l.stream = 1) = some aLoss ∧ s.ctx.losses.head? = some aLoss ∧ aLoss.dests ≠ []) ∧
    ((curbed entry).ctx.tags = Vector.replicate 16 none ∧ (curbed entry).ctx.held = none ∧ entry ∈ (curbed entry).earlierEntries ∧
      entry.group = none ∧ ∃ p ∈ entry.parts, p.pending = true) ∧
    (let e := { entry with group := some 3, parts := [{ part with st := .committed }] }; e ∈ (curbed e).earlierEntries ∧ e.group.isSome = true) ∧
    (ctx (fun q => { q with held := some (0x13, 0) })).ctx.held = some (0x13, 0) := by
  unfold noStores; decide +kernel

theorem wit_TaintInstructions :
    noStores base ∧ base.src.tags = base.ctx.tags ∧ (0 : BitVec 5).toNat + 32 * (1 : BitVec 1).toNat < 56 ∧
    56 ≤ (24 : BitVec 5).toNat + 32 * (1 : BitVec 1).toNat ∧
    (∀ live : Bool,
      let void : Option W64 := if live then none else some 0x200100
      let tag : TagEntry := { die := 0, entry := 3, stream := 1, seqno := 0, void := void, bound := false, dests := [] }
      let s := ctx (fun q => { q with
        g := q.g.setIfInBounds 1 { val := 7, taint := 0x8000 }, tags := Vector.ofFn (fun i => if i.val = 15 then some tag else none) })
      let m := namedMask s 1 0 0
      m.getLsbD 15 = true ∧ (∀ j < 15, m.getLsbD j = false) ∧ s.src.tags[(15 : Nat)]?.getD none = some tag ∧ tag.void = void) ∧
    (namedMask base 1 0 0 = 0 ∧ base.earlierEntries = []) := by unfold noStores; decide +kernel

/-! ### Vectors -/

/-- A register of a tag. -/
def vreg (tag : BitVec 4) (aux : BitVec 3) (val : Vec) : VReg := { val := val, tag := tag, aux := aux, taint := 0 }

/-- The context with these registers. -/
def vs (l : List (Nat × VReg)) (q : Seqr) : Seqr := { q with v := l.foldl (fun v e => v.setIfInBounds e.1 e.2) q.v }

theorem operands_register {s : State} {cs : List (BitVec 6)} {d : BitVec 6} {k : BitVec 3} {reads : Bool} {tag : BitVec 4}
    {aux : BitVec 3} (hc : ∀ c ∈ cs, readable s.src c) (hd : d.toNat < 56)
    (hk : k ≠ 0 → (s.src.rv d.toNat).tag = tag ∧ (s.src.rv d.toNat).aux = aux) : operands s cs d k reads tag aux :=
  ⟨hc, .inl hd, fun _ => hd, hk⟩

/-- FP32 in v1 to v3; port 0 filled, port 1 drained. -/
def floats : State := ctx (fun q => vs [(1, vreg 1 0 0x3F800000), (2, vreg 1 0 0), (3, vreg 1 0 0)] (ported q))

theorem wit_FpLanes :
    (source floats.src 1).tag = 1 ∧ (source floats.src 2).tag = 1 ∧ (floats.src.rv 3).tag = 1 ∧
    operands floats [1, 2] 3 1 false 1 0 ∧ operands floats [1, 2] 3 1 true 1 0 ∧ operands floats [1] 3 0 false 1 0 :=
  ⟨by decide +kernel, by decide +kernel, by decide +kernel,
    operands_register (by unfold readable; decide +kernel) (by decide) (by decide +kernel),
    operands_register (by unfold readable; decide +kernel) (by decide) (by decide +kernel),
    operands_register (by unfold readable; decide +kernel) (by decide) (by decide +kernel)⟩

/-- The same from a port to a port, under k0. -/
theorem wit_FpLanes_ports : (source floats.src 56).tag = 1 ∧ operands floats [56, 2] 57 0 false 1 0 := by
  refine ⟨by decide +kernel, by unfold readable; decide +kernel,
    .inr ⟨by decide +kernel, by decide +kernel, by decide +kernel, by decide +kernel, by decide +kernel, ?_⟩, by decide, by decide⟩
  have e : (floats.src.port ((57 : BitVec 6).toNat - 56)).walk = some (walkAt 0x200000) := by decide +kernel
  rw [e]
  show (walkAt 0x200000).failed = none ∧ _
  decide +kernel

/-- Integers of 32 bits, signed and not, of 16 and of 8 bits. -/
def integers : State := ctx (vs [(1, vreg 5 0 1), (2, vreg 9 0 1), (3, vreg 6 0 1), (4, vreg 7 0 1)])

theorem wit_IntegerLanes (e : BitVec 6 × BitVec 4) (h : e ∈ [((1 : BitVec 6), (5 : BitVec 4)), (2, 9), (3, 6), (4, 7)]) :
    operands integers [e.1, e.1] e.1 1 false e.2 0 ∧ (source integers.src e.1).tag = e.2 := by
  have all : ∀ e ∈ [((1 : BitVec 6), (5 : BitVec 4)), (2, 9), (3, 6), (4, 7)],
      e.1.toNat < 56 ∧ (integers.src.rv e.1.toNat).tag = e.2 ∧ (integers.src.rv e.1.toNat).aux = 0 ∧
        (source integers.src e.1).tag = e.2 := by decide +kernel
  obtain ⟨hd, ht, hx, hs⟩ := all e h
  refine ⟨operands_register (fun c hc => ?_) hd (fun _ => ⟨ht, hx⟩), hs⟩
  have : c = e.1 := by simpa using hc
  exact .inl (this ▸ hd)

theorem wit_LaneMoves :
    let s := ctx (vs [(1, vreg 5 0 1), (2, vreg 5 0 1)])
    (source s.src 2).tag = 5 ∧ (source s.src 1).tag = (source s.src 2).tag ∧ (source s.src 1).aux = (source s.src 2).aux ∧
    readable s.src 1 ∧ readable s.src 2 ∧ ¬ ((source s.src 1).tag = 8 ∧ (source s.src 1).aux = 7) ∧ takes s.src 55 5 0 0 ∧
    (55 : BitVec 6).toNat < 56 ∧ ¬ ((s.src.rv 55).tag = 8 ∧ (s.src.rv 55).aux = 7) :=
  ⟨by decide +kernel, by decide +kernel, by decide +kernel, .inl (by decide), .inl (by decide), by decide +kernel, .inl (by decide),
    by decide, by decide +kernel⟩

theorem wit_VectorCompare :
    ∀ tag ∈ [(1 : BitVec 4), 5, 9],
      let s := ctx (vs [(1, vreg tag 0 1), (2, vreg tag 0 1)])
      readable s.src 1 ∧ readable s.src 2 ∧ (source s.src 1).tag = (source s.src 2).tag ∧ (source s.src 1).aux = (source s.src 2).aux ∧
      ((source s.src 1).tag = 1 ∨ (source s.src 1).tag = 5 ∨ (source s.src 1).tag = 9) := by
  unfold readable; decide +kernel

theorem wit_Conversion :
    (let s := ctx (vs [(1, vreg 5 0 7)])
     readable s.src 1 ∧ scalarTag (source s.src 1).tag ∧ scalarTag 9 ∧ takes s.src 2 6 0 0 ∧
       ∀ i < 64, (converted 5 6 ((source s.src 1).val.toNat / 2 ^ (32 * i) % 2 ^ 32) 0 0 3).trap = false) ∧
    (let s := ctx (vs [(1, vreg 5 0 0x7FFFFFFF)])
     ∃ i < 64, (converted 5 6 ((source s.src 1).val.toNat / 2 ^ (32 * i) % 2 ^ 32) 0 0 3).trap = true) := by
  refine ⟨⟨.inl (by decide), .inl (by decide +kernel), .inr rfl, .inl (by decide), by decide +kernel⟩, by decide +kernel⟩

theorem wit_BlockForms :
    (let s := ctx (vs [(1, vreg 1 0 0x3F800000), (2, vreg 0 0 0)])
     readable s.src 1 ∧ (source s.src 1).tag = 1 ∧ ¬ ((s.src.rv 2).tag = 8 ∧ (s.src.rv 2).aux = 7) ∧
     (quantBlock 2 (source s.src 1).val (s.src.rv 2).val 0 0 0 s.ctx.seed).trap = false ∧
     (quantBlock 2 (source s.src 1).val (s.src.rv 2).val 1 0 0 s.ctx.seed).trap = false ∧ takes s.src 3 1 0 0) ∧
    (let s := ctx (vs [(1, vreg 8 6 0), (2, vreg 0 0 (BitVec.ofNat 2048 (6 * 2 ^ 12 + 6 * 2 ^ 44)))])
     readable s.src 1 ∧ (source s.src 1).tag = 8 ∧ (source s.src 1).aux ≠ 7 ∧ (lane (s.src.rv 2).val 0).toNat / 2 ^ 12 % 8 = 6 ∧
     (lane (s.src.rv 2).val 1).toNat / 2 ^ 12 % 8 = 6) ∧
    (let s := ctx (vs [(2, vreg 8 7 0)]); (s.src.rv 2).tag = 8 ∧ (s.src.rv 2).aux = 7) :=
  ⟨⟨.inl (by decide), by decide +kernel, by decide +kernel, by decide +kernel, by decide +kernel, .inl (by decide)⟩,
    ⟨.inl (by decide), by decide +kernel, by decide +kernel, by decide +kernel, by decide +kernel⟩, by decide +kernel⟩

theorem wit_Reductions :
    let s := ctx (vs [(1, vreg 5 0 7)])
    readable s.src 1 ∧ scalarTag (source s.src 1).tag ∧ takes s.src 2 5 0 0 ∧ (source s.src 1).tag = 5 ∧
    ∃ l < 64, (s.rk 0).val.getLsbD l = true :=
  ⟨.inl (by decide), .inl (by decide +kernel), .inl (by decide), by decide +kernel, 63, by decide, by decide +kernel⟩

theorem wit_RotatedNumbers :
    (let s := ctx (fun q => vs [(54, vreg 1 0 7)] { q with vrot := 31, krot := 3 })
     (55 : BitVec 6).toNat < 56 ∧ physicalV s.src.vrot 55 = 54 ∧ ¬ ((s.src.v[54]).tag = 8 ∧ (s.src.v[54]).aux = 7)) ∧
    (let s := ctx ported
     56 ≤ (56 : BitVec 6).toNat ∧ (s.src.port 0).bind = 1 ∧ (s.src.port 0).entries ≠ [] ∧ ¬ ((s.src.port 0).tag = 8 ∧ (s.src.port 0).aux = 7)) := by
  decide +kernel

/-! ### Engines -/

/-- The base state with words of the job card replaced. -/
def carded (l : List (Nat × W64)) (f : Seqr → Seqr) : State :=
  { base with
    jobs := base.jobs.map (fun j => { j with card := l.foldl (fun c e => c.setIfInBounds e.1 e.2) j.card })
    ctx := f base.ctx }

theorem wit_EngineRegisters :
    untainted base 1 2 ∧ (63 : BitVec 7).toNat < 64 ∧ classOf 0 = 0 ∧ classOf 4 = 3 ∧ classOf 2 = 1 ∧ classOf 3 = 2 ∧
    (64 ≤ (66 : BitVec 7).toNat) ∧ 6 ≤ (63 : BitVec 7).toNat ∧ base.src.sup = false ∧ sup.src.sup = true := by unfold untainted; decide +kernel

/-- Channel 127 of die 0 granted, with a 64-byte aligned head in g1. -/
def copying (f : Channel → Channel) : State := (carded [(12, 2 ^ 63)] (gs [(1, 0x200040), (3, 0x200041), (4, 0x400000)])).modChan 0 127 f

theorem wit_CopyCommands :
    (let s := copying id
     untainted s 1 0 ∧ (cardWord s (11 + 127 / 64)).getLsbD (127 % 64) = true ∧ ¬ (cardWord s (11 + 126 / 64)).getLsbD (126 % 64) = true ∧
     (pairOf s 1 0).toNat % 64 = 0 ∧ s.translate s.me .store (pairOf s 1 0) 64 = .ok (plain 0x200040) ∧ (s.chan 0 127).state ≠ 4 ∧
     (s.chan 0 127).pend.length < 3 ∧ (s.chan 0 127).state = 0 ∧ (pairOf s 3 0).toNat % 64 ≠ 0 ∧
     (pairOf s 4 0).toNat % 64 = 0 ∧ s.translate s.me .store (pairOf s 4 0) 64 = .error (8, 0x400000)) ∧
    (let s := copying (fun c => { c with state := 1, pend := [0x40, 0x40] })
     (s.chan 0 127).pend.length < 3 ∧ (s.chan 0 127).state ≠ 0 ∧ (s.chan 0 127).state ≠ 4) ∧
    (let s := copying (fun c => { c with state := 1, pend := [0x40, 0x40, 0x40] }); 3 ≤ (s.chan 0 127).pend.length) ∧
    (copying (fun c => { c with state := 4 })).chan 0 127 = { Channel.reset with state := 4 } := by
  unfold untainted; decide +kernel

/-- The base state with the address of `xrmw` in xc.0 and its return address in xc.1. -/
def rmw (a r : W64) : State := withCtx own (fun q => { q with staging := [(0, a), (1, r)] })

theorem wit_ReadModifyWrite :
    (let s := rmw 0x200104 0
     noStores s ∧ untainted s 1 2 ∧ (s.src.stagingOf 0 0).toNat % 4 = 0 ∧
       s.translate s.me .store (s.src.stagingOf 0 0) 4 = .ok (plain 0x200104) ∧ s.src.stagingOf 0 1 = 0 ∧
       prompt s (plain 0x200104).sc ∧ (lagging s).issue.late = true ∧ (plain 0x200104).sc = false ∧ noStores (lagging s)) ∧
    (let s := rmw 0x200104 0xFFFF000000000004
     s.translate s.me .store (s.src.stagingOf 0 1) = .ok (inLot 4) ∧
       s.homeOf 0 false .store (.lot 1 0) 4 = .ok { place := 2 ^ 45 + 4, fe := some (.line (2 ^ 38)) } ∧ isScratch (2 ^ 45 + 4) = true ∧
       dieOf (2 ^ 45 + 4) = 0) ∧
    (let s := rmw 0x200104 0x200108
     s.translate s.me .store (s.src.stagingOf 0 1) = .ok (plain 0x200108) ∧ s.homeOf 0 false .store .phys 0x200108 = .ok (word 0x200108) ∧
       isScratch 0x200108 = false) ∧
    (let s := { windows with ctx := { windows.ctx with staging := [(0, 0x200104), (1, 0x600000)] } }
     s.translate s.me .store (s.src.stagingOf 0 0) 4 = .ok (plain 0x200104) ∧
       s.translate s.me .store (s.src.stagingOf 0 1) = .ok (remote 0x600000) ∧ (remote 0x600000).pkg ≠ s.pkg) ∧
    (let s := rmw 0x200104 0x400000; s.translate s.me .store (s.src.stagingOf 0 1) = .error (8, 0x400000)) ∧
    (let s := rmw 0x400000 0; s.translate s.me .store (s.src.stagingOf 0 0) 4 = .error (8, 0x400000)) ∧
    (rmw 2 0).src.stagingOf 0 0 = 2 ∧ ((rmw 4 2).src.stagingOf 0 1).toNat % 4 ≠ 0 := by
  unfold noStores untainted prompt; decide +kernel

/-- The base state with the address of a card in g1 and n of its launch entries occupied. -/
def launching (n : Nat) : State :=
  { ctx (gs [(1, 0x200100), (4, 0x200101)]) with
    launches := (List.range n).map (fun i => (i, { LaunchEntry.reset with occupied := true })) }

theorem wit_LaunchAndTicket :
    (let s := launching 255
     untainted s 1 0 ∧ (pairOf s 1 0).toNat % 256 = 0 ∧
       s.translate { s.me with die := 4 } .load (pairOf s 1 0) 256 = .ok (plain 0x200100) ∧
       (s.touch { s.me with die := 4 } (pairOf s 1 0)).homeOf 4 s.ctx.sup .load .phys 0x200100 = .ok (word 0x200100) ∧
       hasMemory 0x200100 = true ∧ (∀ i < 256, s.poisoned (0x200100 + i) 1 = false) ∧ (s.launchEntry 255).occupied = false ∧
       (pairOf s 4 0).toNat % 256 ≠ 0) ∧
    (let s := { launching 255 with poison := [0x1000F] }
     (s.launchEntry 255).occupied = false ∧ s.poisoned (0x200100 + 224) 1 = true ∧ ∀ j < 224, s.poisoned (0x200100 + j) 1 = false) ∧
    (let s := { launching 255 with ctx := gs [(1, 0x400000)] base.ctx }
     (pairOf s 1 0).toNat % 256 = 0 ∧ s.translate { s.me with die := 4 } .load (pairOf s 1 0) 256 = .error (8, 0x400000)) ∧
    (let s := { windows with ctx := gs [(1, 0x800000)] base.ctx }
     (pairOf s 1 0).toNat % 256 = 0 ∧ s.translate { s.me with die := 4 } .load (pairOf s 1 0) 256 = .ok nowhere ∧
       (s.launchEntry 255).occupied = false ∧
       (s.touch { s.me with die := 4 } (pairOf s 1 0)).homeOf 4 s.ctx.sup .load nowhere.via nowhere.addr = .error 8) ∧
    (∀ n < 256, ((launching 256).launchEntry n).occupied = true) := by
  unfold untainted; decide +kernel

/-- The base state in which core 0 holds a routine, the context the tiles 0 and 1, and n commands wait in the matrix queue. -/
def matrixState (n : Nat) (f : Seqr → Seqr) : State :=
  let m : MatCmd := { handle := 9, job := 2, gaddr := 0, op := .anch 0 0, started := false, reg := none }
  { (base.modCore 0 (fun c => { c with
      mq := List.replicate n m, dir := [(0, { valid := true, offset := 0, length := 1, owner := 0 })] })) with
    ctx := f { base.ctx with tiles := [0, 1] }
    jobs := base.jobs.map (fun j => { j with card := j.card.setIfInBounds 1 (1 + 2 * 2 ^ 26) }) }

theorem wit_MatrixCommands_call :
    (let s := matrixState 7 id
     untainted s 1 2 ∧ s.issue.flow = .ok ∧ s.src.sup = false ∧ (s.coreOf s.ctx.coreNo).mq.length < 8 ∧
     (s.coreOf s.ctx.coreNo).planned.callable 0 s.src.job = true ∧ controlOk (s.src.mp[7]) s.src.tiles.length = true ∧
     (s.src.mp[7]).getLsbD 17 = false ∧ (∀ m ∈ (s.coreOf s.ctx.coreNo).mq, registersLater m = false)) ∧
    (let s := matrixState 0 (fun q => { q with mp := q.mp.setIfInBounds 7 (2 ^ 17) })
     (s.src.mp[7]).getLsbD 17 = true ∧ controlOk (s.src.mp[7]) s.src.tiles.length = true ∧ (s.dieAt (s.ctx.coreNo / 48)).live = []) ∧
    sup.src.sup = true := by unfold untainted; decide +kernel

theorem wit_MatrixCommands_tile :
    (let s := matrixState 7 (gs [(1, 0x1FF)])
     untainted s 1 1 ∧ s.src.tiles[(1 : BitVec 3).toNat]? = some 1 ∧ (-512 ≤ (s.rg 1).val.toInt ∧ (s.rg 1).val.toInt ≤ 511)) ∧
    (let s := (matrixState 0 id).modCore 0 (fun c => { c with tiles := [(0, { Tile.reset with kind := 1 })] })
     s.kindAfter s.ctx 0 = 1 ∧ Core.kindsKnown s.ctx.handle (s.coreOf 0).mq [] = true ∧ (∀ m ∈ (s.coreOf 0).mq, m.handle ≠ s.ctx.handle)) := by
  unfold untainted; decide +kernel

theorem wit_MatrixCommands_rows :
    (let s := matrixState 7 (fun q => { gs [(3, 127), (4, 1)] q with staging := [(64, 0x200080), (65, 768)] })
     untainted s 3 4 ∧ (s.rg 3).val.toNat + (s.rg 4).val.toNat ≤ 128 ∧ 1 ≤ (s.rg 4).val.toNat ∧
     768 ≤ (s.src.stagingOf 1 1).toNat ∧ (s.src.stagingOf 1 1).toNat % 128 = 0 ∧ (s.src.stagingOf 1 0).toNat % 128 = 0 ∧
     s.src.stagingOf 1 2 = 0) := by unfold untainted; decide +kernel

theorem wit_MatrixCommands_rowHomes (j : Fin 6) :
    (let s := matrixState 0 id
     (s.rowHome s.ctx .load (0x200080 + BitVec.ofNat 64 (128 * j))).isOk = true ∧
       (s.rowHome s.ctx .store (0x200080 + BitVec.ofNat 64 (128 * j))).isOk = true) := by
  revert j; decide +kernel

theorem wit_MatrixCommands_routine :
    (let s := matrixState 0 (fun q => { gs [(1, 1), (2, 16383)] q with staging := [(67, 0x200000)] })
     untainted s 1 2 ∧ ((s.coreOf 0).planned.entry 30).valid = false ∧ ((s.coreOf 0).planned.entry 30).owner = 0 ∧
     ((s.coreOf 0).planned.entry 0).owner.toNat ≠ s.ctx.job.toNat + 1 ∧ ((s.coreOf 0).planned.entry 0).valid = true ∧ (s.rg 2).val.toNat + (s.rg 1).val.toNat ≤ 16384 ∧
     (s.coreOf 0).planned.overlaps 30 16383 1 = false ∧ (s.src.stagingOf 1 3).toNat % 8 = 0) := by unfold untainted; decide +kernel

theorem wit_MatrixCommands_words (i : Fin 8) :
    (let s := matrixState 0 id; (s.translate s.me .load (0x200000 + BitVec.ofNat 64 i)).isOk = true) := by
  revert i; decide +kernel

/-- The base state with channel 4095 and the lift entries 8190 and 8191 granted, staging words of class cl, and channel 4095. -/
def collective (l : List (Nat × W64)) (f : Coll → Coll) : State :=
  (carded [(13, 4095 + 2 ^ 12 + 8190 * 2 ^ 24 + 2 * 2 ^ 37)]
    (fun q => { gs [(1, 4095), (2, 4094), (3, 8190), (5, 0x1FFE), (6, 0x80001FFE), (7, 0x7FFFFFFF), (8, 0x2000)] q with
      staging := l })).modColl 4095 f

/-- A shape: FP32 sums, depth 4, one element, with bits on top. -/
def shaped (top : Nat) : W64 := BitVec.ofNat 64 (1 + 2 ^ 4 + 4 * 2 ^ 8 + 2 ^ 20 + top)

theorem wit_CollectiveCommands :
    (let s := collective [(192, 1), (193, shaped 0)] id
     untainted s 1 1 ∧ cardWord s 13 = BitVec.ofNat 64 (4095 + 2 ^ 12 + 8190 * 2 ^ 24 + 2 * 2 ^ 37) ∧ (s.rg 1).val.toNat = 4095 ∧
     ¬ 4095 ≤ (s.rg 2).val.toNat ∧
     collOk (s.src.stagingOf 3 0) (s.src.stagingOf 3 1) (s.src.stagingOf 3 2) (s.coll 4095) (s.liftWaits 4095) = true ∧
     (s.src.stagingOf 3 1).getLsbD 49 = false ∧ (s.coll 4095).state ≠ 1 ∧ (s.coll 4095).state ≠ 2) ∧
    (let s := collective [(192, 1), (193, shaped (2 ^ 49))] id
     collOk (s.src.stagingOf 3 0) (s.src.stagingOf 3 1) (s.src.stagingOf 3 2) (s.coll 4095) (s.liftWaits 4095) = true ∧
     (s.src.stagingOf 3 1).getLsbD 49 = true ∧ BitVec.ofNat 15 (s.src.stagingOf 3 0).toNat ≠ s.pkg) ∧
    (let s := collective [] (fun c => { c with state := 1, shape := shaped 0, queued := List.replicate 3 ⟨false, false, false, 0⟩ })
     (s.coll 4095).state = 1 ∧ (s.coll 4095).mc = false ∧ (s.coll 4095).queued.length < (s.coll 4095).shape.toNat / 2 ^ 8 % 2 ^ 12 ∧
       s.liftWaits 4095 = false ∧ (s.coll 4095).fmt ≠ 3 ∧ (s.coll 4095).fmt ≠ 4) ∧
    (let s := collective [(192, 0), (193, shaped (2 ^ 49))] id
     collOk (s.src.stagingOf 3 0) (s.src.stagingOf 3 1) (s.src.stagingOf 3 2) (s.coll 4095) (s.liftWaits 4095) = true ∧
     BitVec.ofNat 15 (s.src.stagingOf 3 0).toNat = s.pkg) ∧
    (let s := collective [(192, 1), (193, 0)] id
     collOk (s.src.stagingOf 3 0) (s.src.stagingOf 3 1) (s.src.stagingOf 3 2) (s.coll 4095) (s.liftWaits 4095) = false) ∧
    ((collective [] (fun c => { c with state := 1, peer := 2 ^ 27, shape := shaped 0 })).coll 4095).mc = true ∧
    (let s := collective [] (fun c => { c with state := 2, peer := 1, cred := 3, shape := shaped 0 })
     (s.coll 4095).cred.toNat < (s.coll 4095).depth ∧ (s.coll 4095).peerPkg ≠ s.pkg) ∧
    (let s := collective [] (fun c => { c with state := 2, peer := 0, cred := 3, shape := shaped 0 })
     (s.coll 4095).cred.toNat < (s.coll 4095).depth ∧ (s.coll 4095).peerPkg = s.pkg) ∧
    ((collective [] (fun c => { c with state := 2, cred := 4, shape := shaped 0 })).coll 4095).depth ≤ 4 := by
  unfold untainted; decide +kernel

theorem wit_LiftCommands :
    (let s := collective [(196, BitVec.ofNat 64 (1 + 4095 * 2 ^ 3 + 8191 * 2 ^ 15))] id
     let w := s.src.stagingOf 3 4
     untainted s 3 7 ∧ (s.rg 3).val.toNat = 8190 ∧ (s.lift 8190).state ≠ 1 ∧ w.toNat / 2 ^ 55 = 0 ∧ w.toNat / 2 ^ 15 % 2 ^ 13 = 8191 ∧
     w.toNat % 8 = 1 ∧ w.toNat / 2 ^ 42 % 2 ^ 13 = 0 ∧ w.toNat / 2 ^ 3 % 2 ^ 12 = 4095 ∧ ((s.rg 7).val - (s.lift 8191).count).toNat ≠ 2 ^ 31 ∧
     (∀ l ∈ (s.modLift 8190 (fun _ => { s.lift 8190 with state := 1, thresh := (s.rg 7).val, cmd := w, job := s.ctx.job })).lifts,
       l.2.thresh ≠ 0 ∧ l.2.thresh.toNat ≤ 2 ^ 31)) ∧
    (∀ op ∈ [1, 3, 4, 7],
      let w : W64 := BitVec.ofNat 64 (op + (if op = 7 then 8191 * 2 ^ 42 else 4095 * 2 ^ 3) + 8191 * 2 ^ 15)
      let s := collective [(196, w)] (fun c => { c with state := 1, peer := if op = 4 then 2 ^ 27 else 1, shape := shaped 0 })
      let armed : Lift := { s.lift 8190 with state := 1, job := s.ctx.job, thresh := 0, cmd := w }
      let fired := s.modLift 8190 (fun _ => { armed with state := 2 })
      (s.rg 0).val = ((s.modLift 8190 (fun _ => armed)).lift 8191).count ∧ fired.lifts.all (fun l => l.2.state ≠ 1) = true ∧
        fired.liftWaits 4095 = false ∧ (s.coll 4095).queued.length < (s.coll 4095).depth ∧ (s.coll 4095).state = 1 ∧
        (s.coll 4095).mc = decide (op = 4) ∧ (s.coll 4095).fmt ≠ 3 ∧ (s.coll 4095).fmt ≠ 4) ∧
    ((collective [] (fun c => { c with shape := shaped 0, queued := List.replicate 4 ⟨false, false, false, 0⟩ })).coll 4095).depth ≤ 4 ∧
    ((collective [] id).coll 4095).state ≠ 1 ∧
    (let s := (collective [] id).modLift 8191 (fun l => { l with state := 1, thresh := 5, cmd := BitVec.ofNat 64 (8190 * 2 ^ 15) })
     (s.rg 6).val.toNat % 2 ^ 13 = 8190 ∧ (s.lift 8191).state = 1 ∧ (s.lift 8191).cmd.toNat / 2 ^ 15 % 2 ^ 13 = 8190) ∧
    (let w : W64 := BitVec.ofNat 64 (7 + 8191 * 2 ^ 15 + 8191 * 2 ^ 42)
     w.toNat / 2 ^ 55 = 0 ∧ w.toNat % 8 = 7 ∧ w.toNat / 2 ^ 3 % 2 ^ 12 = 0 ∧ w.toNat / 2 ^ 42 % 2 ^ 13 = 8191) ∧
    (let s := collective [] id
     ((s.rg 5).val.toNat / 2 ^ 13 % 2 ^ 18 = 0 ∧ (s.rg 5).val.toNat % 2 ^ 13 = 8190 ∧ (s.rg 5).val.msb = false) ∧
     ((s.rg 6).val.toNat / 2 ^ 13 % 2 ^ 18 = 0 ∧ (s.rg 6).val.toNat % 2 ^ 13 = 8190 ∧ (s.rg 6).val.msb = true) ∧
     (s.modLift 8190 (fun l => { l with count := l.count + 5 })).lifts.all (fun l => l.2.state ≠ 1) = true ∧ s.lifts = [] ∧
     ¬ 8190 ≤ (s.rg 1).val.toNat ∧ (s.rg 8).val.toNat / 2 ^ 13 % 2 ^ 18 ≠ 0) ∧
    ((collective [] id).modLift 8190 (fun l => { l with state := 1 })).lift 8190 = { Lift.reset with state := 1 } := by
  unfold untainted; decide +kernel

/-- A crew of job 1 with phaser 5 of die 0. -/
def crewOfOne (members : Table Member) : Crew :=
  { handle := 0x10005, area := 0, home := 0, phaser := 5, gang := false, gangx := false, p := 1, pst := 1, gpark := false
    woken := false, parker := 0, members := members }

/-- The base state with room for one crew, that crew if there is one, and its handle in g1. -/
def crewed (l : List Crew) : State := { carded [(4, 2 ^ 32)] (gs [(1, 0x10005), (2, 3), (3, 4), (4, 1)]) with crews := l }

/-- A member of a crew. -/
def joinedAs (mst : Mst) (role : BitVec 2) (sp wp : W32) : Member :=
  { joined := true, sp := sp, wp := wp, mst := mst, role := role, waiting := false }

theorem wit_CrewCommands :
    (let s := crewed []
     ∃ j, untainted s 1 2 ∧ s.jobOf s.ctx.job = some j ∧ (s.rg 2).val.toNat < 4 ∧ 0 < j.maxcrew ∧ s.crews = [] ∧ s.phaserFree 4 1023 = true ∧
       ¬ (s.rg 3).val.toNat < 4 ∧ (s.rg 0).val.toNat < j.nseq ∧ j.nseq ≤ (s.rg 4).val.toNat) ∧
    (let s := crewed [crewOfOne []]
     (∃ j, s.jobOf s.ctx.job = some j ∧ j.maxcrew = 1 ∧ (crewOfOne []).handle.toNat / 2 ^ 16 = j.num.toNat ∧ (crewOfOne []).area = j.ncrew) ∧
     namesCrew s 1 (crewOfOne []) ∧ ((crewOfOne []).member 0).joined = false ∧ s.crewOf (s.rg 0).val = none) ∧
    (let c := crewOfOne [(0, joinedAs .none 0 0 0)]
     namesCrew (crewed [c]) 1 c ∧ (c.member 0).joined = true ∧ ∀ e ∈ c.members, e.2.mst = .none) ∧
    (let c := crewOfOne [(0, joinedAs .pending 0 1 1)]; namesCrew (crewed [c]) 1 c ∧ ∃ e ∈ c.members, e.2.mst ≠ .none) ∧
    ((crewed []).rg 2).val.toNat / 2 ^ 16 ≠ (crewed []).ctx.job.toNat := by
  unfold namesCrew untainted
  refine ⟨⟨((crewed []).jobOf 1).getD probeJob, ?_⟩, ⟨⟨((crewed []).jobOf 1).getD probeJob, ?_⟩, ?_⟩, ?_, ?_, ?_⟩ <;> decide +kernel

/-- Every phaser of die 0 taken, by crews of another job. -/
theorem wit_CrewCommands_full :
    let s := crewed ((List.range 1024).map (fun n => { crewOfOne [] with handle := BitVec.ofNat 32 (0x20000 + n), phaser := n }))
    s.jobOf s.ctx.job = (crewed []).jobOf 1 ∧ ∀ n < 1024, s.phaserFree 0 n = false := by
  refine ⟨by decide +kernel, fun n hn => ?_⟩
  simpa [State.phaserFree, crewed, crewOfOne] using hn

theorem wit_PhaserCommands :
    (let c := crewOfOne [(0, joinedAs .none 0 0 0)]
     namesCrew (crewed [c]) 1 c ∧ (c.member 0).joined = true ∧ (c.member 0).mst = .none ∧
       ¬ ∃ e ∈ c.members, (e.2.mst = .active ∨ e.2.mst = .dropping) ∧ e.2.role ≠ 1) ∧
    (let c := crewOfOne [(0, joinedAs .none 0 0 0), (1, joinedAs .dropping 0 1 1)]
     namesCrew (crewed [c]) 1 c ∧ ∃ e ∈ c.members, (e.2.mst = .active ∨ e.2.mst = .dropping) ∧ e.2.role ≠ 1) ∧
    (let c := crewOfOne [(0, joinedAs .active 2 2 0)]
     let s := crewed [c]
     namesCrew s 1 c ∧ isRegistered (c.member 0) ∧ (c.member 0).role ≠ 1 ∧ noStores s ∧ s.ctx.losses = [] ∧
       ((c.member 0).sp - c.p).toInt < 2 ∧ (∀ j ∈ s.jobs, j.isSchedule c = false) ∧ (c.member 0).role ≠ 0 ∧
       (c.member 0).wp.getLsbD 0 = ((0 : BitVec 1) = 1) ∧ 0 < (c.p - (c.member 0).wp).toInt) ∧
    (let c := crewOfOne [(0, joinedAs .active 2 3 1)]
     2 ≤ ((c.member 0).sp - c.p).toInt ∧ (c.member 0).wp.getLsbD 0 = ((1 : BitVec 1) = 1) ∧ (c.p - (c.member 0).wp).toInt ≤ 0) ∧
    ¬ isRegistered (joinedAs .dropping 0 0 0) ∧ (joinedAs .active 1 0 0).role = 1 ∧ (joinedAs .active 0 0 0).role = 0 := by
  unfold namesCrew untainted isRegistered noStores; decide +kernel

end Sys2Proof.Tests
end

