-- ==== Sys2Proof/Tests/EventWitnesses.lean ====
section
/-!
SUPPORT. Witnesses for the statements about micro-ops and events: concrete states and operands that meet their hypotheses, clause by
clause. The name says the statement.
-/

namespace Sys2Proof.Tests

set_option Elab.async false

open Sys2Proof.Machine Sys2Proof.Claims

/-- A walk of 128 BF16 entries that reads one place. -/
def rowsWalk : Walk := .start #v[0x200, 0xFFFF000000000000, 0x0001000100800100, 0, 0, 0, 0, 0]

/-- A routine that may write every tile, with those walks as DESC 0 and 1. -/
def aRoutine (f : Routine → Routine) : Routine :=
  f { args := { routine := 0, mp := (Vector.replicate 8 0).set 7 0xFFFF, fd := Vector.replicate 64 0, rmode := 0, ovf := 0, gen := 1 }
      pos := 0, loops := [], t := false, active := none, shadow := none, walks := [(0, rowsWalk), (1, rowsWalk)], flags := 0
      gen := 1, pending := [], rows := 0, begun := false, ahead := none, rowFrom := 0, began := 0, stopped := none, done := false }

/-- Its call, and the base state in which it runs on core 0 with tiles 0 and 1 of a kind. -/
def aCall : MatCmd := { handle := 1, job := 1, gaddr := 0x200000, op := .zero 0 true 0, started := true, reg := none }
def computing (r : Routine) (kind : BitVec 2) : State :=
  (withCtx own (fun q => { q with tiles := [0, 1] })).modCore 0 (fun c => { c with
    mq := [aCall], routine := some r, tiles := [(0, { Tile.reset with kind := kind }), (1, { Tile.reset with kind := kind })] })

theorem wit_MicroOps :
    (let r := aRoutine id
     let s := computing r 1
     runsRoutine s r aCall s.ctx ∧ selected r s.ctx 1 = some 1 ∧ selected r s.ctx 8 = some 0 ∧ mayWrite r 1 ∧ mayRead r 8 ∧ landed r 0 ∧
     landed r 1 ∧ (s.tileAt 0 1).kind = 1 ∧ (s.tileAt 0 1).poisoned = [] ∧ (s.tileAt 0 0).kind = (s.tileAt 0 1).kind ∧
     (s.tileAt 0 0).poisonIn 0 128 = false ∧ s.coreTraffic s.curCore = false ∧
     walksMatch r 0 0 2 0 rowsWalk none) ∧
    (computing (aRoutine id) 1 |> fun s => ({ s with landings := [{ num := 0, core := 0, port := none, handle := 1, gaddr := 0, pieces := [], lines := [], sync := 0, count := 0 }] } : State).coreTraffic s.curCore) = true ∧
    ¬ mayWrite (aRoutine (fun r => { r with args := { r.args with mp := Vector.replicate 8 0 } })) 1 := by
  unfold runsRoutine selected mayRead mayWrite landed walksMatch; decide +kernel

/-- A quadruple is one that ends as it does. -/
theorem four_of {α β γ δ : Type} {x : α × β × γ × δ} {n : δ} (h : x.2.2.2 = n) : ∃ a b c, x = (a, b, c, n) :=
  ⟨x.1, x.2.1, x.2.2.1, by rw [← h]⟩

theorem wit_MicroOps_loadb :
    ∃ es w w', (computing (aRoutine id) 1).takeMany (computing (aRoutine id) 1).ctx 2 0 128 rowsWalk none = (es, w, w', none) :=
  four_of (by decide +kernel)

/-- The routine with a stationary operand. -/
def streaming : Routine := aRoutine (fun r => { r with active := some (stationaryOf 2 0 false (List.replicate 128 { elems := List.replicate 128 0, scales := [] })) })

theorem wit_MicroOps_streama :
    (∃ st, (if streaming.begun = true then streaming.active else streaming.shadow.or streaming.active) = some st ∧ (2 : BitVec 4) = st.fmt) ∧
    (∃ es w w', (computing streaming 1).takeMany (computing streaming 1).ctx 2 0 (1 - 0) rowsWalk none = (es, w, w', none)) ∧
    (∃ es w w', ({ computing streaming 1 with empties := [2 ^ 38] } : State).takeMany (computing streaming 1).ctx 2 0 (1 - 0) rowsWalk none = (es, w, w', some none)) := by
  refine ⟨⟨_, rfl, rfl⟩, four_of (by decide +kernel), four_of (by decide +kernel)⟩

theorem wit_MicroOps_drain :
    (let s := computing (aRoutine id) 1
     let x := (s.tileAt 0 0).drainRow 0 2 2 0 0 1
     x.trap = false ∧ (s.tileAt 0 0).poisonIn 0 1 = false ∧ (rowLeaves s s.ctx 0x200000 0 rowsWalk none x).isSome = true) ∧
    ({ Tile.reset with kind := 1, cells := [(0, 2 ^ 46)] }.drainRow 0 3 2 0 3 1).trap = true := by
  unfold rowLeaves; decide +kernel

/-- The base state with port n changed from one that is up. -/
def linked (n : Nat) (f : Port → Port) : State := base.modPort n (fun p => f { p with state := 2 })

/-- A flit with its CRC. -/
def flitOf (kind : BitVec 3) (seq ack : BitVec 12) : Flit :=
  let f : Flit := { seq := seq, ack := ack, vc := 1, kind := kind, rsvd := 0, payload := 5, crc := 0 }
  { f with crc := crc32 (flitBytes f) }

theorem wit_LinkEvents :
    (let s := linked 64 (fun p => { p with expect := 2048, retry := [flitOf 1 0 0] })
     let p := s.port 64
     p.state = 2 ∧ p.outq = [] ∧ p.nakSent = false ∧ p.frozen = false ∧ p.retry.head?.isSome = true ∧
     flitOk { flitOf 1 0 0 with payload := 4 } = false ∧
     (flitOk (flitOf 1 2048 0) = true ∧ (flitOf 1 2048 0).kind = 1 ∧ (flitOf 1 2048 0).seq = p.expect) ∧
     (flitOk (flitOf 1 0 0) = true ∧ (flitOf 1 0 0).seq ≠ p.expect ∧ (p.expect - (flitOf 1 0 0).seq).toNat ≤ 2048) ∧
     flitOk (flitOf 0 0 7) = true ∧ flitOk (flitOf 3 0 7) = true ∧ flitOk (flitOf 4 0 7) = true ∧ flitOk (flitOf 2 0 7) = true) ∧
    (let s := linked 0 (fun p => { p with cethr := 16, repl := 16, rtthr := 16 })
     let p := s.port 0
     p.cethr ≠ 0 ∧ p.posted = false ∧ p.cethr.toNat ≤ p.repl.toNat ∧ queueReady s 0 ∧ p.rtthr ≠ 0 ∧ p.retrained = false ∧
       p.rtthr.toNat ≤ p.repl.toNat) ∧
    (let s := linked 0 (fun p => { p with state := 3, failed := 1 })
     (s.port 0).state = 3 ∧ (s.port 0).outq = [] ∧ s.sessions = [] ∧ (s.port 0).failed < 2) ∧
    (let s := linked 0 (fun p => { p with state := 1, failed := 2 }); (s.port 0).state = 1 ∧ 2 ≤ (s.port 0).failed) ∧
    ((base.port 0).state = 0 ∧ (base.port 0).dis = false) ∧
    (base.groups = [] ∧ base.sessions = []) ∧
    ((32 : Byte).toNat + (otherWavelengths base 0 4).1 ≤ 128 ∧ (32 : Byte).toNat + (otherWavelengths base 0 4).2 ≤ 128) ∧
    (({ base with circuits := [(1, { wl := 33, active := 32, pend := true })] } : State).circuit 0 1).pend = true := by
  unfold queueReady; decide +kernel

theorem wit_LinkEvents_routeTimeout :
    let s := { base with unrouted := [.credit 1 0 1, .read 5 (.remote 1) 0 1 7 0 0 50000 0x600000 4] }
    s.seqOf 1 = some s.ctx ∧ ∃ k ∈ s.unrouted, asksUnder 1 7 k :=
  ⟨by decide +kernel, _, .tail _ (.head _), rfl, rfl⟩

theorem wit_StepRunsDecoded :
    issues base ∧ base.late = [] ∧ base.fetchWord base.ctx.pc = .ok 0x8F000000 ∧ (0x8F000000 : W32).msb = true ∧
    decode (0x8F000000 : W32).toNat = .ok ⟨true, false, .nop⟩ ∧ isSyncGroup [⟨true, false, .nop⟩] = false ∧
    base.fetchGroup 7 base.ctx.pc = .ok [0x8F000000] ∧ checkGroup base.ctx [0x8F000000] = .ok [⟨true, false, .nop⟩] ∧
    isSyncGroup [⟨true, true, .nop⟩] = true := by
  unfold issues running; decide +kernel


theorem wit_StepRunsDecoded_engine :
    (let s := computing (aRoutine (fun r => { r with shadow := streaming.active })) 1
     s.aheadUop 0 = none ∧ s.nextUop 0 = some (.uopLoop 2 1 0)) ∧
    (∃ t, exec (.flush 0) { base with agenda := [] } = .next t) ∧ running base := by
  refine ⟨?_, ⟨_, rfl⟩, ?_⟩
  · decide +kernel
  · unfold running; decide +kernel

/-- The part of `entry`, changed, with these effects, and the base state in whose Curb of die 0 it stands alone. -/
def partOf (f : Part → Part) (es : List Effect) : Part := f { part with effects := es }
def holding (p : Part) : CurbEntry := { entry with parts := [p] }

/-- The state whose die 0 is reached over its port. -/
def reachable (s : State) : State := s.modPort 64 (fun p => { p with state := 2 })

/-- The base state with a record of a trap queue in slot 0 of die 0, and what is parked for it. -/
def parking (s : State) (r : TrapRec) (w : List Parked) : State :=
  { (s.modDie 0 (fun d => { d with queue := { d.queue with tail := 1, recs := [(0, r)] } })) with parked := w }

theorem wit_storeEvents_arrive :
    (let p := partOf id (bytesFrom 0x200100 128 5)
     let s := curbed (holding p)
     lone s 0 (holding p) p ∧ untagged s ∧ p.st = .waiting ∧ landsAt s 0 (holding p) p { place := 0x200100, fe := none } ∧
       p.effects = bytesFrom p.addr 128 5 ∧ (holding p).kind ≠ .mark) ∧
    (let p := partOf id [.rmw 0x200100 11 5 6 0]
     let s := curbed (holding p)
     lone s 0 (holding p) p ∧ untagged s ∧ p.st = .waiting ∧ landsAt s 0 (holding p) p { place := 0x200100, fe := none } ∧
       p.effects = [.rmw p.addr 11 5 6 0] ∧ s.poisoned 0x200100 4 = false) := by
  unfold lone untagged landsAt settled; decide +kernel

theorem wit_storeEvents_away :
    (let p := partOf (fun p => { p with pkg := 1, die := 4 }) (bytesFrom 0x200100 1 5)
     let s := reachable (curbed (holding p))
     lone s 0 (holding p) p ∧ untagged s ∧ passes s 0 ∧ p.st = .waiting ∧ p.pkg ≠ s.pkg ∧ p.effects = bytesFrom p.addr 1 5 ∧
       s.seqOf (holding p).handle = some s.ctx ∧ (holding p).stream ≠ 0 ∧ s.ctx.heldStreams = []) := by
  unfold lone untagged passes; decide +kernel

theorem wit_storeEvents_held :
    (let p := partOf (fun p => { p with st := .committed }) []
     let s := reachable (curbed (holding p))
     lone s 0 (holding p) p ∧ untagged s ∧ passes s 0 ∧ p.st = .committed) ∧
    (let p := partOf (fun p => { p with st := .parked }) []
     let s := withCtx (curbed (holding p)) (fun q => { q with heldStreams := [(0, 3, 0, 0, 0x200100)], holdmax := 0 })
     lone s 0 (holding p) p ∧ p.st = .parked ∧ s.seqOf (holding p).handle = some s.ctx ∧
       s.ctx.heldStreams = [(0, (holding p).num, 0, 0, 0x200100)] ∧ s.ctx.holdmax.toNat ≤ (s.dieAt 0).cycle - 0) := by
  unfold lone untagged passes; decide +kernel

theorem wit_storeEvents_return : (let s := reachable base; s.seqOf 1 = some s.ctx ∧ passes s 0 ∧ s.ctx.cdie = 0) := by
  unfold passes; decide +kernel

theorem wit_storeEvents_stale :
    (let p := partOf id (bytesFrom 0x200100 128 5)
     let s := { curbed (holding p) with ptime := 52001 }
     lone s 0 (holding p) p ∧ p.st = .waiting ∧ p.pkg = s.pkg ∧ p.exp.toNat + 2000 < s.ptime.toNat ∧ (holding p).kind ≠ .mark ∧
       p.effects = bytesFrom p.addr 128 5 ∧
       s.translate ((holding p).issuer 0 s.pkg).who .store p.va 128 = .ok { plain 0x200100 with exp := 102001 } ∧
       s.homeOf 0 (holding p).sup .store .phys 0x200100 = .ok { place := 0x200100, fe := none }) := by
  unfold lone; decide +kernel

/-- A request of another package. -/
def foreign : ExtRequest :=
  { port := 3, vc := 0, srcPkg := 1, handle := 9, job := 1, sup := false, stream := 1, seqno := 5, pred := none, of := 2, srcDie := 0
    tag := 0, unit := none, via := .phys
    expiry := 50000, effects := [.byte 0x200100 7] }

theorem wit_storeEvents_parked :
    (let p := partOf (fun p => { p with st := .parked }) (bytesFrom 0x200100 128 5)
     let s := parking (curbed (holding p)) { record 4 8 1 1 0x200100 0 with parked := some 0 } [{ num := 0, die := 0, slot := some 0, work := .store 0 3 0 }]
     s.parkedAt 0 0 = some ({ record 4 8 1 1 0x200100 0 with parked := some 0 }, { num := 0, die := 0, slot := some 0, work := .store 0 3 0 }) ∧
       lone s 0 (holding p) p ∧ untagged s ∧ p.st = .parked ∧ p.exp ≠ 0 ∧
       landsAt s 0 (holding p) p { place := 0x200100, fe := none } ∧ p.effects = bytesFrom p.addr 128 5) ∧
    (let s := parking base { record 4 8 1 1 0x200100 0 with parked := some 0 } [{ num := 0, die := 0, slot := some 0, work := .outside foreign }]
     (s.parkedAt 0 0).map Prod.snd = some { num := 0, die := 0, slot := some 0, work := .outside foreign } ∧ foreign.unit = none ∧ s.reorder = []) ∧
    base.parkedAt 0 1023 = none := by
  unfold lone untagged landsAt settled; decide +kernel

/-- A leaf of a 2 MiB page at address 0x200000, and a migration of it from frame 1 to frame 2. -/
def leafWord : Nat := 0x200000 + 1 + 2
def moving (sw : Option W64) : Migration :=
  { old := 0x200000, fresh := 0x400000, leaf := 0x200100, switched := sw, heldOld := [.bytes [(0x200005, 7)] none]
    heldNew := [.bytes [(0x400005, 8)] none] }

/-- The base state with the translation unit of die 0 changed. -/
def unit (f : TransUnit → TransUnit) : State := base.modTu 0 f

theorem wit_translationEvents_counts :
    (let s := unit (fun t => { t with migthr := 4, remote := [(1, 4, 1, 2)] })
     (s.tu 0).migthr ≠ 0 ∧ (s.tu 0).remote.find? (fun e => e.1 = 1) = some (1, 4, 1, 2) ∧ (s.tu 0).migthr.toNat ≤ 4 ∧
       1 ∉ (s.tu 0).posted ∧ queueReady s 0) ∧
    (let s := { unit (fun t => { t with migpte := 0x200100 }) with mem := Memory.write 0x200100 3 (Memory.write 0x200102 0x20 base.mem) }
     (s.tu 0).migration = none ∧ s.migratable (s.tu 0).migpte 0x400000 = true ∧ s.migratable (s.tu 0).migpte 0x400001 = false) := by
  unfold queueReady; decide +kernel

theorem wit_translationEvents_moves :
    (let s := unit (fun t => { t with migration := some (moving none) })
     (s.tu 0).migration = some (moving none) ∧ Memory.wf s.mem = true ∧ frameHere s (moving none).old 1 ∧ frameHere s (moving none).fresh 2 ∧
       paPkg (moving none).leaf = s.pkg ∧ paLocal (moving none).leaf % 8 = 0 ∧ paLocal (moving none).leaf / 2 ^ 21 ≠ 2) ∧
    (let m := moving (some 5)
     let s : State := { (unit (fun t => { t with migration := some m })).modDie 0 (fun d => { d with queue := { d.queue with qsync := 2 ^ 49 } }) with
       ptime := 1002025 }
     (s.tu 0).migration = some m ∧ m.switched = some 5 ∧ (5 : W64).toNat + 1002020 ≤ s.ptime.toNat ∧
       (∀ k < 5, (s.tu k).lease.toNat ≤ 1000000) ∧ (∀ l ∈ s.leases, l.2.1 ≤ 1000000) ∧ (∀ k < 5, k ≠ 0 → (s.tu k).migration = none) ∧
       frameHere s m.old 1 ∧ frameHere s m.fresh 2 ∧
       m.heldOld = [(0x200005, 7)].map (fun w => .bytes [w] none) ∧ m.heldNew = [(0x400005, 8)].map (fun w => .bytes [w] none) ∧
       s.colls = [] ∧ s.conns = [] ∧ (∀ j ∈ s.jobs, j.ended = none) ∧ s.sessions = [] ∧ queueReady s 0 ∧
       paPkg (s.dieAt 0).queue.qsync ≠ s.pkg) := by
  unfold frameHere queueReady; decide +kernel

theorem wit_nothingWaits : nothingWaits base :=
  ⟨fun _ => rfl, by decide +kernel, by decide +kernel, fun _ => (by show Session.reset.state ≠ 2; decide), by decide +kernel⟩

theorem wit_translationEvents_queue :
    (let s := parking base (record 3 0 (4 * 2 ^ 28 + 63) 0 0 0) []
     let q := (s.dieAt 0).queue
     (q.tail - 1).toNat ≤ q.pending ∧ q.holding = [] ∧ (∀ e ∈ q.recs, e.2.parked = none ∧ e.2.kind ≠ 2) ∧ q.pending < (q.tail - 2).toNat ∧
       s.recordAt 0 0 = some (record 3 0 (4 * 2 ^ 28 + 63) 0 0 0) ∧ s.recordAt 0 1 = none) := by decide +kernel

theorem wit_errorEvents :
    (paPkg 0x200020 = base.pkg ∧ dieOf (paLocal 0x200020) = 0 ∧ hasMemory (paLocal 0x200020) = true ∧ isHbm (paLocal 0x200020) = true ∧
      base.poisoned (paLocal 0x200020) 8 = false) ∧
    (let s := base.modDie 0 (fun d => { d with errors := { d.errors with cecnt := 63 } })
     let e := (s.dieAt 0).errors
     e.cethr ≠ 0 ∧ e.posted = false ∧ e.cethr.toNat ≤ (e.cecnt + 1).toNat ∧ queueReady s 0) ∧
    (let e := ((base.modDie 0 (fun d => { d with errors := { d.errors with window := 1 } })).dieAt 0).errors
     e.window ≠ base.ptime.toNat / 2 ^ 20) ∧
    (({ base with poison := [paLocal 0x200020 / 32] } : State).poisoned (paLocal 0x200020) 8 = true ∧ paLocal 0x200020 % 32 = 0) := by
  unfold queueReady; decide +kernel

/-- A contiguous record of 64 bytes whose destination begins in the middle of a 64-byte piece, and channel 127 of die 0 with it. -/
def aRecord : XRec := #v[0, 0x200100, 0x200320, 0, 0, BitVec.ofNat 64 (64 + 2 ^ 24 + 2 ^ 40), 0, 0]
def channeled (f : Channel → Channel) : State :=
  base.modChan 0 127 (fun _ => f { Channel.reset with state := 1, cur := some 0x200140, job := 1, snap := aRecord, claimed := true, started := true })

theorem wit_channelEvents_claim :
    (let s := channeled (fun c => { c with claimed := false, started := false })
     let ch := s.chan 0 127
     ch.mayClaim = true ∧ storable s 0 ch (ch.cur.getD 0) 8 (plain 0x200140) { place := 0x200140, fe := none } ∧ s.poisoned 0x200140 64 = false ∧
       (Memory.read s.mem 0x200140).getLsbD 0 = false ∧
       (let m1 := Memory.write 0x200140 (Memory.read s.mem 0x200140 ||| 1) s.mem
        let snap : XRec := Vector.ofFn (fun i => BitVec.ofNat 64 (Memory.readLE m1 (0x200140 + 8 * i.val) 8))
        snap.ok = true ∧ snap.fpv = false)) ∧
    (let s := channeled (fun c => { c with state := 2, started := false, snap := aRecord.set 3 2 })
     let ch := s.chan 0 127
     let r : XRec := ch.snap
     ch.claimed = true ∧ ch.started = false ∧ ch.stopping = none ∧ ch.state = 2 ∧ r.fpv = true ∧ (s.dieAt 0).live = []) := by
  unfold storable settled; decide +kernel

theorem wit_channelEvents_units :
    (let s := channeled (fun c => { c with wmark := 1, sent := 1 })
     let ch := s.chan 0 127
     let r : XRec := ch.snap
     let read := s.noteAll (channelWho s 0 ch) .load (linePieces 3 0x200120 32)
     contiguous r ∧ ch.killing = false ∧ ch.stopping = none ∧ ch.wmark ≤ 1 ∧ 1 ∉ ch.applied ∧ 1 ≤ ch.sent ∧ unitsOf r = 2 ∧
       unitFrom r 1 = 32 ∧ unitTo r 1 = 64 ∧ s.unitParked 0 127 1 = false ∧
       storable read 0 ch 0x200340 32 (plain 0x200340) { place := 0x200340, fe := none } ∧
       s.unitSource (channelWho s 0 ch) { src := 0x200120, dst := 0x200340, n := 32 } = .bytes (List.replicate 32 0)) ∧
    (let s := channeled (fun c => { c with wmark := 1, sent := 2, applied := [1] })
     let ch := s.chan 0 127
     ch.claimed = true ∧ XRec.sync ch.snap = 0 ∧ 1 ∈ ch.applied ∧ ch.wmark = 1 ∧ ch.acked = [] ∧
       storable s 0 ch (BitVec.ofNat 64 (128 * ((0x200340 : W64).toNat / 128))) 1 (plain 0x200300) { place := 0x200300, fe := none } ∧
       s.translate (channelWho s 0 ch) .store 0x200340 32 = .ok (plain 0x200340) ∧ (plain 0x200340).pkg = s.pkg) := by
  unfold storable settled contiguous; decide +kernel

theorem wit_channelEvents_ends :
    (let s := channeled (fun c => { c with wmark := 2 })
     let ch := s.chan 0 127
     contiguous ch.snap ∧ ch.wmark = unitsOf ch.snap ∧ storable s 0 ch (ch.cur.getD 0) 8 (plain 0x200140) { place := 0x200140, fe := none } ∧
       ch.state ≠ 3 ∧ ch.state ≠ 4) ∧
    (let s := channeled (fun c => { c with stopping := some (3, 1, 0x200100, 8) })
     (s.chan 0 127).stopping = some (3, 1, 0x200100, 8) ∧ (s.chan 0 127).applied = [] ∧ queueReady s 0) ∧
    (let s := channeled (fun c => { c with claimed := false, killing := true })
     (s.chan 0 127).claimed = false ∧ (s.dieAt 0).live = [] ∧ (s.chan 0 127).killing = true ∧ (s.chan 0 127).state ≠ 3) ∧
    (let s := channeled (fun c => { c with claimed := false, state := 4 }); (s.chan 0 127).claimed = false ∧ (s.chan 0 127).state = 4) := by
  unfold storable settled contiguous queueReady; decide +kernel

theorem wit_channelEvents_resume :
    (let s := channeled (fun c => { c with state := 3, wmark := 1, applied := [1] })
     let ch := s.chan 0 127
     ch.state = 3 ∧ ch.claimed = true ∧ ch.started = true ∧ ch.cur.isSome = true ∧ ch.idxs = [] ∧ contiguous ch.snap ∧
       storable s 0 ch (ch.cur.getD 0) 8 (plain 0x200140) { place := 0x200140, fe := none }) := by
  unfold storable settled contiguous; decide +kernel

/-- Its first unit, acknowledged, shares its line with the second, which is not. -/
theorem wit_channelEvents_resume_lines :
    (let ch := (channeled (fun c => { c with state := 3, wmark := 1, applied := [1] })).chan 0 127
     let line (v : Nat) : Nat := (XRec.word ch.snap 2 + BitVec.ofNat 64 (unitFrom ch.snap v)).toNat / 128
     unitsOf ch.snap = 2 ∧ (0 < ch.wmark ∧ ¬ (1 < ch.wmark ∨ 1 ∈ ch.acked) ∧ line 1 = line 0)) := by decide +kernel

/-- The base state with port 7 bound to a walk of the sequencer's first lot, and its first lines. -/
def fed (bind : BitVec 2) (es : List Vec) : State :=
  withCtx own (fun q => { q with ports := q.ports.setIfInBounds 7 { portAt bind es with walk := some (walkAt 0xFFFF000000000000) } })
def lotHome (o : Nat) : Home := { place := 2 ^ 45 + o, fe := some (.line (2 ^ 38 + o / 128)) }

theorem wit_feedEvents_fill :
    (let s := fed 1 [1, 2, 3]
     let f := s.ctx.port 7
     s.seqOf 1 = some s.ctx ∧ s.ctx.st = .running ∧ s.ctx.depart = none ∧ f.walk = some (walkAt 0xFFFF000000000000) ∧
       (walkAt 0xFFFF000000000000).failed = none ∧ (walkAt 0xFFFF000000000000).place + 256 ≤ (walkAt 0xFFFF000000000000).length ∧
       f.bind = 1 ∧ f.entries.length < 4 ∧
       s.walkRead (s.masterOf s.ctx) (walkAt 0xFFFF000000000000) 256 = .bytes (List.replicate 256 0)) := by decide +kernel

theorem wit_feedEvents_drain :
    (let s := fed 2 [1]
     let w := walkAt 0xFFFF000000000000
     let f := s.ctx.port 7
     f.bind = 2 ∧ s.landings = [] ∧ f.closing = false ∧ f.entries = [1] ∧ w.sync = 0 ∧ settled s ∧
       s.walkWritable (s.masterOf s.ctx) (w.chunks 256 w.place 256) =
         .ok [(w.addr w.place, 128, inLot 0), (w.addr w.place + 128, 128, inLot 128)] ∧ (inLot 0).pkg = s.pkg ∧
       (let noted := s.noteAll (s.masterOf s.ctx) .store (w.chunks 256 w.place 256)
        noted.homeOf 0 false .store (inLot 0).via (inLot 0).addr = .ok (lotHome 0) ∧
        noted.homeOf 0 false .store (inLot 128).via (inLot 128).addr = .ok (lotHome 128)) ∧
       isScratch (lotHome 0).place = true ∧ isScratch (lotHome 128).place = true ∧ (lotHome 0).place + 128 = (lotHome 128).place ∧
       (lotHome 0).fe = some (.line ((lotHome 0).place / 128)) ∧ (lotHome 128).fe = some (.line ((lotHome 128).place / 128))) := by
  unfold settled; decide +kernel

/-- The base state whose core 0 has this command at the head of its queue. -/
def queued (op : MatOp) (f : MatCmd → MatCmd) : State :=
  (ctx (fun q => { q with tiles := [0, 1] })).modCore 0 (fun c => { c with mq := [f { aCall with started := false, op := op }] })

theorem wit_matrixEvents_queue :
    (let s := queued (.zero 7 false 512) id
     ∃ m, (s.coreOf 0).mq.head? = some m ∧ s.seqOf m.handle = some s.ctx ∧ m.started = false ∧ m.op = .zero 7 false 512 ∧ m.reg = none ∧
       (s.tileAt 0 7).poisoned = [] ∧ s.coreTraffic 0 = false) ∧
    (let s := queued (.load 7 127 1 0x200080 768) id
     (s.rowHomes s.ctx .load (rowLines 0x200080)).toOption.any
       (fun ls => ls.all (fun y => s.feFull y.2.2.fe && !s.poisoned y.2.2.place 128)) = true) ∧
    (let s := queued (.store 7 127 1 0x200080 768 0) id
     (s.tileAt 0 7).poisonIn 127 1 = false ∧ (s.rowHomes s.ctx .store (rowLines 0x200080)).isOk = true) := by
  refine ⟨⟨_, rfl, ?_⟩, ?_⟩ <;> decide +kernel

/-- The word of a micro-op `had`, and a state with it in memory. -/
def hadWord : Nat := 0x7801FC0000000000

theorem wit_matrixEvents_routine :
    (let s := (queued (.rload 255 1 16383 0x200100) id).writeLE 0x200100 hadWord 8
     s.engReadAll (s.masterOf s.ctx) false (linePieces (8 * 1 / 128 + 2) 0x200100 (8 * 1)) = .bytes (leBytes hadWord 8) ∧
       routineOk [hadWord] = true ∧
       (List.range 1).map (fun i => ((List.range 8).map (fun j => ((leBytes hadWord 8)[8 * i + j]?.getD 0).toNat * 256 ^ j)).sum) = [hadWord]) ∧
    (let a := (aRoutine id).args
     let s := queued (.call a) id
     (a.mp[7]).getLsbD 17 = false ∧ (s.coreOf 0).routine = none ∧ (s.coreOf 0).callable a.routine 1 = true ∧
       ((s.coreOf 0).entry a.routine).length ≠ 0) ∧
    (let r := aRoutine (fun r => { r with done := true })
     let s := computing r 1
     (s.coreOf 0).routine = some r ∧ r.pending = [] ∧ s.coreTraffic 0 = false ∧ r.stopped = none ∧ r.done = true) ∧
    (aRoutine (fun r => { r with stopped := some cDeadline })).stopped = some cDeadline ∧
    (let s := (computing (aRoutine id) 1).modDie 0 (fun d => { d with cycle := 65537 })
     65536 < (s.dieAt (0 / 48)).cycle - (aRoutine id).began ∧ (aRoutine id).stopped = none) := by decide +kernel

/-- A streamed row, and copy traffic of one piece. -/
def aRow : PassRow :=
  let z : Stationary := { fmt := 2, mm := 0, elems := List.replicate 128 (List.replicate 128 0), scales := [] }
  { tile := 7, row := 127, s5 := false, a := z, b := z }
def aPiece : LandPiece := { va := 0xFFFF000000000000, pkg := 0, via := .lot 1 0, addr := 0, exp := 50000, bytes := List.replicate 128 3 }
def aLanding : Landing :=
  { num := 4, core := 0, port := none, handle := 1, gaddr := 0x200000, pieces := [aPiece], lines := [0xFFFF000000000000 / 128], sync := 0, count := 768 }

theorem wit_matrixEvents_lands :
    (let r := aRoutine (fun r => { r with pending := [aRow] })
     let s := computing r 1
     (s.coreOf 0).routine = some r ∧ r.pending = [aRow] ∧ (s.tileAt 0 aRow.tile).poisoned = [] ∧ aRow.tile < 8) ∧
    (let s := { own with landings := [aLanding], ptime := 50000 }
     s.landings.find? (fun y => y.num = 4) = some aLanding ∧ aPiece.pkg = s.pkg ∧ s.ptime.toNat ≤ aPiece.exp.toNat ∧ settled s ∧
       s.homeOf (s.landWho aLanding).die (s.landWho aLanding).sup .store aPiece.via aPiece.addr = .ok lot0 ∧
       (∀ y i, lot0.fe ≠ some (.bit y i))) := by
  refine ⟨by decide +kernel, ⟨by decide +kernel, by decide +kernel, by decide +kernel, ?_, by decide +kernel, fun _ _ => by simp [lot0]⟩⟩
  unfold settled; decide +kernel

/-- The same bytes as those of an entry of drain port 7. -/
theorem wit_matrixEvents_port :
    (let l := { aLanding with port := some 7 }
     let s := { fed 2 [1] with landings := [l], ptime := 50000 }
     s.landings.find? (fun y => y.num = 4) = some l ∧ l.pieces = [aPiece] ∧ l.sync = 0 ∧ s.seqOf l.handle = some s.ctx ∧
       s.homeOf (s.landWho l).die (s.landWho l).sup .store aPiece.via aPiece.addr = .ok lot0) := by decide +kernel

/-- A state in which the Piazza too has the roots of die 0, with the collective channel 4095. -/
def piazza (f : Coll → Coll) : State :=
  (base.modTu 4 (fun t => { t with roots := (base.tu 0).roots })).modColl 4095 (fun _ =>
    f { Coll.reset with state := 1, peer := 1, shape := shaped 0, buf := 0x200100, job := 1, credits := [(1, 1)] })

/-- The master of the collective engine for job 1. -/
def engineOne (s : State) : Who := { die := 4, asid := s.asidOf 1, job := 1, sup := false }

/-- A message of one element for it. -/
def aMessage : Message :=
  { srcPkg := 1, srcCh := 0, dstCh := 4095, bcast := false, reduce := false, fmt := 1, elems := 1, topk := 0, mseq := 9, setting := 0, nv := true
    nctr := 8191, payload := [1, 2, 3, 4] }

theorem wit_collectiveEvents :
    (let s := piazza (fun c => { c with queued := [⟨false, false, false, 0⟩] })
     let c := s.coll 4095
     c.state = 1 ∧ c.frozen = false ∧ c.mc = false ∧ c.peerPkg ≠ s.pkg ∧ c.topk = 0 ∧ c.queued = [⟨false, false, false, 0⟩] ∧
       tget 0 c.credits c.peerPkg.toNat ≠ 0 ∧ s.lifts = [] ∧
       (s.collRead (engineOne s) (linePieces (c.size / 128 + 2) (c.buf + BitVec.ofNat 64 (c.head.toNat * c.stride)) c.size)).isOk = true) ∧
    (let s := piazza (fun c => { c with state := 2, mseq := 9, shape := shaped (2 ^ 49) })
     let r := s.coll 4095
     r.heard = none ∧ r.state = 2 ∧ r.fmt = aMessage.fmt.toNat ∧ r.elems = aMessage.elems.toNat ∧ r.mc = false ∧ r.peerPkg = aMessage.srcPkg ∧
       r.peerCh = aMessage.srcCh.toNat ∧ r.mseq = aMessage.mseq ∧ r.frozen = false ∧ r.heldMsgs = [] ∧ r.sync = 0 ∧
       aMessage.srcPkg ≠ s.pkg ∧ aMessage.payload.length = r.size ∧ r.size ≠ 0 ∧
       (r.buf + BitVec.ofNat 64 (r.head.toNat * r.stride)).toNat % 128 + r.size ≤ 128 ∧ s.lifts = []) ∧
    (let s := piazza (fun c => { c with state := 2, mseq := 9, shape := shaped (2 ^ 49), heard := some (1, 0, 7, false) })
     let r := s.coll 4095
     r.heard ≠ some (aMessage.srcPkg, aMessage.srcCh, aMessage.setting, true) ∧
       (match r.heard with
         | some (p, h, e, _) => if p = aMessage.srcPkg ∧ h = aMessage.srcCh ∧ e = aMessage.setting then r.mseq else 0
         | none => r.mseq) = ({ aMessage with mseq := 0 } : Message).mseq) ∧
    (let s := piazza (fun c => { c with unacked := [9], tail := 3 })
     9 ∈ (s.coll 4095).unacked ∧ (s.coll 4095).sync = 0 ∧ (s.coll 4095).heldAcks = 0) ∧ 8191 < 8192 := by decide +kernel

theorem wit_collectiveEvents_writable :
    (let s := piazza (fun c => { c with state := 2, mseq := 9, shape := shaped (2 ^ 49) })
     writable s (engineOne s) 0x200100 4 (plain 0x200100) { place := 0x200100, fe := none }) := by
  refine ⟨by decide +kernel, by decide +kernel, by decide +kernel, by decide +kernel, fun _ _ => by simp, ?_⟩
  unfold settled; decide +kernel

/-- The base state with multicast group 1023 of job 1 and this root package, and a packet for it. -/
def grouped (f : McGroup → McGroup) : State :=
  base.modGroup 1023 (fun _ => f { McGroup.reset with valid := true, job := 1, base := #v[0, 0, 0, 2 ^ 46 * 3 + 0x200000] })
def aPacket : McPacket :=
  { group := 1023, job := 1, srcPkg := 1, handle := 9, stream := 1, seqno := 0, id := 5, offset := 0x100, data := [7], msg := none
    copy := false, count := 0, down := true, hops := 1 }

theorem wit_multicastEvents :
    (let x := (grouped (fun g => { g with root := 1, parent := 127 })).group 1023
     ¬ (x.valid = true ∧ x.job = aPacket.job ∧ (x.root = base.pkg ∨ x.parent ≠ 127)) ∧ aPacket.down = true) ∧
    (((grouped id).modPort 3 (fun p => { p with frozen := true })).port 3).frozen = true ∧
    (let s := (grouped (fun g => { g with dies := 8 })).modPort 67 (fun p => { p with state := 2 })
     let x := s.group 1023
     (x.valid = true ∧ x.job = aPacket.job ∧ (x.root = s.pkg ∨ x.parent ≠ 127)) ∧ (s.port 3).frozen = false ∧ x.flight = [] ∧
       passes s 3 ∧ aPacket.msg = none ∧ aPacket.copy = false ∧
       aPacket.count = 0 ∧ x.dies = 1#4 <<< 3 ∧ x.child = 0 ∧ aPacket.data ≠ [] ∧ paPkg ((x.base[3]?.getD 0) + aPacket.offset) = s.pkg ∧
       dieOf (x.memberPlace 3 aPacket) = 3 ∧ hasMemory (x.memberPlace 3 aPacket) = true ∧
       hasMemory (x.memberPlace 3 aPacket + aPacket.data.length - 1) = true ∧ settled s) ∧
    (let s := (grouped (fun g => { g with child := 1#64 <<< 63 })).modPort 63 (fun p => { p with state := 2 })
     (s.group 1023).dies = 0 ∧ (s.group 1023).child = 1#64 <<< 63 ∧ (s.port 63).state = 2) ∧
    (let f : McFlight := { id := 5, src := 3, packet := aPacket, owing := [67], back := [], lost := none }
     let s := grouped (fun g => { g with flight := [f] })
     (s.group 1023).flight.find? (fun y => y.id = 5 ∧ 67 ∈ y.owing) = some f ∧ f.owing = [67] ∧ f.src ≠ 127 ∧ f.packet.down = true) ∧
    (let f : McFlight := { id := 5, src := 3, packet := aPacket, owing := [67, 2], back := [], lost := none }
     let s := grouped (fun g => { g with flight := [f] })
     (s.group 1023).flight.find? (fun y => y.id = 5 ∧ 67 ∈ y.owing) = some f ∧ f.owing ≠ [67] ∧ f.packet.srcPkg ≠ s.pkg) := by
  unfold settled passes; decide +kernel

/-- A store of this package's own, with a branch held, of which another part is acknowledged. -/
theorem wit_multicastEvents_own :
    (let e := { entry with group := some 1023 }
     let f : McFlight := { id := 3, src := 127, packet := { aPacket with srcPkg := 0, id := 3 }, owing := [67, 2], back := [], lost := none }
     let s := { grouped (fun g => { g with flight := [f] }) with dies := (curbed e).dies }
     (s.group 1023).flight.find? (fun y => y.id = 3 ∧ 67 ∈ y.owing) = some f ∧ f.owing ≠ [67] ∧ f.packet.srcPkg = s.pkg ∧
       f.packet.copy = false ∧ f.packet.msg = none ∧ s.curbEntry (f.packet.id / 4096) (f.packet.id % 4096) = some e ∧
       s.seqOf e.handle = some s.ctx) := by decide +kernel

/-- The base state with session 511: a root with two leaves of one element, in one slot each. -/
def inSession (f : Session → Session) : State :=
  base.modSession 511 (fun _ => f { Session.reset with
    state := 1, root := true, nleaf := 2, nelem := 1, ifmt := 1, ofmt := 1, job := 1, outmc := true, timeout := 10, child := 1#64 <<< 63
    slots := [(0, { Slot.reset with valid := true }), (127, { Slot.reset with valid := true, leaf := 1 })] })

/-- The value of leaf i. -/
def leafValue (i : Nat) : SessionValue :=
  { fields := ((inSession id).session 511).wireFields, shape := ((inSession id).session 511).wireShape, lvl := 0, idx := i, elems := [5], flags := 0 }

theorem wit_sessionEvents_slots :
    (((inSession (fun x => { x with state := 0 })).session 511).ok = true) ∧
    ((inSession (fun x => { x with state := 2 })).session 511).state = 2 ∧
    (let x := (inSession id).session 511
     x.state ≠ 0 ∧ x.state ≠ 2 ∧ x.heldStores = [] ∧ (x.slot 127).valid = true ∧ (1 : BitVec 16) = x.job ∧ (x.slot 127).closed = false ∧
       (x.slot 127).full = false ∧ (0x3 : W64).toNat % 2 ^ 16 < x.slotSize 127 ∧ (x.slot 127).leaf = 1) ∧
    (let x := (inSession (fun x => { x with slots := [(127, { Slot.reset with valid := true, closed := true })] })).session 511
     (x.slot 127).valid = true ∧ (x.slot 127).closed = true ∧ x.state ≠ 0) ∧
    (((inSession (fun x => { x with slots := [(127, { Slot.reset with valid := true, full := true })] })).session 511).slot 127).full = true := by
  decide +kernel

theorem wit_sessionEvents_values :
    (let s := (inSession (fun x => { x with root := false, parent := 63 })).modPort 63 (fun p => { p with state := 2 })
     let x := s.session 511
     (leafValue 1).fields = x.wireFields ∧ (leafValue 1).shape = x.wireShape ∧ x.root = false ∧ x.parent.toNat < 64 ∧
       (s.port x.parent.toNat).state = 2) ∧
    (let x := (inSession (fun x => { x with present := [1] })).session 511
     x.state = 1 ∧ (leafValue 1).fields = x.wireFields ∧ (leafValue 1).shape = x.wireShape ∧ x.root = true ∧ (leafValue 1).lvl = 0 ∧
       (leafValue 1).idx < x.nleaf.toNat ∧ (leafValue 1).idx ∈ x.present ∧ x.mode = 0 ∧ (leafValue 0).idx ∉ x.present ∧
       x.withdrawn = [] ∧ x.present.length + 1 = x.nleaf.toNat ∧ x.outmc = true) ∧
    (let x := (inSession id).session 511
     (leafValue 1).idx ∉ x.present ∧ x.present.length + 1 < x.nleaf.toNat ∧ x.heldStores = [] ∧ x.closing = false ∧ 1 ∉ x.withdrawn ∧
       1 < x.nleaf.toNat ∧ (∃ i < x.nleaf.toNat, i ≠ 1 ∧ i ∉ x.present ∧ i ∉ x.withdrawn) ∧
       ¬ ((0 : W64) = x.wireFields ∧ (0 : W64) = x.wireShape)) ∧
    (let s := { inSession (fun x => { x with started := some 0 }) with ptime := 10 }
     let x := s.session 511
     x.root = true ∧ x.state = 1 ∧ x.outmc = true ∧ x.timeout ≠ 0 ∧ x.present.length < x.nleaf.toNat ∧ x.started = some 0 ∧
       (0 : W64).toNat + x.timeout.toNat ≤ s.ptime.toNat) ∧
    (let x := (inSession (fun x => { x with state := 3 })).session 511
     x.root = true ∧ x.state = 3 ∧ x.noret = false ∧ x.present.length < x.nleaf.toNat ∧ x.heldStores = [] ∧ x.closing = false) ∧
    ((inSession (fun x => { x with state := 3, noret := true })).session 511).noret = true := by
  decide +kernel

theorem wit_sessionEvents_joining :
    (let x := (inSession (fun x => { x with state := 2, emit := 2 })).session 511
     x.state = 2 ∧ x.emit = 2 ∧ x.mode = 0 ∧ x.root = true ∧ (leafValue 1).lvl = 0 ∧ (leafValue 1).idx < x.nleaf.toNat ∧
       (leafValue 1).fields = x.wireFields ∧ (leafValue 1).shape = x.wireShape ∧ (leafValue 1).idx ∉ x.present) := by
  decide +kernel

/-- A node whose parent's port trains again, with the two flits of a value waiting there. -/
theorem wit_sessionEvents_queued :
    (let flits : List (BitVec 3 × BitVec 448) := [(0, 1), (0, 2)]
     let s := (inSession (fun x => { x with root := false, parent := 63 })).modPort 63 (fun p => { p with
       state := 3, outq := flits.map (fun y => (.sessionValue 63 511 (leafValue 1), y)) })
     let x := s.session 511
     x.root = false ∧ (s.port 63).state ≠ 2 ∧ x.parent.toNat = 63 ∧ x.nodes = [] ∧ x.marks = [] ∧
       (s.port 63).outq = flits.map (fun y => (.sessionValue 63 511 (leafValue 1), y)) ∧
       flits.length = 1 + (4 * (leafValue 1).elems.length + 55) / 56 ∧ ∀ p < 63, (s.port p).outq = []) := by decide +kernel

/-- A card of one sequencer without lots, tiles or crews, whose save area lies in the identity page; and a state in which every die and
the Piazza translate alike, whose job has that card. -/
def aCard (l : List (Nat × W64)) : Vector W64 32 :=
  (([(0, 0x200000), (1, BitVec.ofNat 64 (1 + 15 * 2 ^ 36)), (2, 1000), (5, 0x300000), (6, 0x300000), (8, 1)] : List (Nat × W64)) ++ l).foldl
    (fun c e => c.setIfInBounds e.1 e.2) (Vector.replicate 32 0)
def scheduled (f : Seqr → Seqr) : State :=
  { base.modTu 4 (fun t => { t with roots := (base.tu 0).roots }) with
    jobs := base.jobs.map (fun j => { j with card := aCard [] }), jobNext := 2, handleNext := 0xFFFFFF, ctx := f base.ctx, runQueue := [] }

/-- The same with launch entry 255 occupied by a card. -/
def launched (card : Vector W64 32) (taken : Option (List (List W64))) : State :=
  { scheduled id with launches := [(255, { LaunchEntry.reset with occupied := true, card := card, asid := 1, parent := 1, taken := taken })] }

theorem wit_placementEvents_take :
    (let s := launched (aCard []) none
     let e := s.launchEntry 255
     let c : Job := .ofCard e.card e.asid
     s.recovery = false ∧ e.occupied = true ∧ e.taken = none ∧ c.fieldsOk = true ∧ s.launchOk c (some e.parent) = true ∧ s.areasOk c = true ∧
       s.readDecls c = some (true, []) ∧ declsOk [] = true ∧
       (∀ y ∈ s.waitingCards, c.cls < y.job.cls ∨ c.cls = y.job.cls ∧ e.order ≤ y.order)) ∧
    (let c : Job := .ofCard (aCard [(2, 0)]) 1
     c.fieldsOk = false ∧ c.word 20 = 0) ∧
    (let x : Submission := { num := 3, order := 2, conn := 0, tag := 0, asid := 1, card := aCard [], restore := false, taken := none }
     let s := { scheduled id with submissions := [x] }
     let d : Job := .ofCard x.card x.asid
     s.submissions.find? (fun y => y.num = 3) = some x ∧ s.launchOk d none = true ∧ s.areasOk d = true ∧ s.readDecls d = some (true, []) ∧
       (∀ y ∈ s.waitingCards, d.cls < y.job.cls ∨ d.cls = y.job.cls ∧ x.order ≤ y.order)) ∧
    (let s := launched (aCard []) (some [])
     let e := s.launchEntry 255
     let c : Job := .ofCard e.card e.asid
     e.occupied = true ∧ e.taken = some [] ∧ s.jobNext ≠ 0 ∧ (∀ y ∈ s.jobs, y.num ≠ s.jobNext) ∧ c.nseq = 1 ∧ c.ncrew = 0 ∧ c.lots = 0 ∧
       c.word 11 = 0 ∧ c.word 12 = 0 ∧ fieldOf (c.word 13) 12 12 = 0 ∧ s.runQueue = [] ∧ s.crews = [] ∧
       (∀ x ∈ s.allSeqs, x.cls.toNat ≤ c.cls) ∧ s.handleNext ≠ 0) := by decide +kernel

theorem wit_placementEvents_place :
    (let s := { scheduled (fun q => { q with st := .queued }) with runQueue := [1], cores := [] }
     ∃ q j core slot, s.seqOf 1 = some q ∧ s.jobOf q.job = some j ∧ j.lots = 0 ∧ j.tiles = 0 ∧ settled s ∧ s.crews = [] ∧ q.st = .queued ∧
       q.depart = none ∧ q.imaged = false ∧ q.wait = none ∧ q.cls.toNat < 4 ∧ j.ended = none ∧ q.restoring = none ∧ s.saveParked 1 = false ∧
       s.chooseCore q = some core ∧ (s.freeSlots core).head? = some slot) := by
  refine ⟨(scheduled (fun q => { q with st := .queued })).ctx, ((scheduled id).jobOf 1).getD probeJob, 0, 0, ?_⟩
  unfold settled; decide +kernel

theorem wit_placementEvents_switch :
    (let s := (scheduled (fun q => { q with st := .resident })).modCore 0 (fun c => { c with slots := #v[none, none, none, some 1], run := none })
     let k := s.coreOf 0
     ∃ q, s.seqOf 1 = some q ∧ (∀ i < 4, (k.slots[i]?.getD none) = if i = 3 then some 1 else none) ∧ k.run = none ∧ q.st = .resident ∧
       q.depart = none ∧ q.wait = none ∧ q.stuck = false) := by
  refine ⟨(scheduled (fun q => { q with st := .resident })).ctx, ?_⟩; decide +kernel

theorem wit_placementEvents_save :
    (let s := scheduled (fun q => { q with depart := some .park })
     let q := s.ctx
     s.seqOf 1 = some q ∧ s.runQueue = [] ∧ s.crews = [] ∧ q.depart = some .park ∧ q.asks = [] ∧ s.late = [] ∧ q.lots = [] ∧ q.tiles = [] ∧
       (∀ p < 8, (q.port p).walk = none) ∧ q.savedParts = 0 ∧ q.savedLots = 0 ∧ s.saveParked 1 = false ∧ s.matrixOwes q = false ∧
       s.landings = []) := by decide +kernel

theorem wit_placementEvents_image :
    (∀ frozen : Bool,
      let s := scheduled (fun q => { q with depart := some (if frozen then .freeze else .park) })
      let q := s.ctx
      (s.masterWrite { die := q.cdie.toNat, asid := 1, job := q.job, sup := true } 0x300000
        ((List.range imageWords).flatMap (fun i => leBytes (s.imageOf { q with st := if frozen then .frozen else .parked } i).toNat 8))
        false).isOk = true) := by decide +kernel

/-- The job of that sequencer overrun: with its save the job ends. -/
theorem wit_placementEvents_overrun :
    (let s := { scheduled (fun q => { q with depart := some .freeze }) with
       jobs := (scheduled id).jobs.map (fun j => { j with overrun := true }) }
     ∃ j, s.jobOf 1 = some j ∧ j.overrun = true ∧ j.ended = none ∧ j.word 20 = 0 ∧ s.sessions = [] ∧ s.ctx.job = 1 ∧ j.dies = [0] ∧
       queueReady s 0 ∧ (∀ x ∈ s.allSeqs, x.handle ≠ 1 → x.job ≠ 1) ∧
       (s.masterWrite { die := 0, asid := 1, job := 1, sup := true } 0x300000
         ((List.range imageWords).flatMap (fun i => leBytes (s.imageOf { s.ctx with st := .frozen } i).toNat 8)) false).toOption.map
           (fun u => u.dies == s.dies) = some true) := by
  refine ⟨(({ scheduled id with jobs := (scheduled id).jobs.map (fun j => { j with overrun := true }) } : State).jobOf 1).getD probeJob, ?_⟩
  unfold queueReady; decide +kernel

/-- The sequencer of `own` waits on its first line, which is empty. -/
def waitingOn : State :=
  { (withCtx own (fun q => { q with wait := some (.emptyLine 0xFFFF000000000000, 0) })).modDie 0 (fun d => { d with cycle := 20001 }) with
    empties := [2 ^ 38] }

theorem wit_waitingEvents_park :
    (let s := waitingOn
     let q := s.ctx
     s.seqOf 1 = some q ∧ s.crews = [] ∧ q.sup = false ∧ q.st = .running ∧ q.depart = none ∧ q.asks = [] ∧
       q.wait = some (.emptyLine 0xFFFF000000000000, 0) ∧ q.parkLimit ≠ 0 ∧ 0 + q.parkLimit.toNat < (s.dieAt q.cdie.toNat).cycle ∧
       s.translate { die := 0, asid := s.asidOf q.job, job := q.job, sup := q.sup } .load 0xFFFF000000000000 = .ok (inLot 0) ∧
       (inLot 0).pkg = s.pkg ∧ s.homeOf 0 q.sup .load (inLot 0).via (inLot 0).addr = .ok lot0 ∧ s.feFull lot0.fe = false) ∧
    (let s := withCtx windows (fun q => { asked none q with wait := some (.emptyLine 0x600000, 0) })
     s.translate { die := 0, asid := s.asidOf s.ctx.job, job := s.ctx.job, sup := s.ctx.sup } .load 0x600000 = .ok (remote 0x600000) ∧
       (remote 0x600000).pkg ≠ s.pkg ∧ (∀ a ∈ s.ctx.asks, a.effect = false) ∧ ∃ a ∈ s.ctx.asks, a.reply = none) := by
  decide +kernel

/-- The sequencer of `scheduled` is parked, its image saved. -/
def parkedSeq (f : Seqr → Seqr) : State := scheduled (fun q => f { q with st := .parked, imaged := true })

theorem wit_waitingEvents_wake (f : Seqr → Seqr) (hf : f = (fun q => { q with wakeDue := true }) ∨
    f = fun q => { q with wait := some (.sleepUntil 5, 0), wakeAt := 0 }) :
    ∃ j, parkedAway (parkedSeq f) 1 (parkedSeq f).ctx j (plain 0x300008) { place := 0x300008, fe := none } := by
  refine ⟨((scheduled id).jobOf 1).getD probeJob, ?_⟩
  rcases hf with rfl | rfl <;>
    refine ⟨by decide +kernel, by decide +kernel, by decide +kernel, by decide +kernel, by decide +kernel, ?_, by decide +kernel,
      by decide +kernel, by decide +kernel, by decide +kernel, fun _ _ => by simp, ?_⟩ <;>
    first
    | (unfold outranked; decide +kernel)
    | (unfold settled; decide +kernel)

theorem wit_waitingEvents_wakes :
    (parkedSeq (fun q => { q with wakeDue := true })).ctx.wakeDue = true ∧
    (∀ reply : Bool,
      let s := { parkedSeq (fun q =>
        { asked (if reply then some (.value 5) else none) q with wait := some (.emptyLine 0x600000, 0), wakeDue := false }) with mem := windows.mem }
      s.ctx.wakeDue = false ∧ s.ctx.wait = some (.emptyLine 0x600000, 0) ∧
        s.translate { die := 0, asid := s.asidOf s.ctx.job, job := s.ctx.job, sup := s.ctx.sup } .load 0x600000 = .ok (remote 0x600000) ∧
        (if reply then ∀ a ∈ s.ctx.asks, a.reply ≠ none else ∃ a ∈ s.ctx.asks, a.reply = none)) ∧
    (let s := parkedSeq (fun q => { q with wait := some (.sleepUntil 5, 0), wakeAt := 0 })
     s.ctx.wait = some (.sleepUntil 5, 0) ∧ s.ctx.wakeAt.toNat ≤ s.ptime.toNat) ∧
    (let c := { crewOfOne [(0, joinedAs .none 0 0 0)] with gang := true, gpark := true, parker := 0 }
     let s := { parkedSeq (fun q => { q with wakeDue := true }) with crews := [c] }
     let q := s.ctx
     ∃ j, s.crewOf 0x10005 = some c ∧ c.gpark = true ∧ s.seqOf 1 = some q ∧ q.index = c.parker ∧ q.st = .parked ∧ q.depart = none ∧
       q.wakeDue = true ∧ s.jobOf q.job = some j ∧ (0x10005 : W32).toNat / 2 ^ 16 = q.job.toNat ∧ q.index.toNat < j.nseq ∧ j.nseq ≤ 65536 ∧
       s.allSeqs.filter (fun x => x.handle ≠ 0 && x.job = q.job && (c.member x.index.toNat).joined) = [q] ∧
       (∀ x ∈ s.allSeqs, x.cls.toNat ≤ q.cls.toNat) ∧ s.runQueue = []) := by
  refine ⟨by decide +kernel, by decide +kernel, by decide +kernel, ((scheduled id).jobOf 1).getD probeJob, ?_⟩
  decide +kernel

theorem wit_waitingEvents_ends :
    (let s := (carded [(3, 7)] (fun q => { q with preempt := some 3 })).modDie 0 (fun d => { d with cycle := 10 })
     ∃ j, s.seqOf 1 = some s.ctx ∧ s.jobOf s.ctx.job = some j ∧ s.ctx.preempt = some 3 ∧ s.ctx.isResident = true ∧ s.ctx.depart = none ∧
       j.longiter ≠ 0 ∧ 3 + j.longiter ≤ (s.dieAt 0).cycle) ∧
    (let s := { scheduled id with jobs := (scheduled id).jobs.map (fun j => { j with deadline := 0 }) }
     ∃ j, s.jobOf 1 = some j ∧ j.ended = none ∧ j.word 20 = 0 ∧ s.crews = [] ∧ s.sessions = [] ∧ j.deadline = 0 ∧ j.dies = [0] ∧ queueReady s 0 ∧
       j.overrun = false ∧ (∀ k ∈ s.cores, k.2.mq = []) ∧ s.seqOf 1 = some s.ctx ∧ s.ctx.job = 1 ∧ s.ctx.st = .running ∧ s.ctx.asks = [] ∧
       (∀ x ∈ s.allSeqs, x.handle ≠ 1 → x.job ≠ 1)) ∧
    (let s := scheduled (fun q => { q with st := .frozen }); s.ctx.st = .frozen ∧ s.ctx.depart = none) ∧
    (let s := parkedSeq id; (∀ x ∈ s.allSeqs, x.job = 1 → x.isResident = false ∧ x.restoring = none)) ∧
    ((base.allSeqs.filter (fun x => x.handle ≠ 0)).map Seqr.handle).Nodup := by
  refine ⟨⟨((carded [(3, 7)] id).jobOf 1).getD probeJob, ?_⟩,
    ⟨(({ scheduled id with jobs := (scheduled id).jobs.map (fun j => { j with deadline := 0 }) } : State).jobOf 1).getD probeJob, ?_⟩, ?_, ?_, ?_⟩
  all_goals first
    | (unfold queueReady; decide +kernel)
    | decide +kernel

theorem wit_waitingEvents_register :
    (let key : W64 := BitVec.ofNat 64 (2 ^ 46 * 4 + 2 ^ 40 * 0x17 + 2 ^ 16 * 0x20)
     let w := keyOf key
     let v : W64 := BitVec.ofNat 64 (500 + 2800 * 2 ^ 12 + 2 ^ 25)
     w.pkg = base.pkg ∧ (base.keyWord key).isSome = true ∧ w.cls = 0x17 ∧ w.inst = 0x20 ∧ w.word = 0 ∧ 500 ≤ fieldOf v 0 12 ∧
       fieldOf v 0 12 ≤ 2800 ∧ 500 ≤ fieldOf v 12 12 ∧ fieldOf v 12 12 ≤ 2800 ∧ fieldOf v 24 2 ≠ 3) ∧
    (keyOf (2 ^ 49)).pkg ≠ base.pkg := by decide +kernel

/-- A state that admits source 5, with connection 63, and a datagram for it. -/
def hosted (f : Conn → Conn) : State :=
  { scheduled id with
    allow := [5], listen := [9]
    conns := [(63, f { Conn.reset with isOpen := true, asid := 1, sup := true, srcAddr := 5, srcPort := 6, ownAddr := 9, openSeq := 0, expect := 7, own := 1 })] }
def datagram (op : Byte) (payload : List Byte) : Datagram :=
  { srcAddr := 5, srcPort := 6, dstAddr := 9, dstPort := 47480, udpLen := 32 + payload.length, ver := 1, op := op, conn := 63, rsvd0 := 0, seq := 7, ackseq := 1
    len := BitVec.ofNat 14 payload.length, status := 0, rsvd1 := 0, sack := 0, tag := 0, payload := payload }
def payloadOf (va n more : Nat) : List Byte := leBytes va 8 ++ leBytes n more

theorem wit_hostEvents_served :
    (let s := hosted id
     let c := s.conn 63
     heard s (datagram 9 (List.replicate 32 0)) ∧ c.isOpen = true ∧ c.closing = false ∧ c.srcAddr = 5 ∧ c.srcPort = 6 ∧ (datagram 9 []).seq = c.expect ∧
       c.ahead = [] ∧ c.unacked = [] ∧ c.orders = [] ∧ c.writing = none ∧ c.frozen = false ∧ s.recovery = false ∧ c.sup = true ∧
       heard s (datagram 3 (List.replicate 264 1)) ∧ ((datagram 3 (List.replicate 264 1)).payload[256]?.getD 0).getLsbD 0 = true ∧
       (datagram 3 []).payload.length ≠ 264 ∧ heard s (datagram 8 (List.replicate 71 1)) ∧ s.upload = []) ∧
    ((hosted (fun _ => Conn.reset)).conn 63).isOpen = false ∧ heard (hosted id) (datagram 1 [1, 1]) := by
  unfold heard Claims.addressed admitted; decide +kernel

theorem wit_hostEvents_dropped :
    (let s := hosted id
     (Claims.addressed s { datagram 1 [] with ver := 2 } ∧ ¬ admitted s { datagram 1 [] with ver := 2 }) ∧
       ¬ Claims.addressed s { datagram 1 [] with dstPort := 47481 } ∧ ¬ Claims.addressed s { datagram 1 [] with dstAddr := 8 } ∧
       ({ s with allow := [], allowAll := true } : State).allowAll = true) ∧
    (let z := (hosted (fun _ => { Conn.reset with closing := true, srcAddr := 5, srcPort := 6, ownAddr := 9, expect := 7, own := 2
                                                  unacked := [(1, 0, datagram 10 [])], ackDue := true })).conn 63
     z.closing = true ∧ z.ackDue = true ∧ z.unacked = [(1, 0, datagram 10 [])] ∧
       (1 : W32) + 1 = ({ datagram 11 [] with ackseq := 2 } : Datagram).ackseq) := by
  unfold Claims.addressed admitted; decide +kernel

/-- A catalogue write of more than 512 pairs. -/
theorem wit_hostEvents_long :
    (let d := { datagram 7 (List.replicate 8208 0) with len := 8208, udpLen := 8240 }
     heard (hosted id) d ∧ 8192 < d.payload.length) := by
  unfold heard Claims.addressed admitted; decide +kernel

theorem wit_hostEvents_mread :
    (let s := hosted id
     let d := datagram 4 (payloadOf 0x200100 16 4)
     let who : Who := { die := 4, asid := 1, job := 0, sup := true }
     heard s d ∧ d.payload.length = 12 ∧ (16 : Nat) ≤ 8192 ∧ s.translateRange who .load 0x200100 16 = .ok [(0x200100, 16, plain 0x200100)] ∧
       (s.touch who 0x200100).homeOf 4 true .load .phys 0x200100 = .ok { place := 0x200100, fe := none } ∧ isSession 0x200100 = false ∧
       s.poisoned 0x200100 16 = false ∧ (plain 0x200100).pkg = s.pkg) := by
  unfold heard Claims.addressed admitted; decide +kernel

theorem wit_hostEvents_mwrite :
    (let s := hosted id
     let d := datagram 5 (payloadOf 0x200140 7 64)
     let who : Who := { die := 4, asid := 1, job := 0, sup := true }
     heard s d ∧ 9 ≤ d.payload.length ∧ (0x200140 : W64).toNat % 128 + (d.payload.length - 8) ≤ 128 ∧
       s.translateRange who .store 0x200140 64 = .ok [(0x200140, 64, plain 0x200140)] ∧
       (s.touch who 0x200140).translate who .store 0x200140 64 = .ok (plain 0x200140) ∧
       ((s.touch who 0x200140).note who .store 0x200140).homeOf 4 true .store .phys 0x200140 = .ok { place := 0x200140, fe := none } ∧
       (s.touch who 0x200140).homeOf 4 true .store .phys 0x200140 = .ok { place := 0x200140, fe := none } ∧ settled s) := by
  unfold heard Claims.addressed admitted settled; decide +kernel

theorem wit_hostEvents_mwrite_far :
    (let s := { hosted id with mem := windows.mem }
     let d := datagram 5 (payloadOf 0x600040 7 64)
     let who : Who := { die := 4, asid := 1, job := 0, sup := true }
     (0x600040 : W64).toNat % 128 + (d.payload.length - 8) ≤ 128 ∧
       s.translateRange who .store 0x600040 64 = .ok [(0x600040, 64, remote 0x600040)] ∧
       (s.touch who 0x600040).translate who .store 0x600040 64 = .ok (remote 0x600040) ∧ (remote 0x600040).pkg ≠ s.pkg) ∧
    (let part : HostPart := { conn := 63, req := 5, asid := 1, bytes := [(0x600040, 7)] }
     let s := { hosted id with hostFar := [(3, part)] }
     s.hostFar = [(3, part)] ∧ s.proxies = []) := by decide +kernel

theorem wit_hostEvents_catalogue :
    (let s := hosted id
     let u := s.modConn 63 (fun _ => received (s.conn 63))
     let power : Nat := 2 ^ 46 * 4 + 2 ^ 40 * 0x17 + 2 ^ 16 * 0x20
     heard s (datagram 6 (leBytes power 8)) ∧ (keyOf (BitVec.ofNat 64 power)).pkg = s.pkg ∧ (u.keyWord (BitVec.ofNat 64 power)).isSome = true ∧
       (u.keyWord (BitVec.ofNat 64 (2 ^ 46 * 4 + 2 ^ 40 * 0x3E))) = none ∧
       heard s (datagram 7 (payloadOf power 2800 8)) ∧
       (let t := u.catWrite (BitVec.ofNat 64 power) (BitVec.ofNat 64 (500 + 2800 * 2 ^ 12))
        t.conn 63 = received (s.conn 63) ∧ t.refusedWrites = s.refusedWrites) ∧
       (let t := u.catWrite (BitVec.ofNat 64 power) 1
        t.conn 63 = received (s.conn 63) ∧ t.refusedWrites ≠ s.refusedWrites)) := by
  unfold heard Claims.addressed admitted; decide +kernel

theorem wit_hostEvents_timers :
    (let d := datagram 10 []
     let s := hosted (fun c => { c with unacked := [(1, 15, d), (2, 16, d)], ackDue := true })
     let z := s.conn 63
     (z.unacked.take 64).find? (fun u => u.1 = 1) = some (1, 15, d) ∧ (z.unacked.take 64).find? (fun u => u.1 = 2) = some (2, 16, d) ∧
       z.isOpen = true ∧ z.ackDue = true ∧ z.unacked.length ≤ 64 ∧ heard s (datagram 11 []) ∧ (datagram 11 []).sack = 0 ∧ z.ahead = []) := by
  unfold heard Claims.addressed admitted; decide +kernel

/-- The base state with the power controller and die 3's heat changed. -/
def powered (f : Power → Power) (t : Thermal) : State := { base with power := f base.power, thermal := [(3, t)] }

theorem wit_platformEvents :
    (¬ (([] : List BootImage).map (fun i => i.type) = [1, 2, 3, 4])) ∧
    (let s := powered id { Thermal.reset with level := 2, stepNo := 7 }
     (s.therm 3).level = 2 ∧ (s.therm 3).stepNo.toNat < 8 ∧ s.power.evsync = 0) ∧
    (let s := powered (fun p => { p with cap := 500, power := 501 }) { Thermal.reset with stepNo := 1 }
     (s.power.cap.toNat < s.power.power.toNat ∧ s.power.rate = 0) ∧ (s.therm 3).stepNo ≠ 0 ∧ (s.therm 5).level ≠ 2) ∧
    1888 ≤ ((powered id { Thermal.reset with temp := 1888 }).therm 3).temp.toInt ∧ ((powered id Thermal.reset).therm 3).temp.toInt < 1888 ∧
    (let s := powered (fun p => { p with mode := 2, target := 1000, rate := 1 }) Thermal.reset
     (s.power.mode = 2 ∧ (∀ d < 6, (s.therm d).level = 0) ∧ s.power.power.toNat ≤ s.power.cap.toNat) ∧
       (let target := min s.power.target.toNat s.power.cap.toNat
        100 * (979 : BitVec 12).toNat < 98 * target ∧ 102 * target < 100 * (1021 : BitVec 12).toNat ∧
          98 * target ≤ 100 * (980 : BitVec 12).toNat ∧ 100 * (1020 : BitVec 12).toNat ≤ 102 * target) ∧
       s.power.rate ≠ 0 ∧ (s.coreOf 191).mq = [] ∧ (s.coreOf 191).routine = none) := by decide +kernel

theorem wit_EncodeDecode :
    (Instr.div 31 31 31).wf = true ∧ encodeInstr (.div 31 31 31) ≠ 0 ∧ decode 0x8111D0E8 = .ok ⟨true, false, .cmpLtn 2 7 8⟩ ∧
    (Instr.had 8 0 127).wf = true ∧ encodeUop (.had 8 0 127) ≠ 0 ∧ decodeUop 0x7801FC0000000000 = some (.had 8 0 127) := by decide +kernel

theorem wit_MemoryLaws : Memory.wf (Memory.write 3 7 []) = true ∧ Memory.wf base.mem = true := by decide +kernel

theorem wit_StepKeepsMemoryForm : State.reset.Inv ∧ base.powered = true := by
  refine ⟨?_, by decide +kernel⟩
  unfold State.Inv; decide +kernel

end Sys2Proof.Tests
end

section
/-!
PROOFS. Canonical memory (log entry 3): what a canonical list of cells reads as determines it, and a number written little-endian
reads back.
-/

namespace Sys2Proof.Machine

/-! ### The first cell of a canonical memory -/

theorem Memory.read_head {a : Nat} {v : Byte} {m : List Host.Cell} : Memory.read ((a, v) :: m) a = v := by
  simp [Memory.read]

/-- Below the first listed address, every address is unlisted. -/
theorem Memory.read_below {a b : Nat} {v : Byte} {m : List Host.Cell} (h : Memory.wf ((a, v) :: m) = true) (hb : b < a) :
    Memory.read ((a, v) :: m) b = Memory.unlisted := by
  simp only [Memory.wf, Bool.and_eq_true] at h
  obtain ⟨⟨-, ha⟩, -⟩ := h
  rw [Memory.read, if_neg (by omega)]
  exact Memory.read_above ha hb.le

theorem Memory.head_ne_unlisted {a : Nat} {v : Byte} {m : List Host.Cell} (h : Memory.wf ((a, v) :: m) = true) :
    v ≠ Memory.unlisted := by
  simp only [Memory.wf, Bool.and_eq_true, decide_eq_true_eq] at h
  exact h.1.1

theorem Memory.wf_tail {c : Host.Cell} {m : List Host.Cell} (h : Memory.wf (c :: m) = true) : Memory.wf m = true := by
  simp only [Memory.wf, Bool.and_eq_true] at h
  exact h.2

/-- The first listed address of a canonical memory is not above one that is read as listed. -/
theorem Memory.head_le {a a' : Nat} {v v' : Byte} {m m' : List Host.Cell} (h : Memory.wf ((a, v) :: m) = true)
    (h' : Memory.wf ((a', v') :: m') = true) (e : Memory.read ((a, v) :: m) a' = Memory.read ((a', v') :: m') a') : a ≤ a' := by
  by_contra lt
  rw [Memory.read_below h (by omega), Memory.read_head] at e
  exact Memory.head_ne_unlisted h' e.symm

/-- Two canonical memories with one first cell that read alike read alike behind it. -/
theorem Memory.read_tail {a : Nat} {v : Byte} {m m' : List Host.Cell} (h : Memory.wf ((a, v) :: m) = true)
    (h' : Memory.wf ((a, v) :: m') = true) (e : ∀ b, Memory.read ((a, v) :: m) b = Memory.read ((a, v) :: m') b) (b : Nat) :
    Memory.read m b = Memory.read m' b := by
  simp only [Memory.wf, Bool.and_eq_true] at h h'
  obtain ⟨⟨-, ha⟩, -⟩ := h
  obtain ⟨⟨-, ha'⟩, -⟩ := h'
  by_cases hb : b = a
  · rw [hb, Memory.read_above ha le_rfl, Memory.read_above ha' le_rfl]
  · simpa [Memory.read, hb] using e b

/-! ### Memories that read alike -/

/-- A canonical memory is determined by what it reads as: its first cell is the first address that reads as listed. -/
theorem Memory.eq_of_read {m m' : List Host.Cell} (h : Memory.wf m = true) (h' : Memory.wf m' = true)
    (e : ∀ a, Memory.read m a = Memory.read m' a) : m = m' := by
  induction m generalizing m' with
  | nil =>
    cases m' with
    | nil => rfl
    | cons c' m' => exact absurd ((e c'.1).trans Memory.read_head).symm (Memory.head_ne_unlisted h')
  | cons c m ih =>
    cases m' with
    | nil => exact absurd (Memory.read_head.symm.trans (e c.1)) (Memory.head_ne_unlisted h)
    | cons c' m' =>
      obtain ⟨a, v⟩ := c
      obtain ⟨a', v'⟩ := c'
      obtain rfl : a = a' := le_antisymm (Memory.head_le h h' (e a')) (Memory.head_le h' h (e a).symm)
      obtain rfl : v = v' := by simpa only [Memory.read_head] using e a
      rw [ih (Memory.wf_tail h) (Memory.wf_tail h') (Memory.read_tail h h' e)]

/-! ### Little-endian numbers -/

/-- A number written as n bytes reads back, as far as n bytes hold it. -/
theorem Memory.readLE_writeLE {m : List Host.Cell} (h : Memory.wf m = true) (a v n : Nat) :
    Memory.readLE ((atAddrs a (leBytes v n)).foldl (fun m b => Memory.write b.1 b.2 m) m) a n = v % 256 ^ n := by
  induction n generalizing a v m with
  | zero => simp [Memory.readLE, Nat.mod_one]
  | succ n ih =>
    have hw := Memory.wf_write a (BitVec.ofNat 8 v) h
    have first : Memory.read ((atAddrs (a + 1) (leBytes (v / 256) n)).foldl (fun m b => Memory.write b.1 b.2 m)
        (Memory.write a (BitVec.ofNat 8 v) m)) a = BitVec.ofNat 8 v := by
      rw [Memory.read_writes_other _ hw (fun c hc => by have := atAddrs_ge hc; omega), Memory.read_write _ _ _ h, if_pos rfl]
    simp only [leBytes, atAddrs, List.foldl_cons, Memory.readLE]
    rw [first, ih hw, BitVec.toNat_ofNat, pow_succ' 256 n]
    exact (Nat.mod_mul).symm

/-- Settles O55: reads after writes by the laws of canonical memory, equal reads by comparing the first cells, and a stored number by
its bytes in turn. -/
theorem memoryLaws : Obligations.MemoryLaws := by
  unfold Obligations.MemoryLaws
  refine ⟨fun m a v h => ?_, fun m a b v h => ?_, fun m m' h h' e => ?_, fun s a v n h => ⟨?_, ?_⟩⟩
  · exact Memory.wf_write a v h
  · exact Memory.read_write a b v h
  · exact Memory.eq_of_read h h' e
  · exact State.writeLE_inv a v n h
  · exact Memory.readLE_writeLE h a v n

end Sys2Proof.Machine
end

section
/-!
PROOFS. Memory stays canonical (log entry 3). Few updates write memory, nearly all by `writeBytes`; the others compose
them. So there is one lemma for each update `f` of the model that answers a state, `f_inv`: from canonical memory it leads
to canonical memory. For each meaning of an instruction or event, `exec_keeps` or a lemma `execX_keeps` that it cites says
that it answers a next state and keeps memory canonical. The proofs follow the branches of the definitions; an update of
other fields only is `State.inv_of_mem` or, over another update, the unfolding of `State.Inv`.
-/

namespace Sys2Proof.Machine

/-! ### Branches and folds -/

theorem State.ite_inv {c : Prop} [Decidable c] {t e : State} (ht : t.Inv) (he : e.Inv) : (if c then t else e).Inv := by
  split
  · exact ht
  · exact he

theorem State.elim_inv {α : Type} {x : Option α} {t : State} {f : α → State} (ht : t.Inv) (hf : ∀ a, (f a).Inv) :
    (x.elim t f).Inv := by
  cases x with
  | none => exact ht
  | some a => exact hf a

theorem State.foldl_inv {α : Type} {f : State → α → State} {s : State} {l : List α} (hs : s.Inv)
    (hf : ∀ t a, t.Inv → (f t a).Inv) : (l.foldl f s).Inv :=
  List.foldlRecOn l f hs fun t ht a _ => hf t a ht

/-! ### Updates that may answer no state -/

/-- Memory is canonical in the state, where one is answered. -/
inductive OkInv {ε : Type} : Except ε State → Prop
  | ok {t : State} (h : t.Inv) : OkInv (.ok t)
  | error {e : ε} : OkInv (.error e)

/-- Memory is canonical in the state, where there is one. -/
inductive SomeInv : Option State → Prop
  | some {t : State} (h : t.Inv) : SomeInv (some t)
  | none : SomeInv none

/-- Memory is canonical in the state after effects that were applied. -/
inductive Applied.Inv : Applied → Prop
  | done {t : State} (h : t.Inv) : Inv (.done t)
  | held : Inv .held
  | fault {c : BitVec 8} : Inv (.fault c)

/-- Memory is canonical in the state after the arrival of a message, however it ends. -/
inductive Delivery.Inv : Delivery → Prop
  | landed {t : State} (h : t.Inv) : Inv (.landed t)
  | held {t : State} (h : t.Inv) : Inv (.held t)
  | again {t : State} (h : t.Inv) : Inv (.again t)
  | discarded {k : BitVec 2} {t : State} (h : t.Inv) : Inv (.discarded k t)

/-- Memory is canonical in the state after a piece of a host write. -/
inductive HostPiece.Inv : HostPiece → Prop
  | done {t : State} (h : t.Inv) : Inv (.done t)
  | waits {t : State} (h : t.Inv) : Inv (.waits t)
  | fault {c : BitVec 8} {die : Nat} : Inv (.fault c die)

theorem SomeInv.ite {c : Prop} [Decidable c] {t : State} (ht : t.Inv) :
    SomeInv (if c then Option.some t else Option.none) := by
  split
  · exact .some ht
  · exact .none

theorem State.inv_of_ok {ε : Type} {x : Except ε State} {t : State} (e : x = .ok t) (h : OkInv x) : t.Inv := by
  subst e
  cases h
  assumption

theorem State.inv_of_some {x : Option State} {t : State} (e : x = some t) (h : SomeInv x) : t.Inv := by
  subst e
  cases h
  assumption

theorem State.inv_of_done {x : Applied} {t : State} (e : x = .done t) (h : x.Inv) : t.Inv := by
  subst e
  cases h
  assumption

theorem State.inv_of_fst {α : Type} {p : State × α} {t : State} {x : α} (e : p = (t, x)) (h : p.1.Inv) : t.Inv := by
  subst e
  exact h

/-! ### Memory from which cells are taken -/

theorem Memory.above_filter {b : Nat} (p : Host.Cell → Bool) {m : List Host.Cell} (h : Memory.above b m = true) :
    Memory.above b (m.filter p) = true := by
  simp only [Memory.above, List.all_eq_true] at *
  exact fun c hc => h c (List.mem_of_mem_filter hc)

theorem Memory.wf_filter (p : Host.Cell → Bool) {m : List Host.Cell} (h : Memory.wf m = true) :
    Memory.wf (m.filter p) = true := by
  induction m with
  | nil => rfl
  | cons c m ih =>
    simp only [Memory.wf, Bool.and_eq_true] at h
    obtain ⟨⟨hv, ha⟩, hm⟩ := h
    rw [List.filter_cons]
    split
    · simp only [Memory.wf, Bool.and_eq_true]
      exact ⟨⟨hv, Memory.above_filter p ha⟩, ih hm⟩
    · exact ih hm

/-! ### Outcomes -/

/-- The outcome is a next state, in which memory is canonical if it was. -/
def Keeps (s : State) (o : Out) : Prop := ∃ t, o = .next t ∧ (s.Inv → t.Inv)

theorem Keeps.next {s t : State} (h : s.Inv → t.Inv) : Keeps s (.next t) := ⟨t, rfl, h⟩

theorem Keeps.answers {s : State} {o : Out} (h : Keeps s o) : ∃ t, o = .next t := by
  obtain ⟨t, e, -⟩ := h
  exact ⟨t, e⟩

theorem Keeps.of_next {s t : State} {o : Out} (h : Keeps s o) (e : o = .next t) (hs : s.Inv) : t.Inv := by
  obtain ⟨u, rfl, hu⟩ := h
  cases e
  exact hu hs

/-- What runs from a state reached before keeps what was canonical at the beginning. -/
theorem Keeps.imp {s t : State} {o : Out} (h : Keeps t o) (ht : s.Inv → t.Inv) : Keeps s o := by
  obtain ⟨u, rfl, hu⟩ := h
  exact .next (hu ∘ ht)

theorem Keeps.ite {c : Prop} [Decidable c] {s : State} {x y : Out} (hx : Keeps s x) (hy : Keeps s y) :
    Keeps s (if c then x else y) := by
  split
  · exact hx
  · exact hy

end Sys2Proof.Machine
end

section
/-! PROOFS. Memory stays canonical: the operations over the package's objects, over registers and over traps. -/

namespace Sys2Proof.Machine

open State

variable {s : State}

/-! ### Objects of the package -/

theorem State.modCore_inv {n : Nat} {f : Core → Core} (hs : s.Inv) : (s.modCore n f).Inv := inv_of_mem hs rfl

theorem State.modDie_inv {d : Nat} {f : Die → Die} (hs : s.Inv) : (s.modDie d f).Inv := inv_of_mem hs rfl

theorem State.modTu_inv {d : Nat} {f : TransUnit → TransUnit} (hs : s.Inv) : (s.modTu d f).Inv := inv_of_mem hs rfl

theorem State.modChan_inv {d c : Nat} {f : Channel → Channel} (hs : s.Inv) : (s.modChan d c f).Inv :=
  inv_of_mem hs rfl

theorem State.modColl_inv {c : Nat} {f : Coll → Coll} (hs : s.Inv) : (s.modColl c f).Inv := inv_of_mem hs rfl

theorem State.modSession_inv {n : Nat} {f : Session → Session} (hs : s.Inv) : (s.modSession n f).Inv :=
  inv_of_mem hs rfl

theorem State.modPort_inv {p : Nat} {f : Port → Port} (hs : s.Inv) : (s.modPort p f).Inv := inv_of_mem hs rfl

theorem State.modConn_inv {c : Nat} {f : Conn → Conn} (hs : s.Inv) : (s.modConn c f).Inv := inv_of_mem hs rfl

theorem State.modJob_inv {j : BitVec 16} {f : Job → Job} (hs : s.Inv) : (s.modJob j f).Inv := inv_of_mem hs rfl

theorem State.modSeq_inv {h : BitVec 24} {f : Seqr → Seqr} (hs : s.Inv) : (s.modSeq h f).Inv := inv_of_mem hs rfl

theorem State.select_inv {h : BitVec 24} (hs : s.Inv) : (s.select h).Inv := by
  unfold State.select
  refine ite_inv hs ?_
  split
  · exact hs
  · exact inv_of_mem hs rfl

/-! ### Registers of the executing context -/

theorem State.wg_inv {n : BitVec 5} {v : W32} {m : Mask} (hs : s.Inv) : (s.wg n v m).Inv :=
  ite_inv hs (inv_of_mem hs rfl)

theorem State.wb_inv {n : BitVec 3} {v : W64} {m : Mask} (hs : s.Inv) : (s.wb n v m).Inv := inv_of_mem hs rfl

theorem State.wk_inv {n : BitVec 3} {v : W64} {m : Mask} (hs : s.Inv) : (s.wk n v m).Inv :=
  ite_inv hs (inv_of_mem hs rfl)

theorem State.emit_inv {p : Packet} (hs : s.Inv) : (s.emit p).Inv := inv_of_mem hs rfl

theorem State.later_inv {a : Action} (hs : s.Inv) : (s.later a).Inv := inv_of_mem hs rfl

theorem State.drawFree_inv (hs : s.Inv) : s.drawFree.Inv := inv_of_mem hs rfl

/-! ### Writes at a migrating frame (R337) -/

theorem State.migrationHold_inv {a : Nat} {w : HeldWrite} (hs : s.Inv) : (s.migrationHold a w).Inv :=
  inv_of_mem hs rfl

/-! ### Taking a trap and returning from one -/

theorem State.joinLdfe_inv {f : FeRef} {pkg : BitVec 15} {h : BitVec 24} (hs : s.Inv) : (s.joinLdfe f pkg h).Inv :=
  ite_inv hs (inv_of_mem hs rfl)

theorem State.leaveLdfe_inv {pkg : BitVec 15} {h : BitVec 24} (hs : s.Inv) : (s.leaveLdfe pkg h).Inv :=
  inv_of_mem hs rfl

theorem State.leaveWaits_inv {q : Seqr} (hs : s.Inv) : (s.leaveWaits q).Inv := by
  unfold State.leaveWaits
  refine foldl_inv hs (fun _ _ ht => ?_)
  split
  · exact inv_of_mem ht rfl
  · exact ht

theorem State.raiseVoid_inv {i : Nat} {bad : W64} (hs : s.Inv) : (s.raiseVoid i bad).Inv := takeTrap_inv _ hs

theorem State.raiseLoss_inv {l : Loss} (hs : s.Inv) : (s.raiseLoss l).Inv := takeTrap_inv _ hs

theorem State.raiseHeld_inv {code : BitVec 8} {bad : W64} (hs : s.Inv) : (s.raiseHeld code bad).Inv :=
  takeTrap_inv _ hs

theorem State.recordWait_inv {w : Wait} (hs : s.Inv) : (s.recordWait w).Inv := inv_of_mem hs rfl

theorem State.heldFirst_inv {go : State → State} (hs : s.Inv) (hg : ∀ t, t.Inv → (go t).Inv) :
    (s.heldFirst go).Inv := by
  unfold State.heldFirst
  split
  · exact raiseHeld_inv hs
  · exact hg _ hs

end Sys2Proof.Machine
end

section
/-! PROOFS. Memory stays canonical: feed ports as operands. -/

namespace Sys2Proof.Machine

open State

variable {s : State}

theorem State.popCodes_inv {cs : List (BitVec 6)} (hs : s.Inv) : (s.popCodes cs).Inv :=
  foldl_inv hs (fun _ _ ht => inv_of_mem ht rfl)

end Sys2Proof.Machine
end

section
/-! PROOFS. Memory stays canonical: the caching of translations and the counts of remote accesses. -/

namespace Sys2Proof.Machine

open State

variable {s : State}

theorem State.countRemote_inv {a : Nat} {pkg : BitVec 15} {die : Nat} (hs : s.Inv) : (s.countRemote a pkg die).Inv :=
  ite_inv (inv_of_mem hs rfl) hs

theorem State.countWalk_inv {die : Nat} {asid : BitVec 8} {va : W64} (hs : s.Inv) : (s.countWalk die asid va).Inv :=
  foldl_inv hs (fun _ _ ht => countRemote_inv ht)

theorem State.touchPage_inv {w : Who} {va : W64} (hs : s.Inv) : (s.touchPage w va).Inv := by
  unfold State.touchPage
  split
  · exact hs
  · split
    · exact hs
    · exact drawFree_inv (modTu_inv (countWalk_inv hs))

theorem State.touch_inv {w : Who} {va : W64} (hs : s.Inv) : (s.touch w va).Inv :=
  foldl_inv hs (fun _ _ ht => touchPage_inv ht)

theorem State.touchVia_inv {via : Via} {addr : W64} (hs : s.Inv) : (s.touchVia via addr).Inv := by
  unfold State.touchVia
  split
  · exact touch_inv hs
  · exact hs

theorem State.touchAll_inv {w : Who} {vas : List W64} (hs : s.Inv) : (s.touchAll w vas).Inv :=
  foldl_inv hs (fun _ _ ht => touch_inv ht)

end Sys2Proof.Machine
end

section
/-! PROOFS. Memory stays canonical: the forms of the vector instructions. -/

namespace Sys2Proof.Machine

open State

variable {s : State}

/-! ### Shared forms -/

theorem State.vfp2_inv {d a b : BitVec 6} {k : BitVec 3} {f : Nat → Nat → W32 → W32 → W32 × BitVec 7} (hs : s.Inv) :
    (s.vfp2 d a b k f).Inv :=
  vform_inv _ _ _ _ _ _ _ hs

theorem State.vfp3_inv {d a b : BitVec 6} {k : BitVec 3} {negate : Bool} (hs : s.Inv) : (s.vfp3 d a b k negate).Inv :=
  vform_inv _ _ _ _ _ _ _ hs

theorem State.vfpq_inv {d : BitVec 6} {srcs : List (BitVec 6)} {k : BitVec 3} {f : W32 → W32 → W32 × BitVec 7}
    (hs : s.Inv) : (s.vfpq d srcs k f).Inv :=
  vform_inv _ _ _ _ _ _ _ hs

theorem State.vint_inv {tag : BitVec 4} {w fn : Nat} {d a b : BitVec 6} {k : BitVec 3} (hs : s.Inv) :
    (s.vint tag w fn d a b k).Inv :=
  vform_inv _ _ _ _ _ _ _ hs

theorem State.vbits_inv {d : BitVec 6} {srcs : List (BitVec 6)} {k : BitVec 3} {check : List VReg → Bool}
    {f : List VReg → Nat → W32} (hs : s.Inv) : (s.vbits d srcs k check f).Inv :=
  vform_inv _ _ _ _ _ _ _ hs

theorem State.vplain_inv {d : BitVec 6} {srcs : List (BitVec 6)} {check : List VReg → Bool}
    {res : List VReg → W32 → VReg × BitVec 7 × W32 × Bool} (hs : s.Inv) : (s.vplain d srcs check res).Inv := by
  unfold State.vplain
  refine withCodes_inv _ hs (fun _ _ ht => ?_)
  refine ite_inv (raise_inv _ _ ht) ?_
  exact finish_inv _ ht (fun _ hu => writeCode_inv _ _ hu)

/-! ### Reductions (R63, R169) -/

theorem State.vreduce_inv {op : Nat} {d a : BitVec 6} {k : BitVec 3} (hs : s.Inv) : (s.vreduce op d a k).Inv := by
  unfold State.vreduce
  refine withCodes_inv _ hs (fun _ _ ht => ?_)
  refine ite_inv (raise_inv _ _ ht) ?_
  exact finish_inv _ ht (fun _ hu => writeCode_inv _ _ hu)

/-! ### The instructions -/

theorem execVsel_keeps {d a b : BitVec 6} {k : BitVec 3} : Keeps s (execVsel d a b k s) :=
  .next fun hs => withCodes_inv _ hs (fun _ _ ht => ite_inv (raise_inv _ _ ht) (writeCode_inv _ _ ht))

theorem execVcmp_keeps {k : BitVec 3} {a b : BitVec 6} {p c : BitVec 3} : Keeps s (execVcmp k a b p c s) :=
  .next fun hs => withCodes_inv _ hs (fun _ _ ht => ite_inv (raise_inv _ _ ht) (wk_inv (inv_of_mem ht rfl)))

theorem execVqBfp_keeps {d a st : BitVec 6} {m : BitVec 3} : Keeps s (execVqBfp d a st m s) := by
  unfold execVqBfp
  refine .next fun hs => ?_
  refine ite_inv (raise_inv _ _ hs) ?_
  refine withCodes_inv _ hs (fun _ _ ht => ?_)
  refine ite_inv (raise_inv _ _ ht) ?_
  exact finish_inv _ ht (fun _ hu => inv_of_mem hu rfl)

theorem execVdqBfp_keeps {d a st : BitVec 6} : Keeps s (execVdqBfp d a st s) := by
  unfold execVdqBfp
  refine .next fun hs => ?_
  refine ite_inv (raise_inv _ _ hs) ?_
  exact withCodes_inv _ hs (fun _ _ ht => ite_inv (raise_inv _ _ ht) (writeCode_inv _ _ (inv_of_mem ht rfl)))

theorem execVext_keeps {d : BitVec 5} {a n : BitVec 6} : Keeps s (execVext d a n s) :=
  .next fun hs => withCodes_inv _ hs (fun _ _ ht => ite_inv (raise_inv _ _ ht) (wg_inv ht))

theorem execVins_keeps {d : BitVec 6} {a : BitVec 5} {n : BitVec 6} : Keeps s (execVins d a n s) := by
  unfold execVins
  refine .next fun hs => ?_
  refine ite_inv (raise_inv _ _ hs) ?_
  exact ite_inv (raise_inv _ _ hs) (inv_of_mem hs rfl)

end Sys2Proof.Machine
end

section
/-! PROOFS. Memory stays canonical: the home ports and the Curb; here bytes are written at their homes. -/

namespace Sys2Proof.Machine

open State

variable {s : State}

/-! ### Full/empty bits -/

theorem State.feSet_inv {full : Bool} {x : Option FeRef} (hs : s.Inv) : (s.feSet full x).Inv := by
  unfold State.feSet
  split
  · exact hs
  · exact ite_inv (inv_of_mem hs rfl) (ite_inv hs (inv_of_mem hs rfl))
  · exact writeBytes_inv _ hs

/-! ### Reduction session slots (R321, R322) -/

theorem State.slotApply_inv {n k : Nat} {job : Option (BitVec 16)} {es : List (Nat × Effect)} (hs : s.Inv) :
    (s.slotApply n k job es).Inv := by
  unfold State.slotApply
  dsimp only
  split
  · exact .fault
  · split
    · exact .done (inv_of_mem hs rfl)
    · split
      · exact .held
      · refine .done ?_
        refine ite_inv (foldl_inv (inv_of_mem hs rfl) (fun _ _ ht => inv_of_mem ht rfl)) ?_
        exact inv_of_mem hs rfl

/-! ### Bytes at their homes -/

theorem State.writeHome_inv {a : Nat} {bs : List Byte} {mark : Option FeRef} (hs : s.Inv) :
    (s.writeHome a bs mark).Inv := by
  unfold State.writeHome
  split
  · exact inv_of_mem hs rfl
  · exact feSet_inv (writeBytes_inv _ hs)

theorem State.note_inv {w : Who} {u : Use} {va : W64} (hs : s.Inv) : (s.note w u va).Inv := by
  unfold State.note
  split
  · exact hs
  · refine ite_inv (touch_inv hs) ?_
    split
    · exact countRemote_inv (touchVia_inv (touch_inv hs))
    · exact touch_inv hs

theorem State.noteAll_inv {w : Who} {u : Use} {ps : List (W64 × Nat)} (hs : s.Inv) : (s.noteAll w u ps).Inv :=
  foldl_inv hs (fun _ _ ht => note_inv ht)

/-! ### Applying the effects of a store -/

theorem State.returnWord_inv {i : Issuer} {ret : W64} {old : W32} (hs : s.Inv) : (s.returnWord i ret old).Inv := by
  unfold State.returnWord
  refine ite_inv hs ?_
  split
  · exact hs
  · split
    · exact hs
    · exact writeHome_inv hs

theorem State.applyAt_inv {i : Issuer} {h : Home} {x : Effect} (hs : s.Inv) : (s.applyAt i h x).Inv := by
  unfold State.applyAt
  split
  · exact writeBytes_inv _ hs
  · exact writeLE_inv _ _ _ hs
  · exact feSet_inv hs
  · exact returnWord_inv (writeLE_inv _ _ _ hs)
  · exact syncAdd_inv _ _ hs
  · exact hs
  · exact hs

theorem State.applyMem_inv {i : Issuer} {es : List (Home × Effect)} (hs : s.Inv) : (s.applyMem i es).Inv := by
  unfold State.applyMem
  refine ite_inv (writeBytes_inv _ hs) ?_
  exact foldl_inv hs (fun _ _ ht => applyAt_inv ht)

theorem State.slotsApply_inv {job : Option (BitVec 16)} {es : List (Home × Effect)} {ks : List (Nat × Nat)}
    (hs : s.Inv) : (s.slotsApply job es ks).Inv := by
  induction ks generalizing s with
  | nil => exact .done hs
  | cons k ks ih =>
    unfold State.slotsApply
    split
    · next t e => exact ih (inv_of_done e (slotApply_inv hs))
    · exact slotApply_inv hs

theorem State.applyHomes_inv {i : Issuer} {job : Option (BitVec 16)} {es : List (Home × Effect)} (hs : s.Inv) :
    (s.applyHomes i job es).Inv := by
  unfold State.applyHomes
  split
  · exact .done hs
  · split
    · split
      · next t e =>
        have ht := inv_of_done e (slotsApply_inv hs)
        split
        · exact .done (returnWord_inv ht)
        · exact .done ht
      · exact slotsApply_inv hs
    · split
      · exact .fault
      · split
        · exact .fault
        · exact .done (applyMem_inv hs)

/-! ### The Curb -/

theorem State.modCurb_inv {d : Nat} {f : List CurbEntry → List CurbEntry} (hs : s.Inv) : (s.modCurb d f).Inv :=
  inv_of_mem hs rfl

theorem State.sendMulticast_inv {d : Nat} {e : CurbEntry} {g : BitVec 10} (hs : s.Inv) :
    (s.sendMulticast d e g).Inv :=
  ite_inv (inv_of_mem hs rfl) (inv_of_mem hs rfl)

theorem State.sendParts_inv {d : Nat} {e : CurbEntry} {ps : List Part} (hs : s.Inv) : (s.sendParts d e ps).Inv :=
  foldl_inv hs (fun _ _ ht => inv_of_mem ht rfl)

theorem State.release_inv {d : Nat} {e : CurbEntry} (hs : s.Inv) : (s.release d e).Inv := by
  unfold State.release
  dsimp only
  split
  · exact sendMulticast_inv (inv_of_mem hs rfl)
  · exact sendParts_inv (inv_of_mem hs rfl)

theorem State.releasePass_inv {d : Nat} {es : List CurbEntry} (hs : s.Inv) : (s.releasePass d es).Inv := by
  induction es generalizing s with
  | nil => exact hs
  | cons e es ih => exact ih (ite_inv (release_inv hs) hs)

theorem State.releaseStores_inv (hs : s.Inv) : s.releaseStores.Inv := foldl_inv hs (fun _ _ ht => releasePass_inv ht)

/-! ### Reading with forwarding (R118, R121, R122, R226) -/

theorem State.takeTags_inv {d : Nat} {ns : List (Nat × List Dest)} (hs : s.Inv) : (s.takeTags d ns).2.Inv := by
  induction ns generalizing s with
  | nil => exact hs
  | cons n ns ih =>
    unfold State.takeTags
    dsimp only
    split
    · exact ih hs
    · exact ih (inv_of_mem hs rfl)

theorem State.ask_inv {w : Wait} {effect : Bool} {place : Option (BitVec 15 × Via × W64 × W64)} {p : Nat → Packet}
    {go : Reply → State → State} (hs : s.Inv) (hg : ∀ a t, t.Inv → (go a t).Inv) :
    (s.ask w effect place p go).Inv := by
  unfold State.ask
  split
  · exact ite_inv (stall_inv _ (inv_of_mem hs rfl)) (hg _ _ (inv_of_mem hs rfl))
  · exact stall_inv _ hs
  · exact stall_inv _ (inv_of_mem hs rfl)

theorem State.readPiece_inv {p : Piece} {fwd : List (Option Byte)} {go : List Byte → State → State} (hs : s.Inv)
    (hg : ∀ a t, t.Inv → (go a t).Inv) : (s.readPiece p fwd go).Inv := by
  unfold State.readPiece
  refine ite_inv (hg _ _ hs) ?_
  refine ite_inv ?_ ?_
  · split
    · exact raise_inv _ _ hs
    · refine ite_inv (stall_inv _ hs) ?_
      split
      · exact raise_inv _ _ hs
      · exact hg _ _ (countRemote_inv (touchVia_inv hs))
  · refine ask_inv hs (fun _ _ ht => ?_)
    split
    · exact hg _ _ ht
    · exact raise_inv _ _ ht
    · exact raise_inv _ _ ht
    · exact stall_inv _ ht

theorem State.readPieces_inv {ps : List (Piece × List (Option Byte))} {go : List (List Byte) → State → State}
    (hs : s.Inv) (hg : ∀ a t, t.Inv → (go a t).Inv) : (s.readPieces ps go).Inv := by
  induction ps generalizing s go with
  | nil => exact hg _ _ hs
  | cons p ps ih => exact readPiece_inv hs (fun _ _ ht => ih ht (fun _ _ hu => hg _ _ hu))

theorem State.loadPieces_inv {ps : List Piece} {go : List (List Byte) → Mask → State → State} (hs : s.Inv)
    (hg : ∀ a b t, t.Inv → (go a b t).Inv) : (s.loadPieces ps go).Inv := by
  unfold State.loadPieces
  refine ite_inv (stall_inv _ (touchAll_inv hs)) ?_
  refine ite_inv (stall_inv _ (touchAll_inv hs)) ?_
  refine ite_inv (readPieces_inv (touchAll_inv hs) (fun _ _ ht => hg _ _ _ (takeTags_inv ht))) ?_
  refine ite_inv (stall_inv _ (touchAll_inv hs)) ?_
  refine ite_inv (stall_inv _ (touchAll_inv hs)) ?_
  exact readPieces_inv (touchAll_inv hs) (fun _ _ ht => hg _ _ _ ht)

/-! ### Accepting stores (R123 to R125, R133) -/

theorem State.takeSeqno_inv {st : BitVec 4} (hs : s.Inv) : (s.takeSeqno st).2.Inv := by
  unfold State.takeSeqno
  split
  · exact hs
  · exact inv_of_mem hs rfl

theorem State.acceptAs_inv {kind : StoreKind} {sc : Bool} {st : BitVec 4} {sq : BitVec 12}
    {group : Option (BitVec 10)} {offset : W64} {ds : List Draft} (hs : s.Inv) :
    (s.acceptAs kind sc st sq group offset ds).Inv := by
  unfold State.acceptAs
  dsimp only
  split
  · exact stall_inv _ hs
  · exact releaseStores_inv (inv_of_mem hs rfl)

theorem State.putLate_inv {kind : StoreKind} {st : BitVec 4} {group : Option (BitVec 10)} {offset : W64}
    {ds : List Draft} (hs : s.Inv) : (s.putLate kind st group offset ds).Inv :=
  inv_of_mem hs rfl

theorem State.accept_inv {kind : StoreKind} {sc : Bool} {st : BitVec 4} {group : Option (BitVec 10)} {offset : W64}
    {ds : List Draft} (hs : s.Inv) : (s.accept kind sc st group offset ds).Inv := by
  unfold State.accept
  refine ite_inv (inv_of_mem hs rfl) ?_
  exact ite_inv (stall_inv _ hs) (acceptAs_inv (takeSeqno_inv hs))

theorem State.putStore_inv {kind : StoreKind} {st : BitVec 4} {ds : List Draft} (hs : s.Inv) :
    (s.putStore kind st ds).Inv := by
  unfold State.putStore
  refine ite_inv ?_ (accept_inv (touchAll_inv hs))
  refine ite_inv (putLate_inv (touchAll_inv hs)) ?_
  refine ite_inv (stall_inv _ (touchAll_inv hs)) ?_
  refine ite_inv (stall_inv _ (touchAll_inv hs)) ?_
  refine ite_inv (stall_inv _ (touchAll_inv hs)) ?_
  exact applyMem_inv (takeSeqno_inv (touchAll_inv hs))

/-! ### Arrival at the home (R125, R126, R229, R341) -/

theorem State.parkWork_inv {die : Nat} {r : TrapRec} {work : ParkedWork} (hs : s.Inv) : (s.parkWork die r work).Inv :=
  post_inv _ _ (inv_of_mem hs rfl)

theorem State.modPart_inv {d n p : Nat} {f : Part → Part} (hs : s.Inv) : (s.modPart d n p f).Inv := inv_of_mem hs rfl

/-! ### Acknowledgment (R33, R126, R127, R231, R232) -/

theorem State.mapSeqs_inv {f : Seqr → Seqr} (hs : s.Inv) : (s.mapSeqs f).Inv := inv_of_mem hs rfl

theorem State.unhold_inv {d : Nat} {e : CurbEntry} {parts : Nat → Bool} (hs : s.Inv) : (s.unhold d e parts).Inv :=
  inv_of_mem hs rfl

theorem State.finishEntry_inv {d n : Nat} (hs : s.Inv) : (s.finishEntry d n).Inv := by
  unfold State.finishEntry
  split
  · exact hs
  · refine ite_inv hs ?_
    refine releaseStores_inv ?_
    refine modCurb_inv ?_
    refine unhold_inv ?_
    split
    · exact inv_of_mem hs rfl
    · exact modSeq_inv (mapSeqs_inv (returnWord_inv hs))

/-! ### Landing -/

theorem State.retranslate_inv {die : Nat} {e : CurbEntry} {i : Nat} (hs : s.Inv) : (s.retranslate die e i).Inv := by
  unfold State.retranslate
  split
  · exact hs
  · dsimp only
    split
    · exact parkWork_inv (inv_of_mem hs rfl)
    · exact modPart_inv (touch_inv hs)

theorem State.resend_inv {die : Nat} {e : CurbEntry} {is : List Nat} (hs : s.Inv) : (s.resend die e is).Inv := by
  unfold State.resend
  dsimp only
  split
  · exact foldl_inv hs (fun _ _ ht => retranslate_inv ht)
  · exact sendParts_inv (foldl_inv hs (fun _ _ ht => retranslate_inv ht))

theorem State.landPart_inv {d i : Nat} {e : CurbEntry} {p : Part} (hs : s.Inv) : (s.landPart d e i p).Inv := by
  unfold State.landPart
  dsimp only
  split
  · exact ite_inv (resend_inv hs) (parkWork_inv (modPart_inv hs))
  · split
    · exact migrationHold_inv (touchVia_inv hs)
    · split
      · next t e =>
        have ht := inv_of_done e (applyHomes_inv (touchVia_inv hs))
        refine ite_inv (finishEntry_inv ?_) ?_ <;> exact modPart_inv (countRemote_inv ht)
      · exact modSession_inv (touchVia_inv hs)
      · exact parkWork_inv (modPart_inv (touchVia_inv hs))

theorem State.arrivePart_inv {d n i : Nat} (hs : s.Inv) : (s.arrivePart d n i).Inv := by
  unfold State.arrivePart
  split
  · exact hs
  · split
    · exact hs
    · exact ite_inv hs (landPart_inv hs)

theorem State.parkOutside_inv {r : ExtRequest} {code : BitVec 8} {va : W64} {die : Nat} (hs : s.Inv) :
    (s.parkOutside r code va die).Inv :=
  ite_inv (parkWork_inv hs) (emit_inv (parkWork_inv hs))

theorem State.freezePort_inv {port : Nat} {job : BitVec 16} {a : W64} (hs : s.Inv) : (s.freezePort port job a).Inv :=
  post_inv _ _ (inv_of_mem hs rfl)

theorem State.streamDone_inv {r : ExtRequest} (hs : s.Inv) : (s.streamDone r).Inv := ite_inv hs (inv_of_mem hs rfl)

theorem State.unitApplied_inv {r : ExtRequest} {old : W32} (hs : s.Inv) : (s.unitApplied r old).Inv := by
  unfold State.unitApplied
  split
  · exact hs
  · exact inv_of_mem hs rfl

theorem State.ackOutside_inv {r : ExtRequest} {old : W32} (hs : s.Inv) : (s.ackOutside r old).Inv := inv_of_mem hs rfl

theorem State.answerAt_inv {r : ExtRequest} {h : Home} {a : W64} {what : Nat} {operand : W32} {n : Nat} (hs : s.Inv) :
    (s.answerAt r h a what operand n).1.Inv := by
  unfold State.answerAt
  split
  · split
    · exact hs
    · split
      · exact hs
      · split
        · exact hs
        · split
          · exact inv_of_mem hs rfl
          · exact feSet_inv (inv_of_mem hs rfl)
  · exact hs
  · split
    · exact hs
    · split
      · exact hs
      · split
        · exact hs
        · exact writeLE_inv _ _ _ (writeLE_inv _ _ _ hs)
  · split
    · exact hs
    · repeat' split
      all_goals exact hs
  · split
    · exact hs
    · dsimp only
      split <;> exact joinLdfe_inv hs
  · exact inv_of_mem hs rfl
  · repeat' split
    all_goals exact hs

theorem State.sendOn_inv {r : ExtRequest} {pkg : BitVec 15} {via : Via} {exp : W64} {es : List Effect} (hs : s.Inv) :
    (s.sendOn r pkg via exp es).Inv := by
  unfold State.sendOn
  refine ite_inv hs ?_
  dsimp only
  split <;> exact inv_of_mem hs rfl

theorem State.sendAway_inv {r : ExtRequest} {x : Xlat} (hs : s.Inv) : (s.sendAway r x).Inv := sendOn_inv hs

theorem State.answerRead_inv {r : ExtRequest} {a : W64} {what n : Nat} {operand : W32} (hs : s.Inv) :
    (s.answerRead r a what operand n).1.Inv := by
  unfold State.answerRead
  split
  · exact sendAway_inv hs
  · split
    · exact hs
    · split
      · next t x e =>
        have ht := inv_of_fst e (answerAt_inv hs)
        exact ite_inv ht (countRemote_inv (touchVia_inv ht))
      · exact answerAt_inv hs

theorem State.landOutside_inv {r : ExtRequest} (hs : s.Inv) : (s.landOutside r).Inv := by
  unfold State.landOutside
  split
  · exact ackOutside_inv hs
  · split
    · exact sendAway_inv hs
    · split
      · exact parkOutside_inv hs
      · have hu : State.Inv (r.effects.foldl (fun s e => s.touchVia r.via (effAddr e)) s) :=
          foldl_inv hs (fun _ _ ht => touchVia_inv ht)
        dsimp only
        split
        · exact migrationHold_inv hu
        · split
          · next t e =>
            have ht := inv_of_done e (applyHomes_inv hu)
            exact foldl_inv (ackOutside_inv (streamDone_inv (unitApplied_inv ht)))
              (fun _ _ hw => countRemote_inv hw)
          · split
            · exact hu
            · exact modSession_inv hu
          · exact parkOutside_inv hu

theorem State.orderOutside_inv {r : ExtRequest} (hs : s.Inv) : (s.orderOutside r).Inv :=
  ite_inv (inv_of_mem hs rfl) (landOutside_inv hs)

theorem State.drainReorder_inv {n : Nat} (hs : s.Inv) : (s.drainReorder n).Inv := by
  induction n generalizing s with
  | zero => exact hs
  | succ n ih =>
    unfold State.drainReorder
    split
    · exact hs
    · exact ih (landOutside_inv (inv_of_mem hs rfl))

theorem State.arriveOutside_inv {r : ExtRequest} (hs : s.Inv) : (s.arriveOutside r).Inv := by
  unfold State.arriveOutside
  split
  · exact hs
  · split
    · exact freezePort_inv hs
    · split
      · have hr : ∀ a what operand n,
            (if s.tooLate r.expiry then (s, some .again) else s.answerRead r a what operand n).1.Inv := by
          intro a what operand n
          split
          · exact hs
          · exact answerRead_inv hs
        split
        · next t x e => exact emit_inv (inv_of_fst e (hr ..))
        · next t e => exact inv_of_fst e (hr ..)
      · split
        · exact emit_inv hs
        · exact drainReorder_inv (orderOutside_inv hs)

theorem State.landOutsideAll_inv {r : ExtRequest} (hs : s.Inv) : (s.landOutsideAll r).Inv :=
  drainReorder_inv (landOutside_inv hs)

theorem State.proxyAck_inv {n : Nat} {k : AckKind} (hs : s.Inv) : (s.proxyAck n k).Inv := by
  unfold State.proxyAck
  split
  · exact hs
  · refine drainReorder_inv ?_
    split
    · exact emit_inv (unitApplied_inv (streamDone_inv (inv_of_mem hs rfl)))
    · exact ackOutside_inv (streamDone_inv (unitApplied_inv (inv_of_mem hs rfl)))
    · exact ackOutside_inv (streamDone_inv (unitApplied_inv (inv_of_mem hs rfl)))

theorem State.parkHost_inv {p : HostPart} {code : BitVec 8} {die : Nat} (hs : s.Inv) : (s.parkHost p code die).Inv :=
  parkWork_inv hs

theorem State.hostAck_inv {n : Nat} {k : AckKind} (hs : s.Inv) : (s.hostAck n k).Inv := by
  unfold State.hostAck
  split
  · exact hs
  · exact inv_of_mem hs rfl

theorem State.hostReturned_inv {n : Nat} (hs : s.Inv) : (s.hostReturned n).Inv := by
  unfold State.hostReturned
  split
  · exact hs
  · exact inv_of_mem hs rfl

theorem State.proxyAgain_inv {n : Nat} (hs : s.Inv) : (s.proxyAgain n).Inv := by
  unfold State.proxyAgain
  split
  · exact hs
  · exact landOutsideAll_inv (inv_of_mem hs rfl)

theorem State.proxyReply_inv {n : Nat} {x : Reply} (hs : s.Inv) : (s.proxyReply n x).Inv := by
  unfold State.proxyReply
  split
  · exact hs
  · exact inv_of_mem hs rfl

theorem State.proxyHeld_inv {n : Nat} (hs : s.Inv) : (s.proxyHeld n).Inv := by
  unfold State.proxyHeld
  split
  · exact hs
  · exact ite_inv hs (inv_of_mem hs rfl)

theorem State.landHeld_inv {x : ArriveSrc} (hs : s.Inv) : (s.landHeld x).Inv := by
  unfold State.landHeld
  split
  · split
    · exact hs
    · split
      · exact hs
      · exact ite_inv (landPart_inv hs) hs
  · exact landOutsideAll_inv hs

theorem State.discardRequest_inv {x : ArriveSrc} (hs : s.Inv) : (s.discardRequest x).Inv := by
  unfold State.discardRequest
  split
  · exact finishEntry_inv (inv_of_mem hs rfl)
  · exact drainReorder_inv (ackOutside_inv (streamDone_inv hs))

theorem State.arrive_inv {x : ArriveSrc} (hs : s.Inv) : (s.arrive x).Inv := by
  unfold State.arrive
  split
  · exact arrivePart_inv hs
  · exact arriveOutside_inv hs

end Sys2Proof.Machine
end

section
/-! PROOFS. Memory stays canonical: loads, gathers and `ldfe`. -/

namespace Sys2Proof.Machine

open State

variable {s : State}

theorem State.loadAt_inv {a : W64} {n align : Nat} {go : List Byte → Mask → State → State} (hs : s.Inv)
    (hg : ∀ a b t, t.Inv → (go a b t).Inv) : (s.loadAt a n align go).Inv := by
  unfold State.loadAt
  refine ite_inv (raise_inv _ _ hs) ?_
  exact checked_inv _ _ hs (fun _ => loadPieces_inv hs (fun _ _ _ ht => hg _ _ _ ht))

theorem State.loadScalar_inv {b : BitVec 3} {x : BitVec 5} {i : BitVec 6} {n : Nat} {go : Nat → Mask → State → State}
    (hs : s.Inv) (hg : ∀ a b t, t.Inv → (go a b t).Inv) : (s.loadScalar b x i n go).Inv :=
  mslot_inv _ hs (loadAt_inv hs (fun _ _ _ ht => hg _ _ _ ht))

theorem execLdv_keeps {t : BitVec 6} {b : BitVec 3} {x : BitVec 5} {m : BitVec 4} {i : BitVec 6} :
    Keeps s (execLdv t b x m i s) := by
  unfold execLdv
  refine .next fun hs => ?_
  refine mslot_inv _ hs ?_
  refine ite_inv (raise_inv _ _ hs) ?_
  exact loadAt_inv hs (fun _ _ _ ht => ite_inv (inv_of_mem ht rfl) (pushPort_inv _ _ ht))

theorem State.lanesOf_inv {b : BitVec 3} {v : BitVec 6} {k : BitVec 3} {go : List (Nat × W64) → State → State}
    (hs : s.Inv) (hg : ∀ a t, t.Inv → (go a t).Inv) : (s.lanesOf b v k go).Inv := by
  unfold State.lanesOf
  refine ite_inv (raise_inv _ _ hs) ?_
  split
  · exact raise_inv _ _ hs
  · exact hg _ _ hs

theorem execVgath_keeps {t : BitVec 6} {b : BitVec 3} {v : BitVec 6} {k : BitVec 3} :
    Keeps s (execVgath t b v k s) := by
  unfold execVgath
  refine .next fun hs => ?_
  refine ite_inv (raise_inv _ _ hs) ?_
  exact mslot_inv _ hs (lanesOf_inv hs (fun _ _ ht => checked_inv
    _ _ ht (fun _ => loadPieces_inv ht (fun _ _ _ hu => inv_of_mem hu rfl))))

theorem State.queueLdfe_inv {va : W64} (hs : s.Inv) : (s.queueLdfe va).Inv := by
  unfold State.queueLdfe
  split
  · exact hs
  · refine ite_inv hs ?_
    split
    · exact joinLdfe_inv hs
    · exact hs

theorem State.fePlace_inv {u : Use} {a : W64} {x : Xlat} {go : Option Home → State → State} (hs : s.Inv)
    (hg : ∀ a t, t.Inv → (go a t).Inv) : (s.fePlace u a x go).Inv := by
  unfold State.fePlace
  refine ite_inv ?_ (ite_inv (raise_inv _ _ hs) (hg _ _ hs))
  split
  · exact raise_inv _ _ hs
  · exact ite_inv (raise_inv _ _ hs) (hg _ _ hs)

theorem State.answer_inv {va : W64} {r : Reply} {go : W32 → State → State} (hs : s.Inv)
    (hg : ∀ a t, t.Inv → (go a t).Inv) : (s.answer va r go).Inv := by
  unfold State.answer
  split
  · exact hg _ _ hs
  · exact raise_inv _ _ hs
  · exact raise_inv _ _ hs
  · exact stall_inv _ hs

theorem State.countAccess_inv {x : Xlat} {place : Nat} (hs : s.Inv) : (s.countAccess x place).Inv :=
  countRemote_inv (touchVia_inv hs)

theorem State.askLdfe_inv {va : W64} {x : Xlat} {go : W32 → State → State} (hs : s.Inv)
    (hg : ∀ a t, t.Inv → (go a t).Inv) : (s.askLdfe va x go).Inv := by
  unfold State.askLdfe
  refine ask_inv hs (fun _ _ ht => ?_)
  split
  · refine ask_inv ht (fun _ _ hu => ?_)
    split
    · exact ite_inv (stall_inv _ (inv_of_mem hu rfl)) (hg _ _ hu)
    · exact answer_inv hu (fun _ _ hw => hg _ _ hw)
  · exact answer_inv ht (fun _ _ hu => hg _ _ hu)

theorem execLdfe_keeps {t : BitVec 5} {b : BitVec 3} {x : BitVec 5} {i : BitVec 6} :
    Keeps s (execLdfe t b x i s) := by
  unfold execLdfe
  refine .next fun hs => ?_
  refine mslot_inv _ hs ?_
  refine ite_inv (raise_inv _ _ hs) ?_
  refine checked_inv _ _ hs (fun _ => ?_)
  split
  · exact hs
  · refine fePlace_inv (touchAll_inv hs) (fun _ _ ht => ?_)
    refine ite_inv (stall_inv _ ht) ?_
    refine ite_inv (stall_inv _ ht) ?_
    split
    · refine ite_inv (stall_inv _ ht) ?_
      refine ite_inv (stall_inv _ ht) ?_
      refine ite_inv (raise_inv _ _ ht) ?_
      exact countAccess_inv (leaveLdfe_inv (feSet_inv (wg_inv ht)))
    · exact askLdfe_inv ht (fun _ _ hu => wg_inv hu)

end Sys2Proof.Machine
end

section
/-! PROOFS. Memory stays canonical: stores. -/

namespace Sys2Proof.Machine

open State

variable {s : State}

theorem State.storeBytes_inv {a : W64} {align : Nat} {st : BitVec 4} {bs : List Byte} (hs : s.Inv) :
    (s.storeBytes a align st bs).Inv :=
  ite_inv (raise_inv _ _ hs) (checked_inv _ _ hs (fun _ => putStore_inv hs))

theorem State.storeScalar_inv {v : Nat} {m : Mask} {b : BitVec 3} {x : BitVec 5} {st : BitVec 4} {i : BitVec 6}
    {n : Nat} (hs : s.Inv) : (s.storeScalar v m b x st i n).Inv :=
  mslot_inv _ hs (storeBytes_inv hs)

theorem execStv_keeps {t : BitVec 6} {b : BitVec 3} {x : BitVec 5} {st : BitVec 4} {i : BitVec 6} :
    Keeps s (execStv t b x st i s) :=
  .next fun hs => withCodes_inv _ hs (fun _ _ ht => mslot_inv _ ht (storeBytes_inv ht))

theorem execStm_keeps {t : BitVec 6} {b k : BitVec 3} {st : BitVec 4} {i : BitVec 6} :
    Keeps s (execStm t b k st i s) :=
  .next fun hs => withCodes_inv _ hs (fun _ _ ht => mslot_inv
    _ ht (ite_inv (raise_inv _ _ ht) (checked_inv _ _ ht (fun _ => putStore_inv ht))))

theorem execStvMc_keeps {t : BitVec 6} {b : BitVec 3} {x : BitVec 5} {st : BitVec 4} {i : BitVec 6} :
    Keeps s (execStvMc t b x st i s) := by
  unfold execStvMc
  refine .next fun hs => ?_
  refine withCodes_inv _ hs (fun _ _ ht => ?_)
  refine mslot_inv _ ht ?_
  refine ite_inv (raise_inv _ _ ht) ?_
  refine checked_inv _ _ ht (fun _ => ?_)
  dsimp only
  split
  · refine ite_inv (accept_inv ht) ?_
    split
    · exact acceptAs_inv (accept_inv (inv_of_mem ht rfl))
    · exact accept_inv (inv_of_mem ht rfl)
  · exact ht

theorem execVscat_keeps {t : BitVec 6} {b : BitVec 3} {v : BitVec 6} {k : BitVec 3} {st : BitVec 4} :
    Keeps s (execVscat t b v k st s) := by
  unfold execVscat
  refine .next fun hs => ?_
  refine ite_inv (raise_inv _ _ hs) ?_
  refine withCodes_inv _ hs (fun _ _ ht => ?_)
  refine mslot_inv _ ht ?_
  refine lanesOf_inv ht (fun _ _ hu => ?_)
  refine ite_inv (checked_inv _ _ hu (fun _ => putStore_inv hu)) ?_
  exact checked_inv _ _ hu (fun _ => putStore_inv hu)

theorem execStAcc_keeps {t : BitVec 5} {b : BitVec 3} {x : BitVec 5} {st o : BitVec 4} :
    Keeps s (execStAcc t b x st o s) :=
  .next fun hs => mslot_inv _ hs (ite_inv (raise_inv _ _ hs) (checked_inv _ _ hs (fun _ => putStore_inv hs)))

theorem execStvAcc_keeps {t : BitVec 6} {b : BitVec 3} {x : BitVec 5} {st o : BitVec 4} :
    Keeps s (execStvAcc t b x st o s) := by
  unfold execStvAcc
  refine .next fun hs => ?_
  refine withCodes_inv _ hs (fun _ _ ht => ?_)
  refine mslot_inv _ ht ?_
  refine ite_inv (raise_inv _ _ ht) ?_
  exact ite_inv (raise_inv _ _ ht) (checked_inv _ _ ht (fun _ => putStore_inv ht))

end Sys2Proof.Machine
end

section
/-! PROOFS. Memory stays canonical: full/empty bits, sync words, feed ports, fences and taint. -/

namespace Sys2Proof.Machine

open State

variable {s : State}

/-! ### Full/empty and sync words -/

theorem State.markLine_inv {a : BitVec 3} {b : BitVec 5} {full : Bool} (hs : s.Inv) : (s.markLine a b full).Inv := by
  unfold State.markLine
  refine mslot_inv _ hs (checked_inv _ _ hs fun ps => ?_)
  split
  · exact hs
  · next p _ =>
    have hgo : ∀ t : State, t.Inv → State.Inv (match t.ownHome p.x with
        | some h => if full && t.ownOverlap (t.lineLocs h) false then t.stall .storeRoom else t.feSet full h.fe
        | none => t.accept .mark p.x.sc 0 none 0
          [{ x := p.x, va := s.eaSys a b, effects := [.mark p.x.addr full] }]) := by
      intro t ht
      split
      · exact ite_inv (stall_inv _ ht) (feSet_inv ht)
      · exact accept_inv ht
    exact ite_inv (fePlace_inv (touchAll_inv hs) (fun _ _ ht => hgo _ ht)) (hgo _ (touchAll_inv hs))

theorem execFecheck_keeps {d : BitVec 5} {a : BitVec 3} {b : BitVec 5} : Keeps s (execFecheck d a b s) := by
  unfold execFecheck
  refine .next fun hs => ?_
  refine mslot_inv _ hs ?_
  refine checked_inv _ _ hs (fun _ => ?_)
  split
  · exact hs
  · refine fePlace_inv (touchAll_inv hs) (fun _ _ ht => ?_)
    split
    · exact countAccess_inv (wg_inv ht)
    · exact ask_inv ht (fun _ _ hu => answer_inv hu (fun _ _ hw => wg_inv hw))

theorem State.syncAccess_inv {a : BitVec 3} {b : BitVec 5} {m : Mask} {u : Use}
    {go : W64 → Piece → Option Nat → State → State} (hs : s.Inv) (hg : ∀ a b c t, t.Inv → (go a b c t).Inv) :
    (s.syncAccess a b m u go).Inv := by
  unfold State.syncAccess
  refine mslot_inv _ hs ?_
  refine ite_inv (raise_inv _ _ hs) ?_
  refine checked_inv _ _ hs (fun _ => ?_)
  split
  · exact hs
  · refine ite_inv (stall_inv _ (touchAll_inv hs)) ?_
    refine ite_inv (stall_inv _ (touchAll_inv hs)) ?_
    refine ite_inv ?_ (hg _ _ _ _ (touchAll_inv hs))
    split
    · exact raise_inv _ _ (touchAll_inv hs)
    · refine ite_inv (raise_inv _ _ (touchAll_inv hs)) ?_
      exact ite_inv (stall_inv _ (touchAll_inv hs)) (hg _ _ _ _ (touchAll_inv hs))

theorem execSwarm_keeps {d : BitVec 5} {a : BitVec 3} {b : BitVec 5} : Keeps s (execSwarm d a b s) := by
  unfold execSwarm
  refine .next fun hs => ?_
  refine syncAccess_inv hs (fun _ _ _ _ ht => ?_)
  split
  · refine ite_inv (raise_inv _ _ ht) ?_
    exact countAccess_inv (wg_inv (writeLE_inv _ _ _ (writeLE_inv _ _ _ ht)))
  · exact ask_inv ht (fun _ _ hu => answer_inv hu (fun _ _ hw => wg_inv hw))

theorem execSwait_keeps {d : BitVec 5} {a : BitVec 3} {b : BitVec 5} : Keeps s (execSwait d a b s) := by
  unfold execSwait
  refine .next fun hs => ?_
  refine syncAccess_inv hs (fun _ _ _ _ ht => ?_)
  split
  · refine ite_inv (raise_inv _ _ ht) ?_
    exact ite_inv (countAccess_inv (wg_inv ht)) (stall_inv _ ht)
  · exact ask_inv ht (fun _ _ hu => answer_inv hu (fun _ _ hw => wg_inv hw))

/-! ### Feed ports (R140 to R142, R292) -/

theorem execFbind_keeps {p : BitVec 3} {a : BitVec 5} : Keeps s (execFbind p a s) := by
  unfold execFbind
  refine .next fun hs => ?_
  refine mslot_inv _ hs ?_
  refine ite_inv ?_ (ite_inv (raise_inv _ _ hs) (inv_of_mem hs rfl))
  split
  · exact raise_inv _ _ hs
  · exact stall_inv _ hs

theorem State.drained_inv {p : BitVec 3} {go : State → State} (hs : s.Inv) (hg : ∀ t, t.Inv → (go t).Inv) :
    (s.drained p go).Inv := by
  unfold State.drained
  dsimp only
  split
  · exact raise_inv _ _ hs
  · exact ite_inv (hg _ hs) (stall_inv _ hs)

theorem execFunbind_keeps {p : BitVec 3} : Keeps s (execFunbind p s) := by
  unfold execFunbind
  refine .next fun hs => ?_
  refine mslot_inv _ hs ?_
  refine ite_inv (inv_of_mem hs rfl) ?_
  refine ite_inv (drained_inv hs (fun _ ht => inv_of_mem ht rfl)) ?_
  exact raise_inv _ _ hs

theorem execFdrain_keeps {p : BitVec 3} : Keeps s (execFdrain p s) :=
  .next fun hs => mslot_inv _ hs (ite_inv (raise_inv _ _ hs) (drained_inv hs (fun _ ht => ht)))

/-! ### Fences (R127, R143, R144) -/

theorem State.fenceTo_inv {scope die : Nat} {go : State → State} (hs : s.Inv) (hg : ∀ t, t.Inv → (go t).Inv) :
    (s.fenceTo scope die go).Inv := by
  unfold State.fenceTo
  dsimp only
  split
  · exact raiseVoid_inv hs
  · refine ite_inv (stall_inv _ hs) ?_
    refine ite_inv (stall_inv _ hs) ?_
    split
    · exact raiseLoss_inv hs
    · exact hg _ hs

theorem execFence_keeps {c : BitVec 4} : Keeps s (execFence c s) :=
  .next fun hs => heldFirst_inv hs (fun _ ht => mslot_inv _ ht (fenceTo_inv ht (fun _ hu => hu)))

theorem execSfence_keeps {st : BitVec 4} : Keeps s (execSfence st s) := by
  unfold execSfence
  refine .next fun hs => ?_
  refine mslot_inv _ hs ?_
  refine ite_inv (stall_inv _ hs) ?_
  split
  · exact raiseLoss_inv hs
  · exact hs

/-! ### Taint (R145) -/

theorem execTclr_keeps {r : BitVec 5} {h : BitVec 1} {f : BitVec 2} : Keeps s (execTclr r h f s) := by
  unfold execTclr
  refine .next fun hs => ?_
  split
  · exact ite_inv (inv_of_mem hs rfl) (wg_inv hs)
  · exact inv_of_mem hs rfl
  · exact ite_inv (inv_of_mem hs rfl) hs
  · exact wk_inv hs

end Sys2Proof.Machine
end

section
/-! PROOFS. Memory stays canonical: the crew area, phasers and the writes of the Piazza on behalf of a job. -/

namespace Sys2Proof.Machine

open State

variable {s : State}

/-! ### Writes of a master (R179, R397) -/

theorem State.writePiece_inv {w : Who} {x : Xlat} {bs : List Byte} {mark : Bool} (hs : s.Inv) :
    OkInv (s.writePiece w x bs mark) := by
  unfold State.writePiece
  split
  · exact .ok (inv_of_mem hs rfl)
  · split
    · exact .error
    · exact .ok (writeHome_inv hs)

theorem State.writeAll_inv {w : Who} {mark : Bool} {ps : List (W64 × Nat × Xlat)} {bs : List Byte} (hs : s.Inv) :
    OkInv (s.writeAll w mark ps bs) := by
  induction ps generalizing s bs with
  | nil => exact .ok hs
  | cons p ps ih =>
    unfold State.writeAll
    split
    · exact .error
    · next t e => exact ih (inv_of_ok e (writePiece_inv hs))

theorem State.masterWrite_inv {w : Who} {va : W64} {bs : List Byte} {mark : Bool} (hs : s.Inv) :
    OkInv (s.masterWrite w va bs mark) := by
  unfold State.masterWrite
  dsimp only
  split
  · exact .error
  · exact writeAll_inv (noteAll_inv hs)

theorem State.parkPiazza_inv {job : BitVec 16} {code : BitVec 8} {va : W64} {work : ParkedWork} (hs : s.Inv) :
    (s.parkPiazza job code va work).Inv :=
  parkWork_inv hs

/-! ### The crew area (R261, Tables 10.3 and 10.4) -/

theorem State.writeCrew_inv {c : Crew} {live : Bool} (hs : s.Inv) : (s.writeCrew c live).Inv := by
  unfold State.writeCrew
  dsimp only
  split
  · exact hs
  · split
    · next t e => exact inv_of_ok e (masterWrite_inv hs)
    · exact parkPiazza_inv hs

theorem State.refreshCrews_inv {job : BitVec 16} {i : Nat} (hs : s.Inv) : (s.refreshCrews job i).Inv :=
  foldl_inv hs (fun _ _ ht => ite_inv (writeCrew_inv ht) ht)

/-! ### Sub-partitions and variants (R246, R263, R264) -/

theorem State.putCrew_inv {c : Crew} (hs : s.Inv) : (s.putCrew c).Inv := writeCrew_inv (inv_of_mem hs rfl)

theorem State.regang_inv {num : BitVec 16} (hs : s.Inv) : (s.regang num).Inv := by
  unfold State.regang
  split
  · exact hs
  · refine foldl_inv hs (fun _ _ ht => ?_)
    refine ite_inv ?_ ht
    split
    · exact putCrew_inv ht
    · exact ht

theorem State.request_inv {h : BitVec 24} (hs : s.Inv) : (s.request h).Inv := inv_of_mem hs rfl

theorem State.setVariant_inv {j : Job} {v : Nat} (hs : s.Inv) : (s.setVariant j v).Inv := by
  unfold State.setVariant
  refine foldl_inv ?_ (fun _ _ ht => ite_inv ht (inv_of_mem ht rfl))
  refine regang_inv ?_
  refine foldl_inv (inv_of_mem hs rfl) (fun _ _ ht => ?_)
  split
  · next u e => exact inv_of_ok e (masterWrite_inv ht)
  · exact inv_of_mem ht rfl

theorem State.selectVariant_inv {j : Job} {phase : Nat} (hs : s.Inv) : (s.selectVariant j phase).Inv :=
  ite_inv (inv_of_mem hs rfl) (setVariant_inv (inv_of_mem hs rfl))

/-! ### Phasers (R203, R205, R262) -/

theorem State.advance_inv {n : Nat} {c : Crew} (hs : s.Inv) : (s.advance n c).Inv := by
  induction n generalizing s c with
  | zero => exact putCrew_inv hs
  | succ n ih =>
    unfold State.advance
    split
    · refine ih ?_
      split
      · exact ite_inv (selectVariant_inv hs) hs
      · exact hs
    · exact putCrew_inv hs

theorem State.advanceCrew_inv {c : Crew} (hs : s.Inv) : (s.advanceCrew c).Inv := advance_inv hs

/-! ### Commands (R199 to R205) -/

theorem State.eslot_inv {m : Mask} {go : State → State} (hs : s.Inv) (hg : ∀ t, t.Inv → (go t).Inv) :
    (s.eslot m go).Inv :=
  hold_inv _ hs (hg _ hs)

theorem State.withCrew_inv {a : BitVec 5} {go : Crew → State → State} (hs : s.Inv)
    (hg : ∀ a t, t.Inv → (go a t).Inv) : (s.withCrew a go).Inv := by
  unfold State.withCrew
  refine eslot_inv hs (fun _ ht => ?_)
  dsimp only
  split
  · exact raise_inv _ _ ht
  · exact ite_inv (raise_inv _ _ ht) (hg _ _ ht)

theorem State.newCrew_inv {t : State} {job : BitVec 16} {home slot : Nat} {gang : Bool} {members : Table Member}
    {c : Crew} (hs : s.Inv) (e : s.newCrew job home slot gang members = some (c, t)) : t.Inv := by
  obtain ⟨n, -, hn⟩ := Option.map_eq_some_iff.mp e
  cases hn
  exact inv_of_mem hs rfl

theorem execCrnew_keeps {a b : BitVec 5} : Keeps s (execCrnew a b s) := by
  unfold execCrnew
  refine .next fun hs => eslot_inv hs fun t ht => ?_
  dsimp only
  split
  · exact raise_inv _ _ ht
  · split
    · exact wg_inv ht
    · split
      · exact wg_inv ht
      · split
        · exact wg_inv ht
        · next c u e => exact writeCrew_inv (wg_inv (newCrew_inv ht e))

theorem State.joinSeq_inv {job : BitVec 16} {i : Nat} {h : W32} (hs : s.Inv) : (s.joinSeq job i h).Inv := by
  unfold State.joinSeq
  split
  · exact hs
  · dsimp only
    split
    · refine ite_inv (request_inv (regang_inv (inv_of_mem hs rfl))) ?_
      exact regang_inv (inv_of_mem hs rfl)
    · exact regang_inv (inv_of_mem hs rfl)

theorem execCrjoin_keeps {a b : BitVec 5} : Keeps s (execCrjoin a b s) := by
  unfold execCrjoin
  refine .next fun hs => ?_
  refine hold_inv _ hs ?_
  refine withCrew_inv hs (fun _ _ ht => ?_)
  refine ite_inv (raise_inv _ _ ht) ?_
  exact ite_inv ht (joinSeq_inv (putCrew_inv ht))

theorem State.leaveCrew_inv {job : BitVec 16} {i : Nat} {c : Crew} (hs : s.Inv) : (s.leaveCrew job i c).Inv :=
  ite_inv hs (regang_inv (mapSeqs_inv (advanceCrew_inv hs)))

theorem execCrleave_keeps {a b : BitVec 5} : Keeps s (execCrleave a b s) :=
  .next fun hs => hold_inv _ hs (withCrew_inv hs (fun _ _ ht => ite_inv (raise_inv _ _ ht) (leaveCrew_inv ht)))

theorem State.freeCrew_inv {c : Crew} (hs : s.Inv) : (s.freeCrew c).Inv :=
  regang_inv (writeCrew_inv (inv_of_mem hs rfl))

theorem execCrfree_keeps {a : BitVec 5} : Keeps s (execCrfree a s) :=
  .next fun hs => withCrew_inv hs (fun _ _ ht => ite_inv (raise_inv _ _ ht) (freeCrew_inv ht))

theorem State.timeSignal_inv {c : Crew} {i phase : Nat} (hs : s.Inv) : (s.timeSignal c i phase).Inv := by
  unfold State.timeSignal
  split
  · exact hs
  · exact ite_inv (inv_of_mem hs rfl) hs

theorem execPhsig_keeps {a : BitVec 5} : Keeps s (execPhsig a s) := by
  unfold execPhsig
  refine .next fun hs => ?_
  refine withCrew_inv hs (fun _ _ ht => ?_)
  refine ite_inv (raise_inv _ _ ht) ?_
  exact fenceTo_inv ht (fun _ hu => ite_inv (stall_inv _ hu) (advanceCrew_inv (timeSignal_inv hu)))

theorem State.markWaiting_inv {crew : W32} {i : Nat} (hs : s.Inv) : (s.markWaiting crew i).Inv := by
  unfold State.markWaiting
  split
  · exact ite_inv hs (putCrew_inv hs)
  · exact hs

theorem execPhwait_keeps {p : BitVec 1} {a : BitVec 5} : Keeps s (execPhwait p a s) := by
  unfold execPhwait
  refine .next fun hs => ?_
  refine withCrew_inv hs (fun _ _ ht => ?_)
  refine ite_inv (raise_inv _ _ ht) ?_
  exact ite_inv (stall_inv _ ht) (advanceCrew_inv ht)

end Sys2Proof.Machine
end

section
/-! PROOFS. Memory stays canonical: branches, calls and the loop stack. -/

namespace Sys2Proof.Machine

open State

variable {s : State}

theorem State.goTo_inv {a : W64} (hs : s.Inv) : (s.goTo a).Inv := inv_of_mem hs rfl

theorem State.toExit_inv {x : W64} {go : State → State} (hs : s.Inv) (hg : ∀ t, t.Inv → (go t).Inv) :
    (s.toExit x go).Inv := by
  unfold State.toExit
  split
  · exact goTo_inv (hg _ hs)
  · exact raise_inv _ _ hs
  · exact takeTrap_inv _ hs

theorem State.jumpTo_inv {a : BitVec 3} (hs : s.Inv) : (s.jumpTo a).Inv :=
  ite_inv (raise_inv _ _ hs) (inv_of_mem hs rfl)

theorem execLoop_keeps {c : BitVec 5} {l : BitVec 3} {n : BitVec 15} : Keeps s (execLoop c l n s) := by
  unfold execLoop
  dsimp only
  split
  · exact .next fun hs => raise_inv _ _ hs
  · split
    · exact .next fun hs => toExit_inv hs (fun _ ht => inv_of_mem ht rfl)
    · exact .next fun hs => inv_of_mem hs rfl

theorem State.closeIter_inv {l : BitVec 3} {rot : Bool} (hs : s.Inv) : (s.closeIter l rot).Inv := by
  unfold State.closeIter
  refine ite_inv (raise_inv _ _ hs) ?_
  refine ite_inv (ite_inv (inv_of_mem hs rfl) (inv_of_mem hs rfl)) ?_
  exact inv_of_mem hs rfl

theorem execLbrk_keeps {n : BitVec 1} {k : BitVec 3} : Keeps s (execLbrk n k s) := by
  unfold execLbrk
  split
  · exact .next fun hs => raise_inv _ _ hs
  · dsimp only
    split
    · exact .next fun hs => toExit_inv hs (fun _ ht => inv_of_mem ht rfl)
    · exact .next fun hs => inv_of_mem hs rfl

theorem execLidx_keeps {d l : BitVec 5} : Keeps s (execLidx d l s) := by
  unfold execLidx
  split
  · exact .next fun hs => raise_inv _ _ hs
  · exact .next fun hs => wg_inv hs

end Sys2Proof.Machine
end

section
/-! PROOFS. Memory stays canonical: the issue of a group. -/

namespace Sys2Proof.Machine

open State

variable {s : State}

theorem State.departNow_inv (hs : s.Inv) : s.departNow.Inv := inv_of_mem hs rfl

theorem State.issueGroup_inv (hs : s.Inv) : s.issueGroup.Inv := by
  unfold State.issueGroup
  refine ite_inv (inv_of_mem hs rfl) ?_
  split
  · exact raiseHeld_inv hs
  · split
    · exact raiseHeld_inv hs
    · split
      · exact takeTrap_inv _ hs
      · split
        · exact takeTrap_inv _ hs
        · split
          · exact raiseHeld_inv hs
          · refine ite_inv (inv_of_mem hs rfl) ?_
            dsimp only [State.Inv]
            exact noteAll_inv hs

theorem execGroupIssue_keeps {h : BitVec 24} : Keeps s (execGroupIssue h s) := by
  unfold execGroupIssue
  refine .next fun hs => ?_
  have hi : State.Inv { s.select h with issue := .idle } := select_inv hs
  exact ite_inv (ite_inv (issueGroup_inv hi) (ite_inv hi hi)) (select_inv hs)

end Sys2Proof.Machine
end

section
/-! PROOFS. Memory stays canonical: the save area, tiles, lots and slots of a core. -/

namespace Sys2Proof.Machine

open State

variable {s : State}

/-! ### Tiles, lots and slots of a core -/

theorem State.modTile_inv {n t : Nat} {f : Tile → Tile} (hs : s.Inv) : (s.modTile n t f).Inv := inv_of_mem hs rfl

/-! ### The save area (R253, R254, R294) -/

theorem State.copyBlock_inv {src dst n : Nat} (hs : s.Inv) : (s.copyBlock src dst n).Inv := by
  unfold State.copyBlock
  dsimp only [State.Inv]
  exact writeBytes_inv _ hs

theorem State.setLotBits_inv {core lot bm : Nat} (hs : s.Inv) : (s.setLotBits core lot bm).Inv := inv_of_mem hs rfl

theorem State.writeParts_inv {w : Who} {h : BitVec 24} {base : W64} {ps : List (Nat × List Byte)} (hs : s.Inv) :
    (s.writeParts w h base ps).1.Inv := by
  induction ps generalizing s with
  | nil => exact hs
  | cons p ps ih =>
    unfold State.writeParts
    split
    · exact hs
    · next t e => exact ih (modSeq_inv (inv_of_ok e (masterWrite_inv hs)))

theorem State.saveLot_inv {die n l : Nat} {j : Job} {q : Seqr} (hs : s.Inv) : OkInv (s.saveLot die j q n l) := by
  unfold State.saveLot
  dsimp only
  split
  · exact .error
  · next t e =>
    refine masterWrite_inv ?_
    split at e
    · cases e
    · cases e
    · split at e
      · cases e
        exact copyBlock_inv hs
      · exact inv_of_ok e (masterWrite_inv hs)

theorem State.saveLots_inv {die n : Nat} {j : Job} {q : Seqr} {ls : List Nat} (hs : s.Inv) :
    (s.saveLots die j q n ls).1.Inv := by
  induction ls generalizing s n with
  | nil => exact hs
  | cons l ls ih =>
    unfold State.saveLots
    split
    · exact hs
    · next t e => exact ih (modSeq_inv (inv_of_ok e (saveLot_inv hs)))

theorem State.parkSave_inv {q : Seqr} {die : Nat} {e : BitVec 8 × W64} (hs : s.Inv) : (s.parkSave q die e).Inv :=
  parkWork_inv hs

theorem State.freeSlot_inv {q : Seqr} (hs : s.Inv) : (s.freeSlot q).Inv := inv_of_mem hs rfl

theorem State.reimage_inv {h : BitVec 24} {n : Nat} (hs : s.Inv) : (s.reimage h n).Inv := by
  unfold State.reimage
  split
  · exact hs
  · refine ite_inv hs ?_
    split
    · exact hs
    · split
      · next t e => exact inv_of_ok e (masterWrite_inv hs)
      · exact hs

theorem State.setSt_inv {h : BitVec 24} {st : SeqState} (hs : s.Inv) : (s.setSt h st).Inv :=
  reimage_inv (inv_of_mem hs rfl)

theorem State.undoRestore_inv {h : BitVec 24} (hs : s.Inv) : (s.undoRestore h).Inv := by
  unfold State.undoRestore
  split
  · exact hs
  · split
    · refine modSeq_inv ?_
      refine freeSlot_inv ?_
      refine foldl_inv hs (fun _ _ ht => ?_)
      refine ite_inv ?_ ht
      split
      · next u e => exact inv_of_ok e (saveLot_inv ht)
      · exact ht
    · exact hs

theorem State.enqueue_inv {h : BitVec 24} (hs : s.Inv) : (s.enqueue h).Inv := by
  unfold State.enqueue
  dsimp only [State.Inv]
  exact setSt_inv hs

theorem State.saveContext_inv {q : Seqr} (hs : s.Inv) : (s.saveContext q).Inv := by
  unfold State.saveContext
  split
  · exact hs
  · dsimp -zeta only
    extract_lets die
    split
    · exact parkSave_inv (writeParts_inv hs)
    · split
      · next t _ e => exact parkSave_inv (inv_of_fst e (saveLots_inv (writeParts_inv hs)))
      · next t e =>
        have ht := inv_of_fst e (saveLots_inv (writeParts_inv hs))
        extract_lets words freed parked saved shown reimaged
        have hfreed : freed.Inv := freeSlot_inv ht
        have hparked : parked.Inv := ite_inv (modCore_inv hfreed) hfreed
        have hshown : shown.Inv := refreshCrews_inv (modSeq_inv hparked)
        have hreimaged : reimaged.Inv := ite_inv (reimage_inv hshown) hshown
        exact ite_inv (enqueue_inv hreimaged) hreimaged

end Sys2Proof.Machine
end

section
/-! PROOFS. Memory stays canonical: the end of a job, retirement and pre-emption requests. -/

namespace Sys2Proof.Machine

open State

variable {s : State}

/-! ### The end of a job (R198, R397) -/

theorem State.leaveFeet_inv {num : BitVec 16} (hs : s.Inv) : (s.leaveFeet num).Inv := inv_of_mem hs rfl

theorem State.releaseJob_inv {num : BitVec 16} (hs : s.Inv) : (s.releaseJob num).Inv := by
  unfold State.releaseJob
  dsimp only [State.Inv]
  exact leaveFeet_inv (foldl_inv (inv_of_mem hs rfl) (fun _ _ ht => freeCrew_inv ht))

theorem State.closeJob_inv {num : BitVec 16} (hs : s.Inv) : (s.closeJob num).Inv := by
  unfold State.closeJob
  split
  · exact hs
  · exact ite_inv (inv_of_mem hs rfl) (releaseJob_inv (inv_of_mem hs rfl))

theorem State.writeDone_inv {j : Job} (hs : s.Inv) : (s.writeDone j).Inv := by
  unfold State.writeDone
  refine ite_inv (closeJob_inv hs) ?_
  refine ite_inv hs ?_
  split
  · next t e =>
    have ht := inv_of_ok e (masterWrite_inv hs)
    exact closeJob_inv ht
  · exact parkPiazza_inv hs

theorem State.endJob_inv {num : BitVec 16} {e : Nat} (hs : s.Inv) : (s.endJob num e).Inv := by
  unfold State.endJob
  split
  · exact hs
  · exact ite_inv hs (writeDone_inv (inv_of_mem hs rfl))

/-! ### Pre-emption requests (R246 to R249) -/

theorem State.askFor_inv {h : BitVec 24} {others : List (BitVec 24)} (hs : s.Inv) : (s.askFor h others).Inv := by
  unfold State.askFor
  split
  · exact hs
  · refine ite_inv hs ?_
    split
    · exact hs
    · exact inv_of_mem hs rfl

theorem State.askRoom_inv {h : BitVec 24} (hs : s.Inv) : (s.askRoom h).Inv := by
  unfold State.askRoom
  split
  · exact hs
  · exact ite_inv (askFor_inv hs) hs

theorem State.requeue_inv {h : BitVec 24} (hs : s.Inv) : (s.requeue h).Inv := askRoom_inv (enqueue_inv hs)

/-! ### Freezing and retiring sequencers (R222, R225, R250) -/

theorem State.freezeSeq_inv {h : BitVec 24} (hs : s.Inv) : (s.freezeSeq h).Inv := by
  unfold State.freezeSeq
  split
  · exact hs
  · refine ite_inv hs ?_
    split
    · exact hs
    · exact hs
    · exact ite_inv (inv_of_mem hs rfl) (modSeq_inv (leaveWaits_inv hs))
    · exact ite_inv (inv_of_mem hs rfl) (modSeq_inv (leaveWaits_inv hs))
    · exact setSt_inv (modSeq_inv (leaveWaits_inv (undoRestore_inv (inv_of_mem hs rfl))))
    · exact setSt_inv (modSeq_inv (leaveWaits_inv (undoRestore_inv (inv_of_mem hs rfl))))

theorem State.thawSeq_inv {h : BitVec 24} (hs : s.Inv) : (s.thawSeq h).Inv := by
  unfold State.thawSeq
  split
  · exact hs
  · exact ite_inv (inv_of_mem hs rfl) (ite_inv hs (requeue_inv hs))

theorem State.retireCtx_inv {status : W32} (hs : s.Inv) : (s.retireCtx status).Inv := by
  unfold State.retireCtx
  dsimp only
  split
  · refine ite_inv ?_ ?_
    · refine endJob_inv ?_
      refine modJob_inv ?_
      dsimp only [State.Inv]
      exact freeSlot_inv (foldl_inv hs (fun _ _ ht => ite_inv (leaveCrew_inv ht) ht))
    · refine modJob_inv ?_
      dsimp only [State.Inv]
      exact freeSlot_inv (foldl_inv hs (fun _ _ ht => ite_inv (leaveCrew_inv ht) ht))
  · refine modJob_inv ?_
    dsimp only [State.Inv]
    exact freeSlot_inv (foldl_inv hs (fun _ _ ht => ite_inv (leaveCrew_inv ht) ht))

end Sys2Proof.Machine
end

section
/-! PROOFS. Memory stays canonical: the system instructions. -/

namespace Sys2Proof.Machine

open State

variable {s : State}

theorem State.supOnly_inv {go : State → State} (hs : s.Inv) (hg : ∀ t, t.Inv → (go t).Inv) : (s.supOnly go).Inv :=
  ite_inv (hg _ hs) (raise_inv _ _ hs)

theorem execMtc_keeps {l h : BitVec 5} {n : BitVec 8} : Keeps s (execMtc l h n s) := by
  unfold execMtc
  refine .next fun hs => ?_
  refine hold_inv _ hs ?_
  refine ite_inv (inv_of_mem hs rfl) ?_
  refine ite_inv (raise_inv _ _ hs) ?_
  exact ite_inv (inv_of_mem hs rfl) (inv_of_mem hs rfl)

theorem execSleep_keeps {a : BitVec 5} : Keeps s (execSleep a s) := by
  unfold execSleep
  refine .next fun hs => ?_
  refine hold_inv _ hs ?_
  refine ite_inv hs ?_
  split
  · exact ite_inv (inv_of_mem hs rfl) (stall_inv _ hs)
  · exact stall_inv _ hs

theorem State.drainAll_inv {ps : List Nat} {go : State → State} (hs : s.Inv) (hg : ∀ t, t.Inv → (go t).Inv) :
    (s.drainAll ps go).Inv := by
  induction ps generalizing s with
  | nil => exact hg _ hs
  | cons p ps ih =>
    unfold State.drainAll
    split
    · exact drained_inv hs (fun _ ht => ih ht)
    · exact ih hs

theorem execExit_keeps {a : BitVec 5} : Keeps s (execExit a s) :=
  .next fun hs => hold_inv _ hs (heldFirst_inv hs (fun _ ht => fenceTo_inv
    ht (fun _ hu => ite_inv (stall_inv _ hu) (drainAll_inv hu (fun _ hw => retireCtx_inv hw)))))

end Sys2Proof.Machine
end

section
/-! PROOFS. Memory stays canonical: engine registers, copy commands, `xrmw` and launches. -/

namespace Sys2Proof.Machine

open State

variable {s : State}

/-! ### Engine registers (R28, R174, R175, R209, R216, R290) -/

theorem execMte_keeps {e : BitVec 3} {i : BitVec 7} {a b : BitVec 5} : Keeps s (execMte e i a b s) := by
  unfold execMte
  refine .next fun hs => ?_
  refine eslot_inv hs (fun _ ht => ?_)
  refine ite_inv (inv_of_mem ht rfl) ?_
  refine ite_inv (inv_of_mem ht rfl) ?_
  refine ite_inv (raise_inv _ _ ht) ?_
  exact ite_inv (inv_of_mem ht rfl) (inv_of_mem ht rfl)

/-! ### Copy channels (R181 to R184) -/

theorem State.withChannel_inv {c : BitVec 7} {go : Channel → State → State} (hs : s.Inv)
    (hg : ∀ a t, t.Inv → (go a t).Inv) : (s.withChannel c go).Inv :=
  ite_inv (raise_inv _ _ hs) (hg _ _ hs)

theorem execXchain_keeps {c : BitVec 7} {a b : BitVec 5} : Keeps s (execXchain c a b s) := by
  unfold execXchain
  refine .next fun hs => ?_
  refine eslot_inv hs (fun _ ht => ?_)
  refine withChannel_inv ht (fun _ _ hu => ?_)
  refine ite_inv (raise_inv _ _ hu) ?_
  split
  · exact raise_inv _ _ hu
  · refine ite_inv (raise_inv _ _ (touch_inv hu)) ?_
    exact ite_inv (stall_inv _ (touch_inv hu)) (modChan_inv (touch_inv hu))

theorem execXstat_keeps {c : BitVec 7} {a b : BitVec 5} : Keeps s (execXstat c a b s) :=
  .next fun hs => eslot_inv hs (fun _ ht => withChannel_inv ht (fun _ _ hu => wg_inv (wg_inv hu)))

theorem execXkill_keeps {c : BitVec 7} : Keeps s (execXkill c s) :=
  .next fun hs => eslot_inv hs (fun _ ht => withChannel_inv
    ht (fun _ _ hu => ite_inv (raise_inv _ _ hu) (ite_inv hu (inv_of_mem hu rfl))))

/-! ### Returning read-modify-write (R185 to R187) -/

theorem execXrmw_keeps {o : BitVec 4} {a b : BitVec 5} : Keeps s (execXrmw o a b s) := by
  unfold execXrmw
  refine .next fun hs => ?_
  refine eslot_inv hs (fun _ ht => ?_)
  refine ite_inv (raise_inv _ _ ht) ?_
  refine ite_inv (raise_inv _ _ ht) ?_
  split
  · exact raise_inv _ _ ht
  · refine ite_inv (stall_inv _ ht) ?_
    split
    · exact raise_inv _ _ ht
    · exact accept_inv (touchAll_inv ht)

/-! ### Launch (R207, R208) -/

theorem State.readHomes_inv {w : Who} {p : Piece} {go : List Byte → State → State} (hs : s.Inv)
    (hg : ∀ a t, t.Inv → (go a t).Inv) : (s.readHomes w p go).Inv := by
  unfold State.readHomes
  refine ite_inv ?_ ?_
  · split
    · exact raise_inv _ _ hs
    · split
      · exact raise_inv _ _ hs
      · exact hg _ _ (countRemote_inv (touchVia_inv hs))
  · refine ask_inv hs (fun _ _ ht => ?_)
    split
    · exact hg _ _ ht
    · exact raise_inv _ _ ht
    · exact raise_inv _ _ ht
    · exact stall_inv _ ht

theorem execLaunch_keeps {c : BitVec 5} {f : BitVec 3} {a b : BitVec 5} : Keeps s (execLaunch c f a b s) := by
  unfold execLaunch
  refine .next fun hs => ?_
  refine eslot_inv hs (fun _ ht => ?_)
  refine ite_inv (raise_inv _ _ ht) ?_
  dsimp only
  split
  · exact raise_inv _ _ ht
  · split
    · refine wg_inv ?_
      refine wk_inv ?_
      dsimp only [State.Inv]
      exact touch_inv ht
    · exact readHomes_inv (touch_inv ht) (fun _ _ hu => wg_inv (wk_inv (inv_of_mem hu rfl)))

end Sys2Proof.Machine
end

section
/-! PROOFS. Memory stays canonical: footprints and memory as an engine reaches it. -/

namespace Sys2Proof.Machine

open State

variable {s : State}

theorem State.footRegister_inv {die : Nat} {who : EngineJob} {job : BitVec 16} {e : Nat} (hs : s.Inv) :
    (s.footRegister die who job e).Inv :=
  inv_of_mem hs rfl

theorem State.engSync_inv {w : Who} {va : W64} {n : Nat} (hs : s.Inv) : OkInv (s.engSync w va n) := by
  unfold State.engSync
  split
  · exact .ok hs
  · split
    · exact .error
    · split
      · split
        · exact .error
        · split
          · exact .ok hs
          · exact .ok (emit_inv (touch_inv hs))
      · split
        · exact .error
        · split
          · exact .error
          · split
            · exact .ok hs
            · exact .ok (countAt_inv _ _ (note_inv hs))

end Sys2Proof.Machine
end

section
/-! PROOFS. Memory stays canonical: the matrix queue, its commands and routines. -/

namespace Sys2Proof.Machine

open State

variable {s : State}

/-! ### The queue -/

theorem State.modRoutine_inv {n : Nat} {f : Routine → Routine} (hs : s.Inv) : (s.modRoutine n f).Inv :=
  inv_of_mem hs rfl

theorem State.refreshBusy_inv {n : Nat} (hs : s.Inv) : (s.refreshBusy n).Inv :=
  foldl_inv hs (fun _ _ ht => ite_inv ht (inv_of_mem ht rfl))

theorem State.dropCmds_inv {n : Nat} {p : MatCmd → Bool} (hs : s.Inv) : (s.dropCmds n p).Inv := by
  unfold State.dropCmds
  refine refreshBusy_inv ?_
  refine modCore_inv ?_
  refine foldl_inv hs (fun _ _ ht => ?_)
  split
  · exact inv_of_mem ht rfl
  · exact ht

theorem State.popCmd_inv {n : Nat} (hs : s.Inv) : (s.popCmd n).Inv := by
  unfold State.popCmd
  split
  · exact hs
  · refine refreshBusy_inv ?_
    refine modCore_inv ?_
    split
    · exact inv_of_mem hs rfl
    · exact hs

theorem State.unpark_inv {h : BitVec 24} (hs : s.Inv) : (s.unpark h).Inv := by
  unfold State.unpark
  split
  · exact hs
  · exact ite_inv (inv_of_mem hs rfl) (ite_inv hs (requeue_inv hs))

theorem State.holdFor_inv {n : Nat} {h : BitVec 24} {gaddr : W64} {code : BitVec 8} (hs : s.Inv) :
    (s.holdFor n h gaddr code).Inv := by
  unfold State.holdFor
  exact unpark_inv (modSeq_inv (dropCmds_inv hs))

theorem State.holdError_inv {n : Nat} {m : MatCmd} {code : BitVec 8} (hs : s.Inv) : (s.holdError n m code).Inv :=
  holdFor_inv (inv_of_mem hs rfl)

/-! ### Issue (R188 to R195) -/

theorem State.mx_inv {m : Mask} {go : State → State} (hs : s.Inv) (hg : ∀ t, t.Inv → (go t).Inv) : (s.mx m go).Inv :=
  eslot_inv hs (fun _ ht => ite_inv (raise_inv _ _ ht) (hg _ ht))

theorem State.mxTile_inv {m : Mask} {t : BitVec 3} {go : Nat → State → State} (hs : s.Inv)
    (hg : ∀ a t, t.Inv → (go a t).Inv) : (s.mxTile m t go).Inv := by
  unfold State.mxTile
  refine mx_inv hs (fun _ ht => ?_)
  split
  · exact raise_inv _ _ ht
  · exact hg _ _ ht

theorem State.mxAccept_inv {op : MatOp} (hs : s.Inv) : (s.mxAccept op).Inv :=
  ite_inv (stall_inv _ hs) (refreshBusy_inv (inv_of_mem hs rfl))

theorem State.registerCall_inv {n : Nat} (hs : s.Inv) : (s.registerCall n).Inv := by
  unfold State.registerCall
  split
  · exact hs
  · exact ite_inv hs (inv_of_mem hs rfl)

theorem execMcall_keeps {r : BitVec 8} : Keeps s (execMcall r s) := by
  unfold execMcall
  refine .next fun hs => ?_
  refine mx_inv hs (fun _ ht => ?_)
  refine ite_inv (raise_inv _ _ ht) ?_
  refine ite_inv (raise_inv _ _ ht) ?_
  dsimp only
  split
  · refine registerCall_inv ?_
    dsimp only [State.Inv]
    exact mxAccept_inv ht
  · exact mxAccept_inv ht

theorem execMzero_keeps {k : BitVec 1} {t : BitVec 3} {a : BitVec 5} : Keeps s (execMzero k t a s) := by
  unfold execMzero
  refine .next fun hs => ?_
  refine mxTile_inv hs (fun _ _ ht => ?_)
  refine ite_inv (mxAccept_inv ht) ?_
  exact ite_inv (raise_inv _ _ ht) (mxAccept_inv ht)

theorem execManch_keeps {t : BitVec 3} {a : BitVec 5} : Keeps s (execManch t a s) := by
  unfold execManch
  refine .next fun hs => ?_
  refine mxTile_inv hs (fun _ _ ht => ?_)
  refine ite_inv (stall_inv _ ht) ?_
  refine ite_inv (raise_inv _ _ ht) ?_
  exact ite_inv (raise_inv _ _ ht) (mxAccept_inv ht)

theorem State.moveTile_inv {store : Bool} {t : BitVec 3} {p : Nat} {a b : BitVec 5} (hs : s.Inv) :
    (s.moveTile store t p a b).Inv := by
  unfold State.moveTile
  refine ite_inv (raise_inv _ _ hs) ?_
  refine ite_inv (raise_inv _ _ hs) ?_
  refine ite_inv (raise_inv _ _ hs) ?_
  split
  · exact raise_inv _ _ hs
  · refine ite_inv (raise_inv _ _ hs) ?_
    split
    · exact raise_inv _ _ hs
    · refine ite_inv (stall_inv _ hs) ?_
      exact ite_inv (raise_inv _ _ hs) (mxAccept_inv hs)

theorem execMrload_keeps {r : BitVec 8} {a b : BitVec 5} : Keeps s (execMrload r a b s) := by
  unfold execMrload
  refine .next fun hs => ?_
  refine mx_inv hs (fun _ ht => ?_)
  refine ite_inv (raise_inv _ _ ht) ?_
  refine ite_inv (raise_inv _ _ ht) ?_
  exact ite_inv (raise_inv _ _ ht) (checked_inv _ _ ht (fun _ => mxAccept_inv ht))

theorem execMstat_keeps {t : BitVec 3} {a b : BitVec 5} : Keeps s (execMstat t a b s) :=
  .next fun hs => mxTile_inv hs (fun _ _ ht => ite_inv (stall_inv _ ht) (wg_inv (wg_inv ht)))

/-! ### The turn of a queued command (R188, R192 to R194) -/

theorem State.modHead_inv {n : Nat} {f : MatCmd → MatCmd} (hs : s.Inv) : (s.modHead n f).Inv := inv_of_mem hs rfl

theorem State.loadRow_inv {n : Nat} {m : MatCmd} {q : Seqr} {tile first : Nat} {addr : W64} {next : MatOp}
    (hs : s.Inv) : (s.loadRow n m q tile first addr next).Inv := by
  unfold State.loadRow
  split
  · exact holdError_inv hs
  · refine ite_inv hs ?_
    refine ite_inv (holdError_inv hs) ?_
    exact modHead_inv (modTile_inv (noteAll_inv hs))

theorem State.storeRow_inv {n : Nat} {m : MatCmd} {q : Seqr} {tile first : Nat} {addr sync : W64} {next : MatOp}
    (hs : s.Inv) : (s.storeRow n m q tile first addr sync next).Inv := by
  unfold State.storeRow
  refine ite_inv (holdError_inv hs) ?_
  split
  · exact holdError_inv hs
  · refine modHead_inv ?_
    dsimp only [State.Inv]
    exact touchAll_inv hs

theorem State.loadRoutine_inv {core : Nat} {m : MatCmd} {q : Seqr} {n c o : Nat} {addr : W64} (hs : s.Inv) :
    (s.loadRoutine core m q n c o addr).Inv := by
  unfold State.loadRoutine
  split
  · exact hs
  · exact holdError_inv hs
  · exact modHead_inv (modCore_inv (noteAll_inv hs))

theorem execMatrixCommandTurn_keeps {n : Nat} : Keeps s (execMatrixCommandTurn n s) := by
  unfold execMatrixCommandTurn
  refine .next fun hs => ?_
  split
  · exact hs
  · split
    · exact hs
    · split
      · exact inv_of_mem hs rfl
      · exact ite_inv hs (inv_of_mem hs rfl)
      · exact ite_inv hs (ite_inv (holdError_inv hs) (inv_of_mem hs rfl))
      · exact ite_inv hs (loadRow_inv hs)
      · exact ite_inv hs (storeRow_inv hs)
      · exact ite_inv hs (loadRoutine_inv hs)

theorem execMatrixCommandComplete_keeps {n : Nat} : Keeps s (execMatrixCommandComplete n s) := by
  unfold execMatrixCommandComplete
  refine .next fun hs => ?_
  split
  · exact hs
  · exact ite_inv (popCmd_inv hs) hs

/-! ### Routines (R190, R191, R265, R280, R281) -/

theorem execRoutineStart_keeps {n : Nat} : Keeps s (execRoutineStart n s) := by
  unfold execRoutineStart
  refine .next fun hs => ?_
  split
  · exact hs
  · split
    · exact ite_inv hs (ite_inv (holdError_inv hs) (modHead_inv (modCore_inv hs)))
    · exact hs

theorem State.stopRoutine_inv {n : Nat} {code : BitVec 8} (hs : s.Inv) : (s.stopRoutine n code).Inv :=
  modRoutine_inv hs

theorem State.landRow_inv {n : Nat} {p : PassRow} (hs : s.Inv) : (s.landRow n p).Inv := by
  unfold State.landRow
  dsimp only
  generalize List.foldl _ _ (List.range 128) = row
  refine ite_inv ?_ ?_
  · exact stopRoutine_inv (modRoutine_inv (modTile_inv hs))
  · exact modRoutine_inv (modTile_inv hs)

theorem execContributionLand_keeps {n : Nat} : Keeps s (execContributionLand n s) := by
  unfold execContributionLand
  refine .next fun hs => ?_
  split
  · exact hs
  · split
    · exact hs
    · exact landRow_inv (inv_of_mem hs rfl)

theorem execRoutineComplete_keeps {n : Nat} : Keeps s (execRoutineComplete n s) := by
  unfold execRoutineComplete
  refine .next fun hs => ?_
  split
  · refine ite_inv hs ?_
    split
    · exact ite_inv (popCmd_inv hs) (holdError_inv hs)
    · exact ite_inv hs (modSeq_inv (popCmd_inv hs))
  · exact hs

theorem execRoutineLimit_keeps {n : Nat} : Keeps s (execRoutineLimit n s) := by
  unfold execRoutineLimit
  refine .next fun hs => ?_
  split
  · exact hs
  · exact ite_inv hs (stopRoutine_inv hs)

theorem State.cutRow_inv {n : Nat} (hs : s.Inv) : (s.cutRow n).Inv := by
  unfold State.cutRow
  split
  · exact hs
  · exact inv_of_mem hs rfl

theorem State.stopJobMatrix_inv {job : BitVec 16} (hs : s.Inv) : (s.stopJobMatrix job).Inv := by
  unfold State.stopJobMatrix
  refine foldl_inv hs (fun _ _ ht => ?_)
  dsimp only
  split
  · split
    · exact ite_inv (stopRoutine_inv (cutRow_inv ht)) ht
    · exact ht
  · refine dropCmds_inv ?_
    split
    · exact ite_inv (stopRoutine_inv (cutRow_inv ht)) ht
    · exact ht

/-! ### Landings (R193, R278) -/

theorem State.modPortOf_inv {h : BitVec 24} {p : Nat} {f : FeedPort → FeedPort} (hs : s.Inv) :
    (s.modPortOf h p f).Inv :=
  inv_of_mem hs rfl

theorem State.failEngine_inv {l : Landing} {e : BitVec 8 × W64} (hs : s.Inv) : (s.failEngine l e).Inv := by
  unfold State.failEngine
  split
  · exact inv_of_mem hs rfl
  · split
    · exact holdFor_inv hs
    · refine ite_inv (holdFor_inv hs) ?_
      split
      · exact stopRoutine_inv hs
      · exact holdError_inv hs

theorem State.sendFar_inv {ps : List LandPiece} (hs : s.Inv) : (s.sendFar ps).Inv :=
  foldl_inv hs (fun _ _ ht => inv_of_mem ht rfl)

theorem State.landPieces_inv {w : Who} {done : List Nat} {homes : List (Home × LandPiece)} (hs : s.Inv) :
    (s.landPieces w done homes).Inv :=
  foldl_inv hs (fun _ _ ht => writeHome_inv (countRemote_inv (touchVia_inv ht)))

theorem execCopyTrafficLand_keeps {k : Nat} : Keeps s (execCopyTrafficLand k s) := by
  unfold execCopyTrafficLand
  refine .next fun hs => ?_
  split
  · exact hs
  · next l _ =>
    have hfed {t : State} {f : FeedPort → FeedPort} (ht : t.Inv) :
        State.Inv (match l.port with | some p => t.modPortOf l.handle p f | none => t) := by
      split
      · exact modPortOf_inv ht
      · exact ht
    dsimp only
    refine ite_inv ?_ ?_
    · split
      · exact failEngine_inv (inv_of_mem hs rfl)
      · dsimp only [State.Inv]
        exact sendFar_inv (touchAll_inv hs)
    · split
      · exact failEngine_inv (inv_of_mem hs rfl)
      · refine ite_inv hs ?_
        have hl : State.Inv { s with landings := s.landings.filter (fun x => x.num ≠ k) } := inv_of_mem hs rfl
        have hp {w : Who} {done : List Nat} {homes : List (Home × LandPiece)} {far : List LandPiece} := hfed
          (f := FeedPort.written)
          (foldl_inv (l := far) (landPieces_inv (w := w) (done := done) (homes := homes) hl)
            (fun t p ht => emit_inv (p := .copyUnit p.pkg none p.via p.exp [] [p.addr]) ht))
        split
        · next t e => exact hfed (inv_of_ok e (engSync_inv hp))
        · exact failEngine_inv hp

end Sys2Proof.Machine
end

section
/-! PROOFS. Memory stays canonical: copy channels while they run, and the walks of feed ports. -/

namespace Sys2Proof.Machine

open State

variable {s : State}

/-! ### The ports of the compute dies (R302, R312) -/

theorem State.toDie_inv {d : Nat} {vc : BitVec 3} {n : Nat} (hs : s.Inv) : (s.toDie d vc n).Inv :=
  drawFree_inv (foldl_inv hs (fun _ _ ht => inv_of_mem ht rfl))

theorem State.viaDie_inv {d : Nat} {vc : BitVec 3} {n : Nat} {go : State → State} (hs : s.Inv)
    (hg : ∀ t, t.Inv → (go t).Inv) : (s.viaDie d vc n go).Inv :=
  ite_inv (hg _ hs) (ite_inv (toDie_inv (hg _ hs)) hs)

/-! ### Channels -/

theorem State.chanStop_inv {die ch : Nat} {f : BitVec 3 × BitVec 3 × W64 × BitVec 8} (hs : s.Inv) :
    (s.chanStop die ch f).Inv :=
  inv_of_mem hs rfl

theorem State.footChannel_inv {die ch : Nat} (hs : s.Inv) : (s.footChannel die ch).Inv := by
  unfold State.footChannel
  refine ite_inv hs (ite_inv (modChan_inv hs) ?_)
  have ht {c : Prop} [Decidable c] {who : EngineJob} {job : BitVec 16} {foot : Nat} :
      (if c then s else s.footRegister die who job foot).Inv := ite_inv hs (footRegister_inv hs)
  dsimp only
  split
  · exact ite_inv (modChan_inv ht) (modChan_inv ht)
  · exact modChan_inv ht

theorem State.takeRecord_inv {die ch : Nat} {va : W64} {snap : XRec} (hs : s.Inv) :
    (s.takeRecord die ch va snap).Inv :=
  ite_inv (inv_of_mem hs rfl) (footChannel_inv (inv_of_mem hs rfl))

theorem execRecordClaim_keeps {die ch : Nat} : Keeps s (execRecordClaim die ch s) := by
  unfold execRecordClaim
  refine .next fun hs => ?_
  refine ite_inv hs ?_
  dsimp only
  split
  · exact inv_of_mem hs rfl
  · refine ite_inv ?_ ?_
    · split
      · exact chanStop_inv (note_inv hs)
      · refine ite_inv (chanStop_inv (note_inv hs)) ?_
        exact takeRecord_inv (emit_inv (note_inv hs))
    · split
      · exact chanStop_inv (note_inv hs)
      · refine ite_inv (chanStop_inv (note_inv hs)) ?_
        refine ite_inv (note_inv hs) ?_
        split
        · exact chanStop_inv (note_inv hs)
        · refine ite_inv (chanStop_inv (note_inv hs)) ?_
          exact takeRecord_inv (writeBytes_inv _ (note_inv hs))

theorem execFootprintRegister_keeps {die : Nat} {job : EngineJob} : Keeps s (execFootprintRegister die job s) := by
  unfold execFootprintRegister
  refine .next fun hs => ?_
  split
  · exact footChannel_inv hs
  · exact ite_inv (registerCall_inv hs) hs

theorem State.landUnit_inv {die ch u : Nat} {c : Channel} {x : XUnit} {bs : List Byte} (hs : s.Inv) :
    (s.landUnit die ch u c x bs).Inv := by
  unfold State.landUnit
  dsimp only
  split
  · exact chanStop_inv hs
  · have hn := @note_inv s (s.chanWho die c) .store x.dst hs
    refine ite_inv (modChan_inv (emit_inv hn)) (ite_inv (modChan_inv hn) ?_)
    split
    · exact chanStop_inv hn
    · refine ite_inv hn ?_
      split
      · next t e =>
        have ht := inv_of_done e (applyHomes_inv hn)
        exact modChan_inv (ite_inv (unitApplied_inv ht) ht)
      · exact hn
      · exact ite_inv (parkWork_inv hn) (chanStop_inv hn)

theorem State.reach_inv {die ch u n : Nat} (hs : s.Inv) : (s.reach die ch u n).1.Inv := by
  induction n generalizing s with
  | zero => exact hs
  | succ n ih =>
    unfold State.reach
    dsimp only
    split
    · exact hs
    · split
      · exact ih (modChan_inv (noteAll_inv hs))
      · exact hs

theorem State.markLineOf_inv {die ch : Nat} {dst : W64} (hs : s.Inv) : (s.markLineOf die ch dst).Inv := by
  unfold State.markLineOf
  refine ite_inv hs ?_
  dsimp only
  split
  · exact inv_of_mem hs rfl
  · refine ite_inv (inv_of_mem hs rfl) ?_
    split
    · exact modChan_inv (writeHome_inv hs)
    · exact inv_of_mem hs rfl

theorem State.markLines_inv {die ch : Nat} (hs : s.Inv) : (s.markLines die ch).Inv :=
  ite_inv (foldl_inv hs (fun _ _ ht => markLineOf_inv ht)) hs

theorem execUnitArrive_keeps {die ch u : Nat} : Keeps s (execUnitArrive die ch u s) := by
  unfold execUnitArrive
  refine .next fun hs => ?_
  refine ite_inv hs ?_
  dsimp only
  split
  · exact chanStop_inv (ite_inv (reach_inv hs) (markLines_inv (reach_inv hs)))
  · exact ite_inv (reach_inv hs) (markLines_inv (reach_inv hs))
  · refine ite_inv (ite_inv (reach_inv hs) (markLines_inv (reach_inv hs))) ?_
    split
    · exact ite_inv (reach_inv hs) (markLines_inv (reach_inv hs))
    · exact chanStop_inv (ite_inv (reach_inv hs) (markLines_inv (reach_inv hs)))
    · exact landUnit_inv (noteAll_inv (ite_inv (reach_inv hs) (markLines_inv (reach_inv hs))))

theorem State.ackUnit_inv {die ch u : Nat} (hs : s.Inv) : (s.ackUnit die ch u).Inv := by
  unfold State.ackUnit
  refine ite_inv hs ?_
  split
  · exact hs
  · dsimp only
    split
    · exact inv_of_mem hs rfl
    · split
      · exact inv_of_mem hs rfl
      · next t e =>
        have ht := inv_of_ok e (engSync_inv hs)
        exact modChan_inv (markLineOf_inv (inv_of_mem ht rfl))

theorem execUnitAck_keeps {die ch u : Nat} : Keeps s (execUnitAck die ch u s) :=
  .next fun hs => ite_inv (viaDie_inv hs (fun _ ht => ackUnit_inv ht)) (ackUnit_inv hs)

theorem State.writeReturn_inv {die ch : Nat} {status : BitVec 5} (hs : s.Inv) :
    OkInv (s.writeReturn die ch status) := by
  unfold State.writeReturn
  dsimp only
  split
  · exact .error
  · split
    · exact .ok (emit_inv (touch_inv hs))
    · split
      · exact .error
      · exact .ok (writeHome_inv (note_inv hs))

theorem State.dropClaim_inv {die ch : Nat} {status : BitVec 5} {counted : Bool} {next : W64} (hs : s.Inv) :
    (s.dropClaim die ch status counted next).Inv :=
  inv_of_mem hs rfl

theorem execRecordReturn_keeps {die ch : Nat} : Keeps s (execRecordReturn die ch s) := by
  unfold execRecordReturn
  refine .next fun hs => ?_
  refine ite_inv hs ?_
  split
  · exact inv_of_mem hs rfl
  · next t e =>
    have ht := inv_of_ok e (writeReturn_inv hs)
    exact inv_of_mem ht rfl

theorem execChannelFault_keeps {die ch : Nat} : Keeps s (execChannelFault die ch s) := by
  unfold execChannelFault
  refine .next fun hs => ?_
  dsimp only
  split
  · exact hs
  · exact ite_inv hs (post_inv _ _ (inv_of_mem hs rfl))

theorem State.withdrawFault_inv {die ch : Nat} (hs : s.Inv) : (s.withdrawFault die ch).Inv := inv_of_mem hs rfl

theorem State.killChannel_inv {die ch : Nat} (hs : s.Inv) : (s.killChannel die ch).Inv := by
  have hw : (if (s.chan die ch).state = 3 then s.withdrawFault die ch else s).Inv :=
    ite_inv (withdrawFault_inv hs) hs
  unfold State.killChannel
  refine modChan_inv (dropClaim_inv (ite_inv ?_ hw))
  split
  · next t e => exact inv_of_ok e (writeReturn_inv hw)
  · exact hw

theorem execKillComplete_keeps {die ch : Nat} : Keeps s (execKillComplete die ch s) :=
  .next fun hs => ite_inv (killChannel_inv hs) hs

theorem State.refuse_inv (hs : s.Inv) : s.refuse.Inv := inv_of_mem hs rfl

theorem State.resumeChannel_inv {die ch : Nat} (hs : s.Inv) : (s.resumeChannel die ch).Inv := by
  unfold State.resumeChannel
  refine ite_inv (chanStop_inv (ite_inv (markLines_inv (inv_of_mem hs rfl)) (inv_of_mem hs rfl))) ?_
  refine ite_inv (footChannel_inv (ite_inv (markLines_inv (inv_of_mem hs rfl)) (inv_of_mem hs rfl))) ?_
  exact ite_inv (markLines_inv (inv_of_mem hs rfl)) (inv_of_mem hs rfl)

theorem execChannelResume_keeps {die ch : Nat} : Keeps s (execChannelResume die ch s) :=
  .next fun hs => ite_inv (resumeChannel_inv hs) (inv_of_mem hs rfl)

theorem execChannelDrop_keeps {die ch : Nat} : Keeps s (execChannelDrop die ch s) := by
  unfold execChannelDrop
  refine .next fun hs => ?_
  refine ite_inv (inv_of_mem hs rfl) ?_
  refine ite_inv ?_ (inv_of_mem hs rfl)
  split
  · next t e =>
    have ht := inv_of_ok e (writeReturn_inv hs)
    exact inv_of_mem ht rfl
  · exact inv_of_mem hs rfl

theorem execChannelKill_keeps {die ch : Nat} : Keeps s (execChannelKill die ch s) :=
  .next fun hs => ite_inv (killChannel_inv hs) (inv_of_mem hs rfl)

/-! ### Feed ports (R23, R141, R291 to R294) -/

theorem execFeedFill_keeps {h : BitVec 24} {port : BitVec 3} : Keeps s (execFeedFill h port s) := by
  unfold execFeedFill
  refine .next fun hs => ?_
  split
  · exact hs
  · dsimp only
    split
    · exact hs
    · refine ite_inv hs ?_
      split
      · exact hs
      · exact inv_of_mem hs rfl
      · exact modPortOf_inv (noteAll_inv hs)

theorem State.writeChunks_inv {w : Who} {done : W64 → Bool} {ps : List (W64 × Nat × Xlat)} {bs : List Byte}
    (hs : s.Inv) : (s.writeChunks w done ps bs).Inv := by
  induction ps generalizing s bs with
  | nil => exact hs
  | cons p ps ih =>
    unfold State.writeChunks
    refine ih ?_
    split
    · next t e => exact inv_of_ok e (writePiece_inv hs)
    · exact hs

theorem State.sendEntry_inv {q : Seqr} {p : Nat} {w : Walk} {ps : List LandPiece} (hs : s.Inv) :
    (s.sendEntry q p w ps).Inv :=
  sendFar_inv (inv_of_mem hs rfl)

theorem execFeedDrainWrite_keeps {h : BitVec 24} {port : BitVec 3} : Keeps s (execFeedDrainWrite h port s) := by
  unfold execFeedDrainWrite
  refine .next fun hs => ?_
  split
  · exact hs
  · dsimp only
    split
    · refine ite_inv hs ?_
      split
      · exact inv_of_mem hs rfl
      · refine ite_inv hs ?_
        refine ite_inv (sendEntry_inv (noteAll_inv hs)) ?_
        split
        · next t e =>
          have ht := inv_of_ok e (engSync_inv (modPortOf_inv (writeChunks_inv (noteAll_inv hs))))
          exact inv_of_mem ht rfl
        · exact modPortOf_inv (modPortOf_inv (writeChunks_inv (noteAll_inv hs)))
    · exact hs

end Sys2Proof.Machine
end

section
/-! PROOFS. Memory stays canonical: the collective engine and the lift table. -/

namespace Sys2Proof.Machine

open State

variable {s : State}

/-! ### Channels (Tables 8.6 and 12.3) -/

theorem State.giveCredit_inv {ch n : Nat} (hs : s.Inv) : (s.giveCredit ch n).Inv :=
  ite_inv (inv_of_mem hs rfl) (inv_of_mem hs rfl)

theorem State.withColl_inv {a : BitVec 5} {go : Nat → Coll → State → State} (hs : s.Inv)
    (hg : ∀ a b t, t.Inv → (go a b t).Inv) : (s.withColl a go).Inv :=
  eslot_inv hs (fun _ ht => ite_inv (raise_inv _ _ ht) (hg _ _ _ ht))

theorem execCset_keeps {a : BitVec 5} : Keeps s (execCset a s) := by
  unfold execCset
  refine .next fun hs => ?_
  refine withColl_inv hs (fun _ _ _ ht => ?_)
  refine ite_inv (raise_inv _ _ ht) ?_
  exact ite_inv (giveCredit_inv (inv_of_mem ht rfl)) (inv_of_mem ht rfl)

theorem State.collSend_inv {a : BitVec 5} {bcast reduce : Bool} (hs : s.Inv) : (s.collSend a bcast reduce).Inv := by
  unfold State.collSend
  refine withColl_inv hs (fun _ _ _ ht => ?_)
  refine ite_inv (raise_inv _ _ ht) ?_
  exact ite_inv (stall_inv _ ht) (inv_of_mem ht rfl)

theorem execCrecv_keeps {a : BitVec 5} : Keeps s (execCrecv a s) :=
  .next fun hs => withColl_inv hs (fun _ _ _ ht => ite_inv (raise_inv _ _ ht) (giveCredit_inv (inv_of_mem ht rfl)))

/-! ### The lift table (R213 to R215, R299) -/

theorem State.fire_inv {e : Nat} (hs : s.Inv) : (s.fire e).Inv := by
  unfold State.fire
  refine ite_inv (inv_of_mem hs rfl) ?_
  refine ite_inv (inv_of_mem hs rfl) ?_
  exact ite_inv (inv_of_mem hs rfl) (inv_of_mem hs rfl)

theorem State.fireAll_inv {n : Nat} (hs : s.Inv) : (s.fireAll n).Inv := by
  induction n generalizing s with
  | zero => exact hs
  | succ n ih =>
    unfold State.fireAll
    split
    · exact hs
    · exact ih (fire_inv hs)

theorem State.bump_inv {c : Nat} {v : W32} (hs : s.Inv) : (s.bump c v).Inv := fireAll_inv (inv_of_mem hs rfl)

theorem execLiftarm_keeps {a b : BitVec 5} : Keeps s (execLiftarm a b s) := by
  unfold execLiftarm
  refine .next fun hs => ?_
  refine eslot_inv hs (fun _ ht => ?_)
  refine ite_inv (raise_inv _ _ ht) ?_
  exact ite_inv (raise_inv _ _ ht) (fireAll_inv (inv_of_mem ht rfl))

theorem execLiftdisarm_keeps {a b : BitVec 5} : Keeps s (execLiftdisarm a b s) :=
  .next fun hs => eslot_inv hs (fun _ ht => ite_inv (raise_inv _ _ ht) (wg_inv (ite_inv (inv_of_mem ht rfl) ht)))

theorem execCtrig_keeps {a b : BitVec 5} : Keeps s (execCtrig a b s) := by
  unfold execCtrig
  refine .next fun hs => ?_
  refine eslot_inv hs (fun _ ht => ?_)
  refine ite_inv (raise_inv _ _ ht) ?_
  exact ite_inv (inv_of_mem ht rfl) (bump_inv ht)

theorem execCountWrite_keeps {entry : Nat} {v : W32} : Keeps s (execCountWrite entry v s) :=
  .next fun hs => ite_inv (inv_of_mem hs rfl) (inv_of_mem hs rfl)

theorem State.refillColl_inv {ch : Nat} (hs : s.Inv) : (s.refillColl ch).Inv := by
  unfold State.refillColl
  dsimp only
  split
  · exact hs
  · exact ite_inv hs (inv_of_mem hs rfl)

/-! ### Messages (R212, R296 to R298, R396) -/

theorem State.collFault_inv {ch : Nat} {code : BitVec 8} {va : W64} (hs : s.Inv) : (s.collFault ch code va).Inv :=
  post_inv _ _ (inv_of_mem hs rfl)

theorem execMessageSend_keeps {ch : Nat} : Keeps s (execMessageSend ch s) := by
  unfold execMessageSend
  refine .next fun hs => ?_
  dsimp only
  split
  · exact hs
  · refine ite_inv hs ?_
    split
    · exact collFault_inv hs
    · refine ite_inv ?_ ?_
      · refine ite_inv ?_ ?_
        · refine emit_inv ?_
          dsimp only [State.Inv]
          exact refillColl_inv (modColl_inv (noteAll_inv hs))
        · refine later_inv ?_
          dsimp only [State.Inv]
          exact refillColl_inv (modColl_inv (noteAll_inv hs))
      · refine ite_inv (later_inv (refillColl_inv (modColl_inv (noteAll_inv hs)))) ?_
        exact emit_inv (refillColl_inv (modColl_inv (noteAll_inv hs)))

theorem State.collWrite_inv {w : Who} {va : W64} {bs : List Byte} (hs : s.Inv) : OkInv (s.collWrite w va bs) :=
  masterWrite_inv hs

theorem State.deliver_inv {m : Message} (hs : s.Inv) : (s.deliver m).Inv := by
  unfold State.deliver
  extract_lets ch mine s' c drop hold w va old
  have hm : s'.Inv := ite_inv (modColl_inv hs) hs
  clear_value s' old
  split
  · exact .discarded (ite_inv (modColl_inv hm) hm)
  · split
    · exact .discarded (ite_inv (modColl_inv hm) hm)
    · split
      · exact .discarded (ite_inv (modColl_inv hm) hm)
      · split
        · exact .again hm
        · split
          · exact .held (modColl_inv hm)
          · split
            · exact .held (modColl_inv (collFault_inv hm))
            · split
              · exact .held (modColl_inv (collFault_inv hm))
              · split
                · exact .held (modColl_inv (collFault_inv hm))
                · next t e =>
                  have ht := inv_of_ok e (collWrite_inv hm)
                  have hu : State.Inv (match t.engSync w c.sync c.size with | .ok u => u | .error _ => t) := by
                    split
                    · next u e' => exact inv_of_ok e' (engSync_inv ht)
                    · exact ht
                  exact .landed (ite_inv (bump_inv (modColl_inv hu)) (modColl_inv hu))

theorem State.ackMessage_inv {m : Message} {disc : BitVec 2} (hs : s.Inv) : (s.ackMessage m disc).Inv :=
  ite_inv (inv_of_mem hs rfl) (inv_of_mem hs rfl)

theorem State.treeLanded_inv {m : Message} (hs : s.Inv) : (s.treeLanded m).Inv := by
  unfold State.treeLanded
  refine foldl_inv hs (fun _ _ ht => ?_)
  split
  · exact inv_of_mem ht rfl
  · exact ht

theorem State.returnCredit_inv {m : Message} (hs : s.Inv) : (s.returnCredit m).Inv :=
  ite_inv (inv_of_mem hs rfl) (inv_of_mem hs rfl)

theorem State.landOne_inv {m : Message} (hs : s.Inv) : (s.landOne m).Inv := by
  have hd := deliver_inv (m := m) hs
  unfold State.landOne
  generalize s.deliver m = x at hd ⊢
  cases hd with
  | landed ht => exact ite_inv (treeLanded_inv ht) (ackMessage_inv ht)
  | again ht => exact ite_inv (treeLanded_inv ht) (ackMessage_inv ht)
  | held ht => exact ht
  | discarded ht => exact ackMessage_inv (returnCredit_inv (ite_inv (treeLanded_inv ht) ht))

theorem State.landNextOf_inv {ch n : Nat} (hs : s.Inv) : (s.landNextOf ch n).Inv := by
  induction n generalizing s with
  | zero => exact hs
  | succ n ih =>
    unfold State.landNextOf
    dsimp only
    split
    · exact hs
    · split
      · exact hs
      · exact ih (landOne_inv (modColl_inv hs))

theorem State.landMessage_inv {m : Message} (hs : s.Inv) : (s.landMessage m).Inv := landNextOf_inv (landOne_inv hs)

theorem State.countAcked_inv {ch n : Nat} (hs : s.Inv) : (s.countAcked ch n).Inv := by
  unfold State.countAcked
  refine ite_inv hs ?_
  refine ite_inv (inv_of_mem hs rfl) ?_
  split
  · next t e => exact inv_of_ok e (engSync_inv hs)
  · exact modColl_inv (collFault_inv hs)

theorem execMessageAck_keeps {ch : Nat} {mseq : W32} {disc : BitVec 2} : Keeps s (execMessageAck ch mseq disc s) := by
  unfold execMessageAck
  refine .next fun hs => ?_
  refine ite_inv hs ?_
  exact ite_inv (countAcked_inv (inv_of_mem hs rfl)) (inv_of_mem hs rfl)

theorem State.thawColl_inv {ch : Nat} (hs : s.Inv) : (s.thawColl ch).Inv :=
  foldl_inv (countAcked_inv (inv_of_mem hs rfl)) (fun _ _ ht => landMessage_inv ht)

end Sys2Proof.Machine
end

section
/-! PROOFS. Memory stays canonical: reduction sessions. -/

namespace Sys2Proof.Machine

open State

variable {s : State}

/-! ### Session packets at a port (R316, R320) -/

theorem State.sendSession_inv {n port : Nat} {p : Packet} (hs : s.Inv) : (s.sendSession n port p).Inv :=
  ite_inv (inv_of_mem hs rfl) (inv_of_mem hs rfl)

theorem State.dropSessions_inv {port : Nat} {n : Option Nat} (hs : s.Inv) : (s.dropSessions port n).Inv :=
  foldl_inv (ite_inv (inv_of_mem hs rfl) hs) (fun _ _ ht => inv_of_mem ht rfl)

/-! ### Rounds -/

theorem State.discardHeld_inv {x : HeldWrite} (hs : s.Inv) : (s.discardHeld x).Inv := by
  unfold State.discardHeld
  split
  · exact discardRequest_inv hs
  · exact inv_of_mem hs rfl
  · exact hs

theorem State.applyStore_inv {x : HeldWrite} (hs : s.Inv) : (s.applyStore x).Inv := by
  unfold State.applyStore
  split
  · exact landHeld_inv hs
  · exact inv_of_mem hs rfl
  · exact hs

theorem State.freeSession_inv {n : Nat} (hs : s.Inv) : (s.freeSession n).Inv :=
  foldl_inv (inv_of_mem hs rfl) (fun _ _ ht => discardHeld_inv ht)

theorem State.roundEnd_inv {n : Nat} (hs : s.Inv) : (s.roundEnd n).Inv := by
  unfold State.roundEnd
  extract_lets x ended sent stored
  have hsent : sent.Inv := foldl_inv (modSession_inv hs) (fun _ _ ht => sendSession_inv ht)
  have hstored : stored.Inv := foldl_inv hsent (fun _ _ ht => applyStore_inv ht)
  exact ite_inv (freeSession_inv hstored) hstored

theorem State.closeSlots_inv {n : Nat} (hs : s.Inv) : (s.closeSlots n).Inv :=
  foldl_inv (inv_of_mem hs rfl) (fun _ _ ht => sendSession_inv ht)

theorem State.sendCopy_inv {n : Nat} {x : Session} {offset : W64} {data : List Byte} {count : Nat} (hs : s.Inv) :
    (s.sendCopy n x offset data count).Inv :=
  ite_inv (inv_of_mem hs rfl) (inv_of_mem hs rfl)

theorem State.emitEnd_inv {n : Nat} (hs : s.Inv) : (s.emitEnd n).Inv := by
  unfold State.emitEnd
  refine ite_inv (roundEnd_inv hs) ?_
  exact ite_inv (freeSession_inv hs) (closeSlots_inv (inv_of_mem hs rfl))

theorem State.emitWrite_inv {n : Nat} {x : Session} {va : W64} {bs : List Byte} {go : State → State} (hs : s.Inv)
    (hg : ∀ t, t.Inv → (go t).Inv) : (s.emitWrite n x va bs go).Inv := by
  unfold State.emitWrite
  refine ite_inv hs ?_
  split
  · next t e => exact hg _ (inv_of_ok e (masterWrite_inv hs))
  · exact parkPiazza_inv hs

theorem State.emitSync_inv {n : Nat} {x : Session} {bytes : Nat} {go : State → State} (hs : s.Inv)
    (hg : ∀ t, t.Inv → (go t).Inv) : (s.emitSync n x bytes go).Inv := by
  unfold State.emitSync
  split
  · next t e => exact hg _ (inv_of_ok e (engSync_inv hs))
  · exact parkPiazza_inv hs

theorem State.emitRun_inv {n fuel : Nat} (hs : s.Inv) : (s.emitRun n fuel).Inv := by
  induction fuel generalizing s with
  | zero => exact hs
  | succ fuel ih =>
    have next : ∀ t : State, t.Inv →
        ((t.modSession n (fun x => { x with emitStep := x.emitStep + 1 })).emitRun n fuel).Inv :=
      fun _ ht => ih (modSession_inv ht)
    unfold State.emitRun
    dsimp only
    split
    · exact ite_inv (sendCopy_inv hs) (emitWrite_inv hs next)
    · exact ite_inv (sendCopy_inv hs) (emitWrite_inv hs next)
    · exact ite_inv (next _ hs) (ite_inv (sendCopy_inv hs) (emitSync_inv hs next))
    · exact emitEnd_inv hs
    · exact hs

theorem State.emitGo_inv {n : Nat} (hs : s.Inv) : (s.emitGo n).Inv := emitRun_inv hs

theorem State.emitSkip_inv {n : Nat} (hs : s.Inv) : (s.emitSkip n).Inv := emitGo_inv (inv_of_mem hs rfl)

theorem State.emitAcked_inv {n : Nat} (hs : s.Inv) : (s.emitAcked n).Inv :=
  ite_inv (emitGo_inv (inv_of_mem hs rfl)) hs

theorem State.emitResult_inv {n kind : Nat} (hs : s.Inv) : (s.emitResult n kind).Inv := emitGo_inv (inv_of_mem hs rfl)

theorem State.checkRound_inv {n : Nat} (hs : s.Inv) : (s.checkRound n).Inv := by
  unfold State.checkRound
  refine ite_inv hs ?_
  refine ite_inv (ite_inv (emitResult_inv hs) (ite_inv (emitResult_inv hs) hs)) ?_
  refine ite_inv (ite_inv (emitResult_inv hs) (ite_inv (emitResult_inv hs) hs)) ?_
  exact hs

/-! ### Values on their way (R317, R320) -/

theorem State.forwardValue_inv {n : Nat} {v : SessionValue} (hs : s.Inv) : (s.forwardValue n v).Inv := by
  unfold State.forwardValue
  refine ite_inv (inv_of_mem hs rfl) ?_
  exact ite_inv (inv_of_mem hs rfl) (inv_of_mem hs rfl)

theorem State.forwardKept_inv {n : Nat} (hs : s.Inv) : (s.forwardKept n).Inv := by
  unfold State.forwardKept
  refine ite_inv hs ?_
  exact foldl_inv (foldl_inv (inv_of_mem hs rfl) (fun _ _ ht => inv_of_mem ht rfl)) (fun _ _ ht => inv_of_mem ht rfl)

theorem State.rootValue_inv {n : Nat} {v : SessionValue} (hs : s.Inv) : (s.rootValue n v).Inv :=
  ite_inv (inv_of_mem hs rfl) (checkRound_inv (inv_of_mem hs rfl))

theorem State.received_inv {p : SessionHead} {go : State → State} (hs : s.Inv) (hg : ∀ t, t.Inv → (go t).Inv) :
    (s.received p go).Inv :=
  ite_inv (inv_of_mem hs rfl) (ite_inv (inv_of_mem hs rfl) (hg _ hs))

theorem execSessionValue_keeps {n : Nat} {v : SessionValue} : Keeps s (execSessionValue n v s) := by
  unfold execSessionValue
  refine .next fun hs => ?_
  refine received_inv hs (fun _ ht => ?_)
  refine ite_inv (rootValue_inv (inv_of_mem ht rfl)) ?_
  exact forwardValue_inv (inv_of_mem ht rfl)

theorem execSessionForwardTimeout_keeps {n : Nat} : Keeps s (execSessionForwardTimeout n s) :=
  .next fun hs => foldl_inv (ite_inv hs (inv_of_mem hs rfl)) (fun _ _ ht => ite_inv ht (dropSessions_inv ht))

theorem execSessionTimeout_keeps {n : Nat} : Keeps s (execSessionTimeout n s) :=
  .next fun hs => ite_inv (emitResult_inv (modSession_inv hs)) hs

/-! ### Opening and closing (R318, R319) -/

theorem execSessionOpen_keeps {n : Nat} : Keeps s (execSessionOpen n s) :=
  .next fun hs => ite_inv (inv_of_mem hs rfl) (inv_of_mem hs rfl)

theorem execSessionClose_keeps {n : Nat} : Keeps s (execSessionClose n s) :=
  .next fun hs => ite_inv hs (ite_inv (inv_of_mem hs rfl) (freeSession_inv hs))

/-! ### Slots (R321, R322, R326, R327) -/

theorem execSlotStore_keeps {n k : Nat} {job : BitVec 16} {checkJob : Bool} {effects : List Effect} :
    Keeps s (execSlotStore n k job checkJob effects s) := by
  unfold execSlotStore
  refine .next fun hs => ?_
  dsimp only
  split
  · next t e => exact inv_of_done e (slotApply_inv hs)
  · exact modSession_inv hs
  · exact parkOutside_inv hs

theorem State.marker_inv {n leaf lvl : Nat} (hs : s.Inv) : (s.marker n leaf lvl).Inv := by
  unfold State.marker
  refine ite_inv (checkRound_inv (inv_of_mem hs rfl)) ?_
  refine ite_inv (inv_of_mem hs rfl) ?_
  exact ite_inv (inv_of_mem hs rfl) (inv_of_mem hs rfl)

theorem execWithdrawMarker_keeps {p : SessionHead} {leaf lvl : Nat} : Keeps s (execWithdrawMarker p leaf lvl s) :=
  .next fun hs => received_inv hs (fun _ ht => marker_inv ht)

theorem State.withdrawSlot_inv {n k : Nat} (hs : s.Inv) : (s.withdrawSlot n k).Inv := ite_inv hs (inv_of_mem hs rfl)

theorem execWithdraw_keeps {n k : Nat} : Keeps s (execWithdraw n k s) := .next fun hs => withdrawSlot_inv hs

theorem State.withdrawJob_inv {job : BitVec 16} (hs : s.Inv) : (s.withdrawJob job).Inv := by
  unfold State.withdrawJob
  refine foldl_inv hs (fun _ _ ht => ?_)
  refine ite_inv (foldl_inv ht (fun _ _ hu => ite_inv (withdrawSlot_inv hu) hu)) ?_
  exact ht

theorem execReopen_keeps {n k : Nat} : Keeps s (execReopen n k s) := .next fun hs => ite_inv hs (inv_of_mem hs rfl)

theorem State.openSlots_inv {n : Nat} (hs : s.Inv) : (s.openSlots n).Inv :=
  foldl_inv (inv_of_mem hs rfl) (fun _ _ ht => sendSession_inv ht)

theorem execRecontrib_keeps {p : SessionHead} : Keeps s (execRecontrib p s) := by
  unfold execRecontrib
  refine .next fun hs => ?_
  refine ite_inv (received_inv hs (fun _ ht => openSlots_inv ht)) ?_
  refine ite_inv (inv_of_mem hs rfl) ?_
  exact checkRound_inv (modSession_inv (openSlots_inv hs))

theorem execExclude_keeps {n : Nat} : Keeps s (execExclude n s) :=
  .next fun hs => ite_inv (inv_of_mem hs rfl) (roundEnd_inv hs)

end Sys2Proof.Machine
end

section
/-! PROOFS. Memory stays canonical: multicast trees. -/

namespace Sys2Proof.Machine

open State

variable {s : State}

theorem State.modFlight_inv {g id : Nat} {f : McFlight → McFlight} (hs : s.Inv) : (s.modFlight g id f).Inv :=
  inv_of_mem hs rfl

theorem State.parkBranch_inv {g : Nat} {f : McFlight} {br : Nat} {code : BitVec 8} {pa : W64} (hs : s.Inv) :
    (s.parkBranch g f br code pa).Inv := by
  unfold State.parkBranch
  refine ite_inv (ite_inv (parkWork_inv hs) (emit_inv (parkWork_inv hs))) ?_
  refine ite_inv ?_ (parkWork_inv hs)
  refine ite_inv (inv_of_mem hs rfl) ?_
  exact ite_inv (inv_of_mem hs rfl) (inv_of_mem hs rfl)

theorem State.landMember_inv {g : Nat} {f : McFlight} {d : Nat} (hs : s.Inv) : (s.landMember g f d).Inv := by
  unfold State.landMember
  extract_lets x p base a n held written marked
  have hw : written.Inv := ite_inv (syncAdd_inv _ _ hs) (countRemote_inv (writeBytes_inv _ hs))
  have hm : marked.Inv := ite_inv (foldl_inv hw (fun _ _ ht => feSet_inv ht)) hw
  refine ite_inv hs (ite_inv (parkBranch_inv hs) (ite_inv ?_ ?_))
  · exact migrationHold_inv (migrationHold_inv hs)
  · exact later_inv (toDie_inv hm)

theorem State.relandMembers_inv {port : Nat} (hs : s.Inv) : (s.relandMembers port).Inv := by
  unfold State.relandMembers
  refine ite_inv hs ?_
  exact foldl_inv hs (fun _ _ ht => foldl_inv ht (fun _ _ hu => ite_inv (landMember_inv hu) hu))

theorem State.sendChild_inv {g : Nat} {f : McFlight} {port : Nat} (hs : s.Inv) : (s.sendChild g f port).Inv :=
  ite_inv (inv_of_mem hs rfl) (parkBranch_inv hs)

theorem State.treeDone_inv {p : McPacket} {lost : Option W64} (hs : s.Inv) : (s.treeDone p lost).Inv := by
  unfold State.treeDone
  split
  · split
    · next t e => exact execMessageAck_keeps.of_next e hs
    · exact hs
  · exact ite_inv (emitAcked_inv hs) (finishEntry_inv (inv_of_mem hs rfl))

theorem State.ackTree_inv {g : Nat} {p : McPacket} {port : Nat} {lost : Option W64} (hs : s.Inv) :
    (s.ackTree g p port lost).Inv := by
  unfold State.ackTree
  refine ite_inv (treeDone_inv hs) ?_
  refine ite_inv (inv_of_mem hs rfl) ?_
  split
  · exact inv_of_mem hs rfl
  · exact ite_inv (inv_of_mem hs rfl) (inv_of_mem hs rfl)

theorem State.flightDone_inv {g : Nat} {f : McFlight} (hs : s.Inv) : (s.flightDone g f).Inv :=
  ackTree_inv (inv_of_mem hs rfl)

theorem execMulticastArrive_keeps {p : McPacket} {port : Nat} : Keeps s (execMulticastArrive p port s) := by
  unfold execMulticastArrive
  refine .next fun hs => ?_
  refine ite_inv hs ?_
  refine ite_inv (ackTree_inv (inv_of_mem hs rfl)) ?_
  split
  · exact foldl_inv (inv_of_mem hs rfl) (fun _ _ ht => sendChild_inv ht)
  · refine ite_inv (flightDone_inv hs) ?_
    refine foldl_inv ?_ (fun _ _ ht => sendChild_inv ht)
    split
    · exact ite_inv (inv_of_mem hs rfl) (landMessage_inv (inv_of_mem hs rfl))
    · exact foldl_inv (inv_of_mem hs rfl) (fun _ _ ht => landMember_inv ht)

theorem State.branchSettled_inv {p : McPacket} {br : Nat} (hs : s.Inv) : (s.branchSettled p br).Inv := by
  unfold State.branchSettled
  exact ite_inv hs (elim_inv hs (fun _ => unhold_inv hs))

theorem execMulticastAck_keeps {group id src : Nat} {lost : Option W64} :
    Keeps s (execMulticastAck group id src lost s) := by
  unfold execMulticastAck
  refine .next fun hs => ?_
  split
  · exact ite_inv (flightDone_inv (branchSettled_inv hs)) (modFlight_inv (branchSettled_inv hs))
  · refine ite_inv hs (ite_inv (elim_inv hs fun _ => ?_) (ite_inv (emitAcked_inv hs) hs))
    exact ite_inv (unhold_inv hs) hs

theorem State.retryBranch_inv {g id br : Nat} (hs : s.Inv) : (s.retryBranch g id br).Inv := by
  unfold State.retryBranch
  split
  · exact hs
  · refine ite_inv (landMember_inv (branchSettled_inv hs)) ?_
    exact sendChild_inv (branchSettled_inv hs)

end Sys2Proof.Machine
end

section
/-! PROOFS. Memory stays canonical: the replies, acknowledgments and notices of loads and stores. -/

namespace Sys2Proof.Machine

open State

variable {s : State}

theorem execLoadReturn_keeps {h : BitVec 24} {r : Answer} : Keeps s (execLoadReturn h r s) := by
  unfold execLoadReturn
  refine .next fun hs => ?_
  refine ite_inv (proxyReply_inv hs) ?_
  exact viaDie_inv hs (fun _ ht => inv_of_mem ht rfl)

theorem State.ackParts_inv {die entry part : Nat} {k : AckKind} (hs : s.Inv) : (s.ackParts die entry part k).Inv := by
  unfold State.ackParts
  split
  · exact hs
  · refine ite_inv hs ?_
    refine finishEntry_inv ?_
    refine unhold_inv ?_
    refine foldl_inv ?_ (fun _ _ ht => inv_of_mem ht rfl)
    split
    · exact ite_inv hs (returnWord_inv hs)
    · exact hs

theorem execStoreAck_keeps {die : Nat} {x : CurbPart} {k : AckKind} : Keeps s (execStoreAck die x k s) := by
  unfold execStoreAck
  refine .next fun hs => ?_
  refine ite_inv (hostAck_inv (proxyAck_inv hs)) ?_
  exact viaDie_inv hs (fun _ ht => ackParts_inv ht)

theorem State.startHeld_inv {die : Nat} {e : CurbEntry} {part : Nat} {va : W64} (hs : s.Inv) :
    (s.startHeld die e part va).Inv :=
  ite_inv hs (inv_of_mem hs rfl)

theorem State.heldNotice_inv {die entry part : Nat} (hs : s.Inv) : (s.heldNotice die entry part).Inv := by
  unfold State.heldNotice
  split
  · exact hs
  · split
    · exact hs
    · split
      · exact ite_inv hs (elim_inv hs (fun _ => startHeld_inv hs))
      · have ht {l : List Nat} : State.Inv (l.foldl
            (fun s i => s.modPart die entry i (fun (p : Part) => { p with st := .parked })) s) :=
          foldl_inv hs (fun _ _ hu => modPart_inv hu)
        dsimp only
        split
        · exact ite_inv (startHeld_inv ht) ht
        · exact ht

theorem execHeldNotice_keeps {die : Nat} {x : CurbPart} : Keeps s (execHeldNotice die x s) := by
  unfold execHeldNotice
  refine .next fun hs => ?_
  refine ite_inv (proxyHeld_inv hs) ?_
  refine ite_inv (viaDie_inv hs (fun _ ht => heldNotice_inv ht)) ?_
  exact heldNotice_inv hs

theorem execStreamHeld_keeps {die entry : Nat} : Keeps s (execStreamHeld die entry s) := by
  unfold execStreamHeld
  refine .next fun hs => ?_
  split
  · exact hs
  · exact inv_of_mem hs rfl

theorem State.returnParts_inv {die entry i : Nat} (hs : s.Inv) : (s.returnParts die entry i).Inv := by
  unfold State.returnParts
  split
  · exact hs
  · split
    · exact hs
    · refine ite_inv hs ?_
      refine ite_inv (viaDie_inv hs (fun _ ht => resend_inv ht)) ?_
      exact ite_inv (resend_inv hs) hs

theorem execStaleReturn_keeps {die : Nat} {r : StaleWork} : Keeps s (execStaleReturn die r s) := by
  unfold execStaleReturn
  refine .next fun hs => ?_
  split
  · exact ite_inv (hostReturned_inv (proxyAgain_inv hs)) (returnParts_inv hs)
  · refine ite_inv (proxyReply_inv hs) ?_
    exact ite_inv (viaDie_inv hs (fun _ ht => inv_of_mem ht rfl)) hs
  · exact viaDie_inv hs (fun _ ht => inv_of_mem ht rfl)

theorem State.retryPart_inv {die entry i : Nat} (hs : s.Inv) : (s.retryPart die entry i).Inv := by
  unfold State.retryPart
  split
  · exact hs
  · split
    · exact hs
    · refine ite_inv hs ?_
      dsimp only
      split
      · exact sendMulticast_inv (unhold_inv (foldl_inv hs (fun _ _ ht => inv_of_mem ht rfl)))
      · refine ite_inv (resend_inv (unhold_inv (foldl_inv hs (fun _ _ ht => inv_of_mem ht rfl)))) ?_
        exact landPart_inv (unhold_inv (foldl_inv hs (fun _ _ ht => inv_of_mem ht rfl)))

theorem State.dropPart_inv {die entry i : Nat} (hs : s.Inv) : (s.dropPart die entry i).Inv := by
  unfold State.dropPart
  split
  · exact hs
  · exact finishEntry_inv (unhold_inv (foldl_inv hs (fun _ _ ht => inv_of_mem ht rfl)))

end Sys2Proof.Machine
end

section
/-! PROOFS. Memory stays canonical: the scheduler. -/

namespace Sys2Proof.Machine

open State

variable {s : State}

/-! ### Replies to the host (R380, R383) -/

theorem State.reply_inv {n : Nat} {status : Byte} {tag : W64} {payload : List Byte} (hs : s.Inv) :
    (s.reply n status tag payload).Inv :=
  ite_inv hs (ite_inv (inv_of_mem hs rfl) (inv_of_mem hs rfl))

/-! ### Taking a card (R245, R197, R240, R383) -/

theorem State.refusedRecord_inv {j : Job} (hs : s.Inv) : (s.refusedRecord j).Inv := by
  unfold State.refusedRecord
  refine ite_inv hs ?_
  dsimp only
  split
  · next t e => exact inv_of_ok e (masterWrite_inv hs)
  · exact parkPiazza_inv hs

theorem State.refuseCard_inv {src : CardSrc} {j : Job} {reason : Nat} (hs : s.Inv) :
    (s.refuseCard src j reason).Inv := by
  unfold State.refuseCard
  split
  · exact refusedRecord_inv (inv_of_mem hs rfl)
  · split
    · exact hs
    · exact refusedRecord_inv (reply_inv (inv_of_mem hs rfl))

theorem State.holdCard_inv {ds : List (List W64)} {x : CardSrc} (hs : s.Inv) : (s.holdCard ds x).Inv := by
  unfold State.holdCard
  split <;> exact inv_of_mem hs rfl

theorem execCardTake_keeps {src : CardSrc} : Keeps s (execCardTake src s) := by
  unfold execCardTake
  refine .next fun hs => ?_
  split
  · exact hs
  · refine ite_inv hs ?_
    refine ite_inv (refuseCard_inv hs) ?_
    refine ite_inv (refuseCard_inv hs) ?_
    split
    · exact hs
    · exact ite_inv (holdCard_inv hs) (refuseCard_inv hs)

/-! ### Admission (R198, R245, R259, R261) -/

theorem State.installFeet_inv {j : Job} {ds : List (List W64)} (hs : s.Inv) : (s.installFeet j ds).Inv :=
  foldl_inv hs (fun _ _ ht => foldl_inv ht (fun _ _ hu => inv_of_mem hu rfl))

theorem State.grantAll_inv {j : Job} (hs : s.Inv) : (s.grantAll j).Inv :=
  foldl_inv (foldl_inv hs (fun _ _ ht => foldl_inv ht (fun _ _ hu => inv_of_mem hu rfl)))
    (fun _ _ ht => inv_of_mem ht rfl)

theorem State.startCrew_inv {j : Job} {n : Nat} (hs : s.Inv) : (s.startCrew j n).Inv := by
  unfold State.startCrew
  dsimp only
  split
  · exact hs
  · next c t e => exact putCrew_inv (newCrew_inv hs e)

theorem State.createSeqs_inv {j : Job} {n i : Nat} (hs : s.Inv) : (s.createSeqs j n i).Inv := by
  induction n generalizing s i with
  | zero => exact hs
  | succ n ih => exact ih (inv_of_mem hs rfl)

theorem State.fillBitmaps_inv {j : Job} {i : Nat} (hs : s.Inv) : (s.fillBitmaps j i).Inv := by
  unfold State.fillBitmaps
  refine foldl_inv hs (fun _ _ ht => ?_)
  split
  · next u e => exact inv_of_ok e (masterWrite_inv ht)
  · exact ht

/-! ### Images in the save area (R254, R255, R294) -/

theorem State.writeBytes_empties_inv {bs : List (Nat × Byte)} {lines : List Nat} (hs : s.Inv) :
    State.Inv { s.writeBytes bs with empties := lines } := inv_of_mem (writeBytes_inv bs hs) rfl

theorem State.loadLot_inv {die i n core lot : Nat} {j : Job} (hs : s.Inv) : (s.loadLot die j i n core lot).Inv := by
  unfold State.loadLot
  split
  · exact setLotBits_inv (copyBlock_inv hs)
  · exact writeBytes_empties_inv hs

theorem State.restoreCrews_inv {j : Job} (hs : s.Inv) : (s.restoreCrews j).Inv := by
  unfold State.restoreCrews
  refine foldl_inv hs (fun _ _ ht => ?_)
  split
  · exact inv_of_mem ht rfl
  · exact ite_inv (startCrew_inv ht) ht

theorem State.adoptImages_inv {j : Job} (hs : s.Inv) : (s.adoptImages j).Inv := inv_of_mem hs rfl

theorem State.reportAdmission_inv {src : CardSrc} {num : BitVec 16} (hs : s.Inv) :
    (s.reportAdmission src num).Inv := by
  unfold State.reportAdmission
  split
  · exact inv_of_mem hs rfl
  · split
    · exact hs
    · exact reply_inv (inv_of_mem hs rfl)

theorem State.admitJob_inv {src : CardSrc} {c : CardReq} {ds : List (List W64)} {num : BitVec 16} (hs : s.Inv) :
    (s.admitJob src c ds num).Inv := by
  unfold State.admitJob
  extract_lets card j numbered granted crewed filled seqs adopted
  have hgranted : granted.Inv := grantAll_inv (installFeet_inv (inv_of_mem hs rfl))
  have hcrewed : crewed.Inv :=
    ite_inv (restoreCrews_inv hgranted) (foldl_inv hgranted (fun _ _ ht => startCrew_inv ht))
  have hfilled : filled.Inv := ite_inv hcrewed (foldl_inv hcrewed (fun _ _ ht => fillBitmaps_inv ht))
  have hseqs : seqs.Inv := createSeqs_inv hfilled
  exact reportAdmission_inv (ite_inv (adoptImages_inv hseqs) hseqs)

/-! ### Placing and restoring (R34, R247, R248, R255, R260) -/

theorem State.restoreFrom_inv {die k : Nat} {j : Job} {q : Seqr} {ps : List (List (Nat × Nat))} (hs : s.Inv) :
    (s.restoreFrom die j q k ps).1.Inv := by
  induction ps generalizing s k with
  | nil => exact hs
  | cons p ps ih =>
    unfold State.restoreFrom
    split
    · exact hs
    · exact ih (modSeq_inv (ite_inv (loadLot_inv hs) (ite_inv (modTile_inv hs) hs)))

theorem State.finishRestore_inv {h : BitVec 24} {j : Job} (hs : s.Inv) : (s.finishRestore h j).Inv := by
  unfold State.finishRestore
  split
  · exact hs
  · refine ite_inv ?_ ?_
    · dsimp only [State.Inv]
      refine raiseHeld_inv ?_
      refine select_inv ?_
      refine refreshCrews_inv ?_
      dsimp only [State.Inv]
      exact modSeq_inv (foldl_inv hs (fun _ _ ht => inv_of_mem ht rfl))
    · refine refreshCrews_inv ?_
      dsimp only [State.Inv]
      exact modSeq_inv (foldl_inv hs (fun _ _ ht => inv_of_mem ht rfl))

theorem State.goRestore_inv {q : Seqr} {j : Job} {k : Nat} (hs : s.Inv) : (s.goRestore q j k).Inv := by
  unfold State.goRestore
  split
  · next t _ _ e =>
    have ht := inv_of_fst e (restoreFrom_inv hs)
    exact parkSave_inv (inv_of_mem ht rfl)
  · next t e =>
    have ht := inv_of_fst e (restoreFrom_inv hs)
    exact finishRestore_inv ht

theorem State.restore_inv {q : Seqr} {j : Job} {n : Nat} (hs : s.Inv) : (s.restore q j n).Inv := by
  unfold State.restore
  split
  · exact goRestore_inv hs
  · dsimp only
    split
    · exact parkSave_inv hs
    · split
      · exact hs
      · exact goRestore_inv (inv_of_mem hs rfl)

theorem State.placeOne_inv {h : BitVec 24} (hs : s.Inv) : SomeInv (s.placeOne h) := by
  unfold State.placeOne
  split
  · exact .none
  · split
    · split
      · exact .some (restore_inv hs)
      · exact .none
    · exact .none

theorem State.placeAll_inv {hl : List (BitVec 24)} (hs : s.Inv) : SomeInv (s.placeAll hl) := by
  induction hl generalizing s with
  | nil => exact .some hs
  | cons h hl ih =>
    unfold State.placeAll
    cases e : s.placeOne h with
    | none => exact .none
    | some t => exact ih (inv_of_some e (placeOne_inv hs))

theorem State.placeTurn_inv {h : BitVec 24} (hs : s.Inv) : SomeInv (s.placeTurn h) := by
  unfold State.placeTurn
  split
  · exact .none
  · next q _ =>
    cases e : s.placeAll (s.placedWith q) with
    | none => exact .none
    | some t => exact .some (inv_of_mem (inv_of_some e (placeAll_inv hs)) rfl)

theorem State.askGang_inv {q : Seqr} (hs : s.Inv) : (s.askGang q).Inv := by
  refine (List.foldlRecOn (motive := fun p : State × State × List (BitVec 24) => p.1.Inv ∧ p.2.1.Inv) _ _ ⟨hs, hs⟩
    ?_).1
  rintro ⟨asking, placing, targets⟩ ⟨ha, hp⟩ h -
  dsimp only
  split
  next e => exact ⟨ha, inv_of_some e (placeOne_inv hp)⟩
  next => exact ⟨askFor_inv ha, hp⟩

theorem State.askAll_inv (hs : s.Inv) : s.askAll.Inv := by
  unfold State.askAll
  refine foldl_inv hs (fun _ _ ht => ?_)
  split
  · exact ht
  · exact ite_inv (askRoom_inv ht) (ite_inv ht (askGang_inv ht))

theorem execJobAdmit_keeps {src : CardSrc} : Keeps s (execJobAdmit src s) := by
  unfold execJobAdmit
  refine .next fun hs => ?_
  split
  · exact hs
  · split
    · exact hs
    · split
      · split
        · exact reply_inv (inv_of_mem hs rfl)
        · exact hs
      · exact hs
      · exact ite_inv (askAll_inv (admitJob_inv hs)) hs

theorem execPlace_keeps {h : BitVec 24} : Keeps s (execPlace h s) := by
  unfold execPlace
  refine .next fun hs => ?_
  split
  · exact hs
  · refine ite_inv ?_ hs
    split
    · next t e =>
      have ht := inv_of_some e (placeTurn_inv hs)
      exact askAll_inv ht
    · exact hs

/-! ### Issue among resident contexts (R251) -/

theorem execContextSwitch_keeps {core slot : Nat} : Keeps s (execContextSwitch core slot s) := by
  unfold execContextSwitch
  refine .next fun hs => ?_
  dsimp only
  split
  · exact hs
  · refine ite_inv hs (modCore_inv (modSeq_inv ?_))
    split
    · exact modSeq_inv hs
    · exact hs

theorem execLongiterExpiry_keeps {h : BitVec 24} : Keeps s (execLongiterExpiry h s) := by
  unfold execLongiterExpiry
  refine .next fun hs => ?_
  split
  · exact hs
  · split
    · exact ite_inv (inv_of_mem hs rfl) hs
    · exact hs

/-! ### Parking (R256, R260) -/

theorem State.parkGang_inv {q : Seqr} {c : Crew} (hs : s.Inv) : (s.parkGang q c).Inv :=
  putCrew_inv (inv_of_mem hs rfl)

theorem State.parkSeq_inv {q : Seqr} (hs : s.Inv) : (s.parkSeq q).Inv :=
  foldl_inv (inv_of_mem hs rfl) (fun _ _ ht => parkGang_inv ht)

theorem State.endOverrun_inv {num : BitVec 16} (hs : s.Inv) : (s.endOverrun num).Inv := by
  unfold State.endOverrun
  split
  · exact hs
  · exact ite_inv hs (endJob_inv (foldl_inv hs (fun _ _ ht => post_inv _ _ ht)))

theorem execContextSave_keeps {h : BitVec 24} : Keeps s (execContextSave h s) := by
  unfold execContextSave
  refine .next fun hs => ?_
  split
  · exact hs
  · split
    · exact hs
    · exact ite_inv hs (askAll_inv (endOverrun_inv (saveContext_inv hs)))

/-! ### Waking (R223, R257, R260) -/

theorem execPark_keeps {h : BitVec 24} : Keeps s (execPark h s) := by
  unfold execPark
  refine .next fun hs => ?_
  split
  · exact hs
  · split
    · exact hs
    · exact ite_inv (parkSeq_inv hs) hs

theorem execWake_keeps {h : BitVec 24} : Keeps s (execWake h s) := by
  unfold execWake
  refine .next fun hs => ?_
  split
  · exact hs
  · exact ite_inv (requeue_inv hs) hs

theorem execSleepExpiry_keeps {h : BitVec 24} : Keeps s (execSleepExpiry h s) := by
  unfold execSleepExpiry
  refine .next fun hs => ?_
  split
  · exact hs
  · split
    · exact ite_inv (requeue_inv hs) hs
    · exact hs

theorem execGangWake_keeps {crew : W32} : Keeps s (execGangWake crew s) := by
  unfold execGangWake
  refine .next fun hs => ?_
  split
  · exact hs
  · refine ite_inv hs (askAll_inv (foldl_inv (putCrew_inv hs) (fun _ _ ht => ?_)))
    exact ite_inv (modSeq_inv ht) (ite_inv (enqueue_inv ht) (modSeq_inv ht))

/-! ### Deadlines, retirement of cores, the end of a job (R250, R265, R266, R326) -/

theorem State.deadlineSeq_inv {q : Seqr} (hs : s.Inv) : (s.deadlineSeq q).Inv := by
  unfold State.deadlineSeq
  split
  · exact modSeq_inv (ite_inv hs (leaveWaits_inv hs))
  · exact modSeq_inv (ite_inv hs (leaveWaits_inv hs))
  · exact freezeSeq_inv hs
  · exact freezeSeq_inv hs
  · exact hs
  · exact hs

theorem State.freezeChannels_inv {j : Job} (hs : s.Inv) : (s.freezeChannels j).Inv :=
  foldl_inv (inv_of_mem hs rfl) (fun _ _ ht => ite_inv (inv_of_mem ht rfl) ht)

theorem execDeadlineOverrun_keeps {num : BitVec 16} : Keeps s (execDeadlineOverrun num s) := by
  unfold execDeadlineOverrun
  refine .next fun hs => ?_
  split
  · exact hs
  · refine ite_inv hs ?_
    extract_lets stopped withdrawn
    have hstopped : stopped.Inv := foldl_inv hs (fun _ _ ht => deadlineSeq_inv ht)
    have hwithdrawn : withdrawn.Inv :=
      withdrawJob_inv (leaveFeet_inv (freezeChannels_inv (stopJobMatrix_inv hstopped)))
    exact endOverrun_inv (modJob_inv hwithdrawn)

theorem execCoreRetire_keeps {core : Nat} {ret : Bool} : Keeps s (execCoreRetire core ret s) := by
  unfold execCoreRetire
  refine .next fun hs => ?_
  extract_lets marked regrouped
  have hr : regrouped.Inv := foldl_inv (modCore_inv hs) (fun _ _ ht => regang_inv ht)
  exact askAll_inv (ite_inv (foldl_inv hr (fun _ _ ht => inv_of_mem ht rfl)) hr)

theorem execJobEndBySystemSoftware_keeps {num : BitVec 16} : Keeps s (execJobEndBySystemSoftware num s) := by
  unfold execJobEndBySystemSoftware
  refine .next fun hs => ?_
  split
  · exact hs
  · refine ite_inv hs ?_
    refine ite_inv ?_ ?_
    · refine releaseJob_inv ?_
      dsimp only [State.Inv]
      exact mapSeqs_inv (foldl_inv (withdrawJob_inv hs) (fun _ _ ht => undoRestore_inv ht))
    · refine endJob_inv ?_
      refine modJob_inv ?_
      dsimp only [State.Inv]
      exact mapSeqs_inv (foldl_inv (withdrawJob_inv hs) (fun _ _ ht => undoRestore_inv ht))

end Sys2Proof.Machine
end

section
/-! PROOFS. Memory stays canonical: `freeze` and `thaw`. -/

namespace Sys2Proof.Machine

open State

variable {s : State}

theorem State.freezeMaster_inv {x : Master} (hs : s.Inv) : (s.freezeMaster x).Inv := by
  unfold State.freezeMaster
  split
  · exact freezeSeq_inv hs
  · exact ite_inv hs (inv_of_mem hs rfl)
  · exact inv_of_mem hs rfl
  · exact inv_of_mem hs rfl
  · exact inv_of_mem hs rfl

theorem State.thawMaster_inv {x : Master} (hs : s.Inv) : (s.thawMaster x).Inv := by
  unfold State.thawMaster
  split
  · exact thawSeq_inv hs
  · exact ite_inv (resumeChannel_inv hs) hs
  · exact ite_inv (thawColl_inv hs) hs
  · exact relandMembers_inv (inv_of_mem hs rfl)
  · exact inv_of_mem hs rfl

theorem execFreeze_keeps {a : BitVec 5} : Keeps s (execFreeze a s) := by
  unfold execFreeze
  refine .next fun hs => ?_
  refine supOnly_inv hs (fun _ ht => ?_)
  refine hold_inv _ ht ?_
  split
  · exact freezeMaster_inv ht
  · exact inv_of_mem ht rfl

theorem execThaw_keeps {a : BitVec 5} : Keeps s (execThaw a s) := by
  unfold execThaw
  refine .next fun hs => ?_
  refine supOnly_inv hs (fun _ ht => ?_)
  refine hold_inv _ ht ?_
  split
  · exact ite_inv (inv_of_mem ht rfl) (thawMaster_inv ht)
  · exact inv_of_mem ht rfl

end Sys2Proof.Machine
end

section
/-! PROOFS. Memory stays canonical: links, routes, circuits and package time. -/

namespace Sys2Proof.Machine

open State

variable {s : State}

/-! ### Sending (R301, R306, R309) -/

theorem State.sendReady_inv {port : Nat} (hs : s.Inv) : (s.sendReady port).Inv := ite_inv hs (inv_of_mem hs rfl)

/-! ### Routes (R311 to R313) -/

theorem State.routePacket_inv {p : Packet} (hs : s.Inv) : (s.routePacket p).Inv := by
  unfold State.routePacket
  dsimp only
  split
  · exact hs
  · exact ite_inv (drawFree_inv (modPort_inv hs)) hs
  · exact ite_inv hs (ite_inv (inv_of_mem hs rfl) (drawFree_inv (modPort_inv hs)))

theorem State.arriveVia_inv {x : ArriveSrc} (hs : s.Inv) : (s.arriveVia x).Inv := by
  unfold State.arriveVia
  split
  · exact arrive_inv hs
  · exact ite_inv hs (viaDie_inv hs (fun _ ht => arrive_inv ht))

theorem State.reroute_inv {port : Nat} (hs : s.Inv) : (s.reroute port).Inv := by
  unfold State.reroute
  refine foldl_inv (ite_inv (inv_of_mem hs rfl) (dropSessions_inv (inv_of_mem hs rfl))) (fun _ _ ht => ?_)
  split
  · refine ite_inv (routePacket_inv ht) ?_
    split
    · exact parkBranch_inv ht
    · exact ht
  · exact routePacket_inv ht

theorem State.transmit_inv {n : Nat} (hs : s.Inv) : (s.transmit n).Inv := by
  unfold State.transmit
  refine ite_inv hs ?_
  exact foldl_inv (foldl_inv (inv_of_mem hs rfl) (fun _ _ ht => routePacket_inv ht)) (fun _ _ ht => sendReady_inv ht)

/-! ### Receiving and replay (R306, R307) -/

theorem State.resendFrom_inv {port : Nat} {e : BitVec 12} (hs : s.Inv) : (s.resendFrom port e).Inv :=
  inv_of_mem hs rfl

theorem State.replay_inv {port : Nat} {e : BitVec 12} (hs : s.Inv) : (s.replay port e).Inv := inv_of_mem hs rfl

theorem State.nak_inv {port : Nat} (hs : s.Inv) : (s.nak port).Inv := ite_inv hs (inv_of_mem hs rfl)

theorem State.sendAck_inv {port : Nat} (hs : s.Inv) : (s.sendAck port).Inv := inv_of_mem hs rfl

theorem State.passOn_inv {port : Nat} {f : Flit} (hs : s.Inv) : (s.passOn port f).Inv := by
  unfold State.passOn
  split
  · exact hs
  · exact routePacket_inv hs

theorem execFlitReceive_keeps {port : Nat} {f : Flit} : Keeps s (execFlitReceive port f s) := by
  unfold execFlitReceive
  refine .next fun hs => ite_inv hs (ite_inv (nak_inv (modPort_inv hs)) (ite_inv ?_ (ite_inv ?_
    (ite_inv (replay_inv (modPort_inv hs)) hs))))
  · exact sendReady_inv (modPort_inv hs)
  · refine ite_inv ?_ (ite_inv (sendAck_inv (modPort_inv hs)) (nak_inv (modPort_inv hs)))
    exact sendReady_inv (sendAck_inv (passOn_inv (modPort_inv (modPort_inv hs))))

theorem execNakReceive_keeps {port : Nat} {seq : BitVec 12} : Keeps s (execNakReceive port seq s) :=
  .next fun hs => ite_inv hs (replay_inv (modPort_inv hs))

theorem execReplayTimeout_keeps {port : Nat} : Keeps s (execReplayTimeout port s) := by
  unfold execReplayTimeout
  refine .next fun hs => ?_
  split
  · exact hs
  · exact ite_inv hs (inv_of_mem hs rfl)

theorem State.sendTiming_inv {port : Nat} (hs : s.Inv) : (s.sendTiming port).Inv := ite_inv hs (inv_of_mem hs rfl)

theorem State.learnReach_inv {port : Nat} (hs : s.Inv) : (s.learnReach port).Inv := inv_of_mem hs rfl

theorem State.portLost_inv {port : Nat} (hs : s.Inv) : (s.portLost port).Inv := reroute_inv (inv_of_mem hs rfl)

theorem execTrainingEnd_keeps {port : Nat} {ok : Bool} {peerSeq : BitVec 12} :
    Keeps s (execTrainingEnd port ok peerSeq s) := by
  unfold execTrainingEnd
  refine .next fun hs => ite_inv hs (ite_inv (relandMembers_inv (foldl_inv ?_ fun _ _ ht => ?_))
    (ite_inv (portLost_inv (modPort_inv hs)) (modPort_inv hs)))
  · exact sendReady_inv (sendTiming_inv (learnReach_inv (resendFrom_inv (modPort_inv hs))))
  · exact ite_inv (forwardKept_inv ht) ht

theorem State.writeDis_inv {port : Nat} {dis : Bool} (hs : s.Inv) : (s.writeDis port dis).Inv :=
  ite_inv (portLost_inv (inv_of_mem hs rfl)) (inv_of_mem hs rfl)

/-! ### No route (R314) -/

theorem State.branchTimeout_inv {g id br : Nat} {returned : Bool} (hs : s.Inv) :
    (s.branchTimeout g id br returned).Inv := by
  unfold State.branchTimeout
  split
  · exact hs
  · exact ite_inv hs (parkBranch_inv (inv_of_mem hs rfl))

theorem State.storeNoRoute_inv {die entry part : Nat} {here : Bool} (hs : s.Inv) :
    (s.storeNoRoute die entry part here).Inv := by
  unfold State.storeNoRoute
  split
  · exact hs
  · dsimp only
    split
    · refine ite_inv hs ?_
      exact parkWork_inv (foldl_inv (inv_of_mem hs rfl) (fun _ _ ht => inv_of_mem ht rfl))
    · split
      · exact foldl_inv hs (fun _ _ ht => ite_inv (branchTimeout_inv ht) ht)
      · refine ite_inv ?_ hs
        refine foldl_inv hs (fun _ _ ht => ?_)
        refine ite_inv (parkWork_inv (foldl_inv (inv_of_mem ht rfl) (fun _ _ hu => inv_of_mem hu rfl))) ?_
        exact ht

theorem State.proxyNoRoute_inv {n : Nat} (hs : s.Inv) : (s.proxyNoRoute n).Inv := by
  unfold State.proxyNoRoute
  dsimp only
  split
  · split
    · exact hs
    · exact parkHost_inv (inv_of_mem hs rfl)
  · exact parkOutside_inv (inv_of_mem hs rfl)

theorem State.unitNoRoute_inv {die ch u : Nat} {here : Bool} (hs : s.Inv) : (s.unitNoRoute die ch u here).Inv := by
  unfold State.unitNoRoute
  refine ite_inv hs ?_
  split
  · exact hs
  · exact inv_of_mem hs rfl

theorem State.loadNoRoute_inv {h : BitVec 24} {tag : Nat} {here : Bool} (hs : s.Inv) :
    (s.loadNoRoute h tag here).Inv := by
  unfold State.loadNoRoute
  refine ite_inv hs ?_
  exact ite_inv (proxyReply_inv (inv_of_mem hs rfl)) (inv_of_mem hs rfl)

theorem State.packetNoRoute_inv {p : McPacket} (hs : s.Inv) : (s.packetNoRoute p).Inv :=
  ite_inv hs (parkWork_inv (inv_of_mem hs rfl))

theorem State.transitNoRoute_inv {z : BitVec 15} (hs : s.Inv) : (s.transitNoRoute z).Inv := by
  unfold State.transitNoRoute
  split
  · exact inv_of_mem hs rfl
  · exact hs

theorem State.noRoute_inv {here : Bool} {x : Unrouted} (hs : s.Inv) : (s.noRoute here x).Inv := by
  unfold State.noRoute
  split
  · exact ite_inv (proxyNoRoute_inv hs) (storeNoRoute_inv hs)
  · exact loadNoRoute_inv hs
  · exact unitNoRoute_inv hs
  · exact branchTimeout_inv hs
  · exact packetNoRoute_inv hs
  · exact transitNoRoute_inv hs
  · exact hs

theorem execRouteTimeout_keeps {p : Unrouted} : Keeps s (execRouteTimeout p s) := by
  unfold execRouteTimeout
  refine .next fun hs => ?_
  split <;> exact noRoute_inv hs

/-! ### Package time and circuits (R302 to R304) -/

theorem execTimingFlit_keeps {port : Nat} {ref : BitVec 15} {refTime : W64} {slew : BitVec 16} {synced : Bool} :
    Keeps s (execTimingFlit port ref refTime slew synced s) := by
  unfold execTimingFlit
  refine .next fun hs => ?_
  extract_lets answered lim slewed
  have ha : answered.Inv := sendTiming_inv (inv_of_mem hs rfl)
  have hl : slewed.Inv := ha
  exact ite_inv hs (ite_inv ha (ite_inv hl hl))

theorem execWlWrite_keeps {i j : Nat} {v : Byte} : Keeps s (execWlWrite i j v s) :=
  .next fun hs => ite_inv (inv_of_mem hs rfl) (inv_of_mem hs rfl)

end Sys2Proof.Machine
end

section
/-! PROOFS. Memory stays canonical: translation control, migration, the trap queues and parked work. -/

namespace Sys2Proof.Machine

open State

variable {s : State}

/-! ### Translation control (R333) -/

theorem execFlush_keeps {die : Nat} : Keeps s (execFlush die s) := .next fun hs => ite_inv (inv_of_mem hs rfl) hs

/-! ### Remote accesses (R336) -/

theorem execMigrationCandidate_keeps {die granule : Nat} : Keeps s (execMigrationCandidate die granule s) :=
  .next fun hs => ite_inv hs (post_inv _ _ (modTu_inv hs))

/-! ### Migration (R337) -/

theorem State.physWrite_inv {pa : W64} {bs : List Byte} (hs : s.Inv) : (s.physWrite pa bs).Inv :=
  ite_inv (writeBytes_inv _ hs) (inv_of_mem hs rfl)

theorem execMigrationStart_keeps {die : Nat} {frame : W64} : Keeps s (execMigrationStart die frame s) := by
  unfold execMigrationStart
  refine .next fun hs => ?_
  refine ite_inv (inv_of_mem hs rfl) ?_
  exact ite_inv (inv_of_mem hs rfl) (inv_of_mem hs rfl)

theorem State.copyFrame_inv {old fresh : W64} (hs : s.Inv) : (s.copyFrame old fresh).Inv := by
  unfold State.copyFrame
  dsimp only
  split
  · exact hs
  · split
    · exact Memory.wf_writes _ (Memory.wf_filter _ hs)
    · exact ite_inv hs (foldl_inv hs (fun _ _ ht => physWrite_inv ht))

theorem execMigrationSwitch_keeps {die : Nat} : Keeps s (execMigrationSwitch die s) := by
  unfold execMigrationSwitch
  refine .next fun hs => ?_
  split
  · exact hs
  · exact ite_inv hs (modTu_inv (physWrite_inv (copyFrame_inv hs)))

theorem State.movePart_inv {m : Migration} {d n i : Nat} (hs : s.Inv) : (s.movePart m d n i).Inv := by
  unfold State.movePart
  dsimp only
  split
  · exact inv_of_mem hs rfl
  · refine ite_inv (landHeld_inv (inv_of_mem hs rfl)) ?_
    exact sendParts_inv (inv_of_mem hs rfl)

theorem State.moveOutside_inv {m : Migration} {r : ExtRequest} (hs : s.Inv) : (s.moveOutside m r).Inv := by
  unfold State.moveOutside
  refine ite_inv (landHeld_inv hs) ?_
  dsimp only
  split
  · exact landHeld_inv hs
  · refine sendOn_inv ?_
    split
    · exact applyMem_inv hs
    · exact hs

theorem State.moveMark_inv {m : Migration} {x : Option FeRef} (hs : s.Inv) : (s.moveMark m x).Inv := by
  unfold State.moveMark
  split
  · exact ite_inv (feSet_inv hs) (physWrite_inv hs)
  · exact feSet_inv hs

theorem State.applyHeld_inv {m : Migration} {x : HeldWrite} (hs : s.Inv) : (s.applyHeld m x).Inv := by
  unfold State.applyHeld
  split
  · exact movePart_inv hs
  · exact moveOutside_inv hs
  · exact moveMark_inv (foldl_inv hs (fun _ _ ht => physWrite_inv ht))
  · exact ite_inv (syncAdd_inv _ _ hs) (inv_of_mem hs rfl)
  · exact inv_of_mem hs rfl
  · exact inv_of_mem hs rfl

theorem State.afterMigration_inv (hs : s.Inv) : s.afterMigration.Inv := by
  unfold State.afterMigration
  refine foldl_inv ?_ (fun _ _ ht => ite_inv (emitGo_inv ht) ht)
  refine foldl_inv ?_ (fun _ _ ht => writeDone_inv ht)
  refine foldl_inv ?_ (fun _ _ ht => ite_inv ht (inv_of_mem ht rfl))
  refine foldl_inv (inv_of_mem hs rfl) (fun _ _ ht => ?_)
  refine ite_inv ht ?_
  exact foldl_inv (inv_of_mem ht rfl) (fun _ _ hu => landMessage_inv hu)

theorem execMigrationApply_keeps {die : Nat} : Keeps s (execMigrationApply die s) := by
  unfold execMigrationApply
  refine .next fun hs => ?_
  split
  · exact hs
  · split
    · exact hs
    · refine ite_inv hs ?_
      exact afterMigration_inv (post_inv _ _ (foldl_inv (inv_of_mem hs rfl) (fun _ _ ht => applyHeld_inv ht)))

/-! ### The trap queue (R339, R340) -/

theorem State.repost_inv {die : Nat} {r : TrapRec} (hs : s.Inv) : (s.repost die r).Inv := by
  unfold State.repost
  refine post_inv _ _ ?_
  refine ite_inv ?_ ?_
  · refine modChan_inv ?_
    split
    · exact inv_of_mem hs rfl
    · exact hs
  · split
    · exact inv_of_mem hs rfl
    · exact hs

theorem State.postHeld_inv {die n : Nat} (hs : s.Inv) : (s.postHeld die n).Inv := by
  induction n generalizing s with
  | zero => exact hs
  | succ n ih =>
    unfold State.postHeld
    dsimp only
    split
    · exact hs
    · exact ite_inv (ih (ite_inv (modDie_inv hs) (repost_inv (modDie_inv hs)))) hs

theorem State.forgetFault_inv {slot : Nat} {r : TrapRec} (hs : s.Inv) : (s.forgetFault slot r).Inv :=
  ite_inv hs (inv_of_mem hs rfl)

theorem execHeadWrite_keeps {die : Nat} {v : BitVec 11} : Keeps s (execHeadWrite die v s) := by
  unfold execHeadWrite
  refine .next fun hs => ?_
  refine ite_inv (inv_of_mem hs rfl) ?_
  refine foldl_inv (postHeld_inv (modDie_inv (foldl_inv hs (fun _ _ ht => forgetFault_inv ht)))) (fun _ _ ht => ?_)
  split
  · exact ite_inv (repost_inv ht) ht
  · exact ht

/-! ### Writes of a host connection (R382) -/

theorem State.hostPiece_inv {p : HostPart} (hs : s.Inv) : (s.hostPiece p).Inv := by
  unfold State.hostPiece
  dsimp only
  split
  · exact .fault
  · split
    · refine .waits ?_
      refine emit_inv ?_
      dsimp only [State.Inv]
      exact note_inv hs
    · split
      · exact .fault
      · split
        · exact .waits (migrationHold_inv (note_inv hs))
        · split
          · next t e => exact .done (inv_of_done e (applyHomes_inv (note_inv hs)))
          · exact .waits (modSession_inv (note_inv hs))
          · exact .fault

theorem State.hostDone_inv {p : HostPart} {dropped : Option Byte} (hs : s.Inv) : (s.hostDone p dropped).Inv := by
  unfold State.hostDone
  split
  · exact hs
  · refine ite_inv hs ?_
    refine ite_inv ?_ ?_
    · refine later_inv ?_
      split <;> exact ite_inv (inv_of_mem hs rfl) (reply_inv (inv_of_mem hs rfl))
    · split <;> exact ite_inv (inv_of_mem hs rfl) (reply_inv (inv_of_mem hs rfl))

theorem State.hostAgain_inv {p : HostPart} (hs : s.Inv) : (s.hostAgain p).Inv := by
  have hp := hostPiece_inv (p := p) hs
  unfold State.hostAgain
  generalize s.hostPiece p = x at hp ⊢
  refine ite_inv (hostDone_inv hs) ?_
  cases hp with
  | done ht => exact hostDone_inv ht
  | waits ht => exact ht
  | fault => exact parkHost_inv hs

/-! ### ACT on parked work (R341, R397) -/

theorem State.retryWork_inv {p : Parked} (hs : s.Inv) : (s.retryWork p).Inv := by
  unfold State.retryWork
  split
  · exact retryPart_inv hs
  · exact landHeld_inv hs
  · split
    · next t e => exact execUnitArrive_keeps.of_next e hs
    · exact hs
  · exact hostAgain_inv hs
  · exact emitGo_inv hs
  · split
    · exact writeDone_inv hs
    · exact hs
  · exact refusedRecord_inv hs
  · exact retryBranch_inv hs
  · exact inv_of_mem hs rfl
  · split
    · exact writeCrew_inv hs
    · split
      · next t e => exact inv_of_ok e (masterWrite_inv hs)
      · exact parkPiazza_inv hs
  · exact hs

theorem execRecordRetry_keeps {die slot : Nat} : Keeps s (execRecordRetry die slot s) := by
  unfold execRecordRetry
  refine .next fun hs => ?_
  split
  · exact inv_of_mem hs rfl
  · exact retryWork_inv (inv_of_mem hs rfl)

theorem State.dropWork_inv {r : TrapRec} {p : Parked} (hs : s.Inv) : (s.dropWork r p).Inv := by
  unfold State.dropWork
  split
  · exact dropPart_inv hs
  · exact drainReorder_inv (emit_inv (unitApplied_inv (streamDone_inv hs)))
  · exact inv_of_mem hs rfl
  · exact hostDone_inv hs
  · exact emitSkip_inv hs
  · exact closeJob_inv hs
  · exact hs
  · exact inv_of_mem hs rfl
  · exact treeDone_inv hs
  · exact hs
  · exact hs

theorem execRecordDrop_keeps {die slot : Nat} : Keeps s (execRecordDrop die slot s) := by
  unfold execRecordDrop
  refine .next fun hs => ?_
  split
  · exact inv_of_mem hs rfl
  · split
    · exact inv_of_mem hs rfl
    · exact dropWork_inv (inv_of_mem hs rfl)

theorem execConnectionThaw_keeps {die slot : Nat} : Keeps s (execConnectionThaw die slot s) := by
  unfold execConnectionThaw
  refine .next fun hs => ?_
  split
  · exact inv_of_mem hs rfl
  · exact ite_inv (inv_of_mem hs rfl) (inv_of_mem hs rfl)

end Sys2Proof.Machine
end

section
/-! PROOFS. Memory stays canonical: memory errors and patrol scrub. -/

namespace Sys2Proof.Machine

open State

variable {s : State}

theorem State.corrected_inv {die : Nat} (hs : s.Inv) : (s.corrected die).Inv :=
  ite_inv (inv_of_mem hs rfl) (post_inv _ _ (inv_of_mem hs rfl))

theorem State.poisonContext_inv {h : BitVec 24} (hs : s.Inv) : (s.poisonContext h).Inv := by
  unfold State.poisonContext
  split
  · exact hs
  · refine ite_inv hs ?_
    have hx : State.Inv ({ s.select h with issue := .idle }.raiseHeld cPoison 0) :=
      raiseHeld_inv (s := { s.select h with issue := .idle }) (select_inv hs)
    exact ite_inv (modSeq_inv hx) (select_inv (modSeq_inv hx))

theorem execMemoryError_keeps {u : Upset} : Keeps s (execMemoryError u s) := by
  unfold execMemoryError
  refine .next fun hs => ?_
  split
  · exact ite_inv hs (ite_inv (corrected_inv hs) (inv_of_mem hs rfl))
  · exact ite_inv hs (ite_inv (corrected_inv hs) (inv_of_mem hs rfl))
  · split
    · exact hs
    · refine ite_inv hs ?_
      exact ite_inv (corrected_inv hs) (poisonContext_inv (inv_of_mem hs rfl))
  · refine ite_inv hs ?_
    refine ite_inv (corrected_inv hs) ?_
    dsimp only
    split
    · exact post_inv _ _ (inv_of_mem hs rfl)
    · exact post_inv _ _ (freezeMaster_inv (inv_of_mem hs rfl))

theorem execPatrolScrub_keeps {die : Nat} {addr : W64} {upset : Bool} :
    Keeps s (execPatrolScrub die addr upset s) := by
  unfold execPatrolScrub
  refine .next fun hs => ?_
  refine ite_inv hs ?_
  refine ite_inv (ite_inv (post_inv _ _ hs) hs) ?_
  exact ite_inv (corrected_inv hs) hs

end Sys2Proof.Machine
end

section
/-! PROOFS. Memory stays canonical: images, reset, power and heat. -/

namespace Sys2Proof.Machine

open State

variable {s : State}

/-! ### Images and reset (R384) -/

theorem State.startServices_inv (hs : s.Inv) : s.startServices.Inv := by
  unfold State.startServices
  dsimp only [State.Inv]
  exact foldl_inv hs (fun _ _ ht => inv_of_mem ht rfl)

theorem execPkgReset_keeps {images : List BootImage} : Keeps s (execPkgReset images s) :=
  .next fun _ => ite_inv (startServices_inv (inv_of_mem reset_inv rfl)) (inv_of_mem reset_inv rfl)

theorem execPowerLoss_keeps : Keeps s (execPowerLoss s) := .next fun _ => inv_of_mem reset_inv rfl

/-! ### Heat (R386 to R388) -/

theorem State.evsync_inv {n : Nat} (hs : s.Inv) : (s.evsync n).Inv :=
  ite_inv hs (ite_inv (countAt_inv _ _ hs) (inv_of_mem hs rfl))

end Sys2Proof.Machine
end

section
/-! PROOFS. Memory stays canonical: the writes of the state catalogue. -/

namespace Sys2Proof.Machine

open State

variable {s : State}

/-! ### Words of the objects -/

theorem State.catRead_inv {key : W64} (hs : s.Inv) : (s.catRead key).2.Inv := by
  unfold State.catRead
  split
  · exact hs
  · exact inv_of_mem hs rfl

theorem execRdst_keeps {d a : BitVec 3} : Keeps s (execRdst d a s) := by
  unfold execRdst
  refine .next fun hs => ?_
  refine supOnly_inv hs (fun _ ht => ?_)
  refine hold_inv _ ht ?_
  refine ite_inv (wb_inv (catRead_inv ht)) ?_
  refine ask_inv ht (fun _ _ hu => ?_)
  split
  · exact inv_of_mem hu rfl
  · exact raise_inv _ _ hu
  · exact raise_inv _ _ hu
  · exact stall_inv _ hu

/-! ### Writes (R38) -/

theorem after_inv {o : Out} (hs : s.Inv) (ho : Keeps s o) : (after o s).Inv := by
  obtain ⟨t, rfl, ht⟩ := ho
  exact ht hs

theorem State.writeSeqWord_inv {q : Seqr} {n : Nat} {v : W64} (hs : s.Inv) : (s.writeSeqWord q n v).Inv := by
  unfold State.writeSeqWord
  refine ite_inv (refuse_inv hs) ?_
  split
  · exact refuse_inv hs
  · have ht {o : Option Nat} {f : Tile → Tile} : State.Inv
      (match o with | some p => s.modTile q.coreNo p f | none => s) := by
      split
      · exact modTile_inv hs
      · exact hs
    dsimp only
    split
    · split
      · exact refuse_inv ht
      · next u e => exact modSeq_inv (inv_of_ok e (masterWrite_inv ht))
    · exact modSeq_inv ht

theorem State.writeStore_inv {core i word : Nat} {v : W64} (hs : s.Inv) : (s.writeStore core i word v).Inv := by
  unfold State.writeStore
  dsimp only
  split
  · exact ite_inv (inv_of_mem hs rfl) (inv_of_mem hs rfl)
  · exact ite_inv (inv_of_mem hs rfl) (inv_of_mem hs rfl)
  · exact inv_of_mem hs rfl

theorem State.writeTrans_inv {die inst word : Nat} {v : W64} (hs : s.Inv) : (s.writeTrans die inst word v).Inv := by
  unfold State.writeTrans
  refine ite_inv (inv_of_mem hs rfl) ?_
  refine ite_inv (ite_inv (inv_of_mem hs rfl) (inv_of_mem hs rfl)) ?_
  split
  · exact ite_inv (inv_of_mem hs rfl) (inv_of_mem hs rfl)
  · exact ite_inv (inv_of_mem hs rfl) (inv_of_mem hs rfl)
  · exact after_inv hs execMigrationStart_keeps
  · exact ite_inv (after_inv hs execFlush_keeps) hs
  · exact inv_of_mem hs rfl

theorem State.writeQueue_inv {die inst word : Nat} {v : W64} (hs : s.Inv) : (s.writeQueue die inst word v).Inv := by
  unfold State.writeQueue
  refine ite_inv ?_ ?_
  · split
    · exact after_inv hs execHeadWrite_keeps
    · exact ite_inv (inv_of_mem hs rfl) (inv_of_mem hs rfl)
    · exact inv_of_mem hs rfl
  · refine ite_inv ?_ (inv_of_mem hs rfl)
    split
    · exact after_inv hs execRecordRetry_keeps
    · exact after_inv hs execRecordDrop_keeps
    · exact after_inv hs execConnectionThaw_keeps
    · exact inv_of_mem hs rfl

theorem State.writeColl_inv {ch word : Nat} {v : W64} (hs : s.Inv) : (s.writeColl ch word v).Inv := by
  unfold State.writeColl
  refine ite_inv (inv_of_mem hs rfl) ?_
  split <;> exact inv_of_mem hs rfl

theorem State.writeGroup_inv {g word : Nat} {v : W64} (hs : s.Inv) : (s.writeGroup g word v).Inv := by
  unfold State.writeGroup
  refine ite_inv (inv_of_mem hs rfl) ?_
  split
  · exact inv_of_mem hs rfl
  · exact inv_of_mem hs rfl
  · exact ite_inv (inv_of_mem hs rfl) (inv_of_mem hs rfl)

theorem State.writeSession_inv {n word : Nat} {v : W64} (hs : s.Inv) : (s.writeSession n word v).Inv := by
  unfold State.writeSession
  dsimp only
  split
  · refine ite_inv (inv_of_mem hs rfl) ?_
    refine ite_inv (inv_of_mem hs rfl) ?_
    refine ite_inv ?_ ?_
    · refine ite_inv (after_inv (modSession_inv (ite_inv (inv_of_mem hs rfl) hs)) execSessionOpen_keeps) ?_
      exact modSession_inv (ite_inv (inv_of_mem hs rfl) hs)
    · refine ite_inv (after_inv (ite_inv (inv_of_mem hs rfl) hs) execSessionClose_keeps) ?_
      exact refuse_inv (ite_inv (inv_of_mem hs rfl) hs)
  · exact ite_inv (inv_of_mem hs rfl) (inv_of_mem hs rfl)
  · refine ite_inv (inv_of_mem hs rfl) ?_
    refine ite_inv (inv_of_mem hs rfl) ?_
    refine ite_inv (inv_of_mem hs rfl) ?_
    exact ite_inv (after_inv hs execRecontrib_keeps) (after_inv hs execExclude_keeps)
  · exact ite_inv (inv_of_mem hs rfl) (inv_of_mem hs rfl)
  · exact ite_inv (inv_of_mem hs rfl) (inv_of_mem hs rfl)
  · exact ite_inv (inv_of_mem hs rfl) (inv_of_mem hs rfl)
  · exact ite_inv (inv_of_mem hs rfl) (inv_of_mem hs rfl)
  · refine ite_inv ?_ (inv_of_mem hs rfl)
    refine ite_inv (inv_of_mem hs rfl) ?_
    refine ite_inv (inv_of_mem hs rfl) ?_
    exact ite_inv (after_inv hs execWithdraw_keeps) (after_inv hs execReopen_keeps)

theorem State.writePlatform_inv {inst word : Nat} {v : W64} (hs : s.Inv) : (s.writePlatform inst word v).Inv := by
  unfold State.writePlatform
  refine ite_inv (ite_inv (inv_of_mem hs rfl) (inv_of_mem hs rfl)) ?_
  refine ite_inv (ite_inv (inv_of_mem hs rfl) (inv_of_mem hs rfl)) ?_
  refine ite_inv (inv_of_mem hs rfl) ?_
  exact ite_inv (inv_of_mem hs rfl) (inv_of_mem hs rfl)

theorem State.catWrite_inv {key v : W64} (hs : s.Inv) : (s.catWrite key v).Inv := by
  unfold State.catWrite
  refine ite_inv (inv_of_mem hs rfl) ?_
  split
  · split
    · exact writeSeqWord_inv hs
    · exact inv_of_mem hs rfl
  · exact ite_inv (after_inv hs execCoreRetire_keeps) (inv_of_mem hs rfl)
  · refine ite_inv (inv_of_mem hs rfl) ?_
    split
    · exact after_inv hs execChannelResume_keeps
    · exact after_inv hs execChannelDrop_keeps
    · exact after_inv hs execChannelKill_keeps
    · exact inv_of_mem hs rfl
  · exact writeTrans_inv hs
  · exact writeQueue_inv hs
  · exact writeStore_inv hs
  · exact writeColl_inv hs
  · exact ite_inv (after_inv hs execCountWrite_keeps) (inv_of_mem hs rfl)
  · exact writeGroup_inv hs
  · exact writeSession_inv hs
  · split
    · exact writeDis_inv hs
    · exact inv_of_mem hs rfl
    · exact inv_of_mem hs rfl
  · exact ite_inv (inv_of_mem hs rfl) (after_inv hs execWlWrite_keeps)
  · exact writePlatform_inv hs
  · exact inv_of_mem hs rfl
  · exact inv_of_mem hs rfl

end Sys2Proof.Machine
end

section
/-! PROOFS. Memory stays canonical: the host port. -/

namespace Sys2Proof.Machine

open State

variable {s : State}

/-! ### Datagrams (R379, R380) -/

theorem State.plainReply_inv {d : Datagram} {status : Byte} (hs : s.Inv) : (s.plainReply d status).Inv :=
  inv_of_mem hs rfl

theorem State.retransmit_inv {n : Nat} {q : W32} (hs : s.Inv) : (s.retransmit n q).Inv := by
  unfold State.retransmit
  dsimp only
  split
  · exact hs
  · exact ite_inv (inv_of_mem hs rfl) (inv_of_mem hs rfl)

theorem State.takeAck_inv {n : Nat} {d : Datagram} (hs : s.Inv) : (s.takeAck n d).Inv :=
  foldl_inv (foldl_inv (inv_of_mem hs rfl) (fun _ _ ht => ite_inv ht (inv_of_mem ht rfl)))
    (fun _ _ ht => ite_inv (retransmit_inv ht) ht)

/-! ### The operations (Table 18.2) -/

theorem State.freezeConn_inv {n : Nat} {tag : W64} {code : BitVec 8} {va : W64} (hs : s.Inv) :
    (s.freezeConn n tag code va).Inv :=
  reply_inv (post_inv _ _ (inv_of_mem hs rfl))

theorem State.doMread_inv {n : Nat} {d : Datagram} (hs : s.Inv) : (s.doMread n d).Inv := by
  unfold State.doMread
  refine ite_inv (reply_inv hs) ?_
  split
  · exact freezeConn_inv hs
  · dsimp only
    split <;> exact reply_inv (noteAll_inv hs)

theorem State.hostPieces_inv {n req k : Nat} {ps : List (W64 × Nat)} {bs : List Byte} (hs : s.Inv) :
    (s.hostPieces n req ps bs k).1.Inv := by
  induction ps generalizing s bs k with
  | nil => exact hs
  | cons q ps ih =>
    have hp := fun p : HostPart => hostPiece_inv (p := p) hs
    unfold State.hostPieces
    dsimp only
    split
    · next t e => cases e ▸ hp _ with | waits ht => exact ih ht
    · next t e => cases e ▸ hp _ with | done ht => exact ih ht
    · exact ih (parkHost_inv hs)

theorem State.doMwrite_inv {n : Nat} {d : Datagram} (hs : s.Inv) : (s.doMwrite n d).Inv := by
  unfold State.doMwrite
  refine ite_inv (reply_inv hs) ?_
  split
  · exact freezeConn_inv hs
  · dsimp only
    split
    · next t e =>
      have ht := inv_of_fst e (hostPieces_inv (touchAll_inv (inv_of_mem hs rfl)))
      exact reply_inv ht
    · next t _ e =>
      have ht := inv_of_fst e (hostPieces_inv (touchAll_inv (inv_of_mem hs rfl)))
      exact inv_of_mem ht rfl

theorem State.doSubmit_inv {n : Nat} {d : Datagram} (hs : s.Inv) : (s.doSubmit n d).Inv :=
  ite_inv (reply_inv hs) (ite_inv (reply_inv hs) (inv_of_mem hs rfl))

theorem State.readKeys_inv {ks : List W64} (hs : s.Inv) : (s.readKeys ks).2.Inv := by
  induction ks generalizing s with
  | nil => exact hs
  | cons k ks ih =>
    unfold State.readKeys
    have hk : (if (keyOf k).pkg = s.pkg then s.catRead k else (some (Config.catWord s.freeCtr k), s)).2.Inv := by
      split
      · exact catRead_inv hs
      · exact hs
    exact ih hk

theorem State.doCatread_inv {n : Nat} {d : Datagram} (hs : s.Inv) : (s.doCatread n d).Inv :=
  ite_inv (reply_inv hs) (reply_inv (readKeys_inv hs))

theorem State.writePairs_inv {ps : List (W64 × W64)} (hs : s.Inv) : (s.writePairs ps).2.Inv := by
  induction ps generalizing s with
  | nil => exact hs
  | cons p ps ih => exact ih (catWrite_inv hs)

theorem State.doCatwrite_inv {n : Nat} {d : Datagram} (hs : s.Inv) : (s.doCatwrite n d).Inv :=
  ite_inv (reply_inv hs) (reply_inv (writePairs_inv hs))

theorem State.doImage_inv {n : Nat} {d : Datagram} (hs : s.Inv) : (s.doImage n d).Inv := by
  unfold State.doImage
  refine ite_inv (reply_inv hs) ?_
  dsimp only
  split
  · exact reply_inv (inv_of_mem hs rfl)
  · refine ite_inv (reply_inv (inv_of_mem hs rfl)) ?_
    exact reply_inv (inv_of_mem hs rfl)

theorem State.doAttest_inv {n : Nat} {d : Datagram} (hs : s.Inv) : (s.doAttest n d).Inv :=
  ite_inv (reply_inv hs) (reply_inv hs)

theorem State.finishConn_inv {n : Nat} (hs : s.Inv) : (s.finishConn n).Inv := inv_of_mem hs rfl

theorem State.runRequest_inv {n : Nat} {d : Datagram} (hs : s.Inv) : (s.runRequest n d).Inv := by
  unfold State.runRequest
  refine ite_inv (reply_inv hs) ?_
  refine ite_inv (reply_inv hs) ?_
  refine ite_inv (reply_inv hs) ?_
  split
  · exact finishConn_inv (reply_inv hs)
  · exact doSubmit_inv hs
  · exact doMread_inv hs
  · exact doMwrite_inv hs
  · exact doCatread_inv hs
  · exact doCatwrite_inv hs
  · exact doImage_inv hs
  · exact doAttest_inv hs
  · exact reply_inv hs

/-! ### Receiving (R380, R381) -/

theorem State.pump_inv {n k : Nat} (hs : s.Inv) : (s.pump n k).Inv := by
  induction k generalizing s with
  | zero => exact hs
  | succ k ih =>
    unfold State.pump
    dsimp only
    split
    · exact hs
    · split
      · exact hs
      · exact ih (runRequest_inv (modConn_inv hs))

theorem State.sequenced_inv {n : Nat} {d : Datagram} (hs : s.Inv) : (s.sequenced n d).Inv :=
  pump_inv (inv_of_mem hs rfl)

theorem State.openConn_inv {d : Datagram} (hs : s.Inv) : (s.openConn d).Inv := by
  unfold State.openConn
  refine ite_inv (reply_inv (inv_of_mem hs rfl)) ?_
  refine ite_inv (inv_of_mem hs rfl) ?_
  refine ite_inv (inv_of_mem hs rfl) ?_
  exact ite_inv (inv_of_mem hs rfl) (reply_inv (inv_of_mem hs rfl))

theorem State.closingArrive_inv {n : Nat} {d : Datagram} (hs : s.Inv) : (s.closingArrive n d).Inv := by
  unfold State.closingArrive
  refine ite_inv (modConn_inv (takeAck_inv hs)) ?_
  refine ite_inv (takeAck_inv hs) ?_
  refine ite_inv (modConn_inv (takeAck_inv hs)) ?_
  exact plainReply_inv (takeAck_inv hs)

theorem State.hostArrive_inv {d : Datagram} (hs : s.Inv) : (s.hostArrive d).Inv := by
  unfold State.hostArrive
  refine ite_inv hs ?_
  refine ite_inv (inv_of_mem hs rfl) ?_
  refine ite_inv (openConn_inv hs) ?_
  refine ite_inv (closingArrive_inv hs) ?_
  refine ite_inv (inv_of_mem hs rfl) ?_
  refine ite_inv (inv_of_mem hs rfl) ?_
  refine ite_inv (pump_inv (takeAck_inv hs)) ?_
  exact ite_inv (sequenced_inv (takeAck_inv hs)) (takeAck_inv hs)

theorem State.hostOp_inv {op : Byte} {d : Datagram} (hs : s.Inv) : (s.hostOp op d).Inv :=
  ite_inv (hostArrive_inv hs) hs

theorem execDatagramDrop_keeps {d : Datagram} : Keeps s (execDatagramDrop d s) := by
  unfold execDatagramDrop
  refine .next fun hs => ?_
  refine ite_inv hs ?_
  exact ite_inv (inv_of_mem hs rfl) (ite_inv (hostArrive_inv hs) hs)

end Sys2Proof.Machine
end

section
/-! PROOFS. Memory stays canonical: the forms of the scalar, address and predicate instructions. -/

namespace Sys2Proof.Machine

open State

variable {s : State}

/-! ### Shared forms -/

theorem State.alu2_inv {d a b : BitVec 5} {f : W32 → W32 → W32} (hs : s.Inv) : (s.alu2 d a b f).Inv := wg_inv hs

theorem State.alu1_inv {d a : BitVec 5} {f : W32 → W32} (hs : s.Inv) : (s.alu1 d a f).Inv := wg_inv hs

theorem State.cmp_inv {k : BitVec 3} {a b : BitVec 5} {c : W32 → W32 → Bool} (hs : s.Inv) : (s.cmp k a b c).Inv :=
  wk_inv hs

theorem State.pred2_inv {d a b : BitVec 3} {f : W64 → W64 → W64} (hs : s.Inv) : (s.pred2 d a b f).Inv := wk_inv hs

theorem State.pred1_inv {d a : BitVec 3} {f : W64 → W64} (hs : s.Inv) : (s.pred1 d a f).Inv := wk_inv hs

/-! ### Address bases (R94, R95) -/

theorem execSpb_keeps {d : BitVec 3} {a : BitVec 5} : Keeps s (execSpb d a s) := by
  unfold execSpb
  dsimp only
  split
  · exact .next fun hs => raise_inv _ _ hs
  · exact .next fun hs => inv_of_mem hs rfl

end Sys2Proof.Machine
end

section
/-! PROOFS. Memory stays canonical: the micro-ops of matrix routines. -/

namespace Sys2Proof.Machine

open State

variable {s : State}

/-! ### The running call -/

theorem State.uopDone_inv (hs : s.Inv) : s.uopDone.Inv := by
  unfold State.uopDone
  split
  · exact hs
  · exact inv_of_mem hs rfl

theorem State.uop_inv {go : Routine → Seqr → State → State} (hs : s.Inv) (hg : ∀ a b t, t.Inv → (go a b t).Inv) :
    (s.uop go).Inv := by
  unfold State.uop
  split
  · refine ite_inv hs ?_
    split
    · exact hs
    · exact hg _ _ _ hs
  · exact hs

theorem State.uopStop_inv {code : BitVec 8} (hs : s.Inv) : (s.uopStop code).Inv := inv_of_mem hs rfl

theorem State.uopTile_inv {r : Routine} {q : Seqr} {ts : BitVec 4} {ro : Bool} {go : Nat → State → State} (hs : s.Inv)
    (hg : ∀ a t, t.Inv → (go a t).Inv) : (s.uopTile r q ts ro go).Inv := by
  unfold State.uopTile
  dsimp only
  split
  · exact ite_inv (hg _ _ hs) (inv_of_mem hs rfl)
  · exact inv_of_mem hs rfl

theorem State.keepWalk_inv {d : Nat} {w : Walk} (hs : s.Inv) : (s.keepWalk d w).Inv := inv_of_mem hs rfl

theorem State.uopWalks_inv {r : Routine} {desc : BitVec 3} {swz : BitVec 8} {fmt : BitVec 4} {mm : BitVec 3}
    {go : Walk → Option Walk → State → State} (hs : s.Inv) (hg : ∀ a b t, t.Inv → (go a b t).Inv) :
    (s.uopWalks r desc swz fmt mm go).Inv := by
  unfold State.uopWalks
  split
  · exact inv_of_mem hs rfl
  · split
    · exact inv_of_mem hs rfl
    · refine ite_inv (hg _ _ _ hs) ?_
      split
      · exact inv_of_mem hs rfl
      · split
        · exact inv_of_mem hs rfl
        · exact hg _ _ _ hs

/-! ### Entries -/

theorem State.keepWalks_inv {desc : BitVec 3} {w : Walk} {w' : Option Walk} (hs : s.Inv) :
    (s.keepWalks desc w w').Inv := by
  unfold State.keepWalks
  dsimp only
  split <;> exact inv_of_mem hs rfl

theorem State.noteWalks_inv {q : Seqr} {r : Routine} {desc : BitVec 3} {fmt : BitVec 4} {mm : BitVec 3} {k : Nat}
    (hs : s.Inv) : (s.noteWalks q r desc fmt mm k).Inv :=
  noteAll_inv hs

/-! ### Tiles and flags -/

theorem execZero_keeps {ts : BitVec 4} {kind am : BitVec 1} {anc : BitVec 10} : Keeps s (execZero ts kind am anc s) :=
  .next fun hs => uop_inv hs (fun _ _ _ ht => uopTile_inv
    ht (fun _ _ hu => ite_inv hu (uopDone_inv (inv_of_mem hu rfl))))

theorem execAnchor_keeps {ts : BitVec 4} {am : BitVec 1} {anc : BitVec 10} : Keeps s (execAnchor ts am anc s) := by
  unfold execAnchor
  refine .next fun hs => ?_
  refine uop_inv hs (fun _ _ _ ht => ?_)
  refine uopTile_inv ht (fun _ _ hu => ?_)
  refine ite_inv (inv_of_mem hu rfl) ?_
  refine ite_inv hu ?_
  exact ite_inv (inv_of_mem hu rfl) (uopDone_inv (inv_of_mem hu rfl))

theorem execLoadb_keeps {fmt : BitVec 4} {mm : BitVec 3} {swz : BitVec 8} {desc : BitVec 3} :
    Keeps s (execLoadb fmt mm swz desc s) := by
  unfold execLoadb
  refine .next fun hs => ?_
  refine uop_inv hs (fun _ _ _ ht => ?_)
  split
  · exact inv_of_mem ht rfl
  · refine ite_inv (inv_of_mem ht rfl) ?_
    refine uopWalks_inv ht (fun _ _ _ hu => ?_)
    split
    · exact hu
    · exact inv_of_mem hu rfl
    · exact uopDone_inv (modRoutine_inv (keepWalks_inv (noteWalks_inv hu)))

theorem execStreama_keeps {fmt : BitVec 4} {mm : BitVec 3} {swz : BitVec 8} {desc : BitVec 3} {ts : BitVec 4}
    {row0 nr : BitVec 7} {s5 : BitVec 1} : Keeps s (execStreama fmt mm swz desc ts row0 nr s5 s) := by
  unfold execStreama
  refine .next fun hs => ?_
  refine uop_inv hs (fun _ _ _ ht => ?_)
  refine uopTile_inv ht (fun _ _ hu => ?_)
  split
  · exact inv_of_mem hu rfl
  · refine ite_inv (inv_of_mem hu rfl) ?_
    refine ite_inv (inv_of_mem hu rfl) ?_
    split
    · exact inv_of_mem hu rfl
    · refine uopWalks_inv hu (fun _ _ _ hw => ?_)
      dsimp only
      split
      · exact uopDone_inv (modRoutine_inv (keepWalks_inv (noteWalks_inv hw)))
      · exact modRoutine_inv (keepWalks_inv (noteWalks_inv hw))
      · exact uopStop_inv (modRoutine_inv (keepWalks_inv (noteWalks_inv hw)))

theorem execAcc_keeps {td tsrc : BitVec 4} {row0 nr : BitVec 7} : Keeps s (execAcc td tsrc row0 nr s) := by
  unfold execAcc
  refine .next fun hs => ?_
  refine uop_inv hs (fun _ _ _ ht => ?_)
  refine uopTile_inv ht (fun _ _ hu => ?_)
  refine uopTile_inv hu (fun _ _ hw => ?_)
  refine ite_inv (inv_of_mem hw rfl) ?_
  refine ite_inv hw ?_
  exact ite_inv (inv_of_mem hw rfl) (uopDone_inv (inv_of_mem hw rfl))

theorem execHad_keeps {ts : BitVec 4} {row0 nr : BitVec 7} : Keeps s (execHad ts row0 nr s) := by
  unfold execHad
  refine .next fun hs => ?_
  refine uop_inv hs (fun _ _ _ ht => ?_)
  refine uopTile_inv ht (fun _ _ hu => ?_)
  refine ite_inv (inv_of_mem hu rfl) ?_
  refine ite_inv hu ?_
  exact ite_inv (inv_of_mem hu rfl) (uopDone_inv (inv_of_mem hu rfl))

/-! ### Drains (R62, R278) -/

theorem State.sendPiece_inv {q : Seqr} {gaddr : W64} {w : Walk} {p : LandPiece} {last : Bool} (hs : s.Inv) :
    (s.sendPiece q gaddr w p last).Inv :=
  sendFar_inv (inv_of_mem hs rfl)

theorem State.drainEntry_inv {q : Seqr} {gaddr : W64} {d : Nat} {w : Walk} {bs : List Byte} (hs : s.Inv) :
    SomeInv (s.drainEntry q gaddr d w bs) := by
  unfold State.drainEntry
  dsimp only
  split
  · exact .none
  · split
    · exact .none
    · split
      · exact .none
      · exact .some (keepWalk_inv (foldl_inv (touchAll_inv hs) (fun _ _ ht => sendPiece_inv ht)))

theorem State.drainNext_inv {q : Seqr} {gaddr : W64} {t : Tile} {fmt : BitVec 4} {m mode pol d row0 n : Nat}
    (hs : s.Inv) : (s.drainNext q gaddr t fmt m mode pol d row0 n).Inv := by
  unfold State.drainNext
  dsimp only
  split
  · exact hs
  · split
    · exact uopStop_inv hs
    · split
      · exact uopStop_inv hs
      · split
        · exact uopStop_inv hs
        · split
          · exact uopStop_inv hs
          · next u e =>
            have hu := inv_of_some e (drainEntry_inv hs)
            split
            · exact uopStop_inv hu
            · next v e' =>
              have hv : v.Inv := by
                split at e'
                · cases e'; exact hu
                · obtain ⟨w, -, hw⟩ := Option.bind_eq_some_iff.mp e'
                  exact inv_of_some hw (drainEntry_inv hu)
              exact ite_inv (uopDone_inv (modRoutine_inv hv)) (modRoutine_inv hv)

theorem execDrain_keeps {ts ofmt : BitVec 4} {mm rm : BitVec 3} {po : BitVec 2} {pd : BitVec 1} {desc : BitVec 3}
    {row0 nr : BitVec 7} {swz : BitVec 8} : Keeps s (execDrain ts ofmt mm rm po pd desc row0 nr swz s) := by
  unfold execDrain
  refine .next fun hs => ?_
  refine uop_inv hs (fun _ _ _ ht => ?_)
  refine uopTile_inv ht (fun _ _ hu => ?_)
  refine ite_inv (inv_of_mem hu rfl) ?_
  refine ite_inv hu ?_
  split
  · exact inv_of_mem hu rfl
  · exact uopWalks_inv hu (fun _ _ _ hw => drainNext_inv hw)

theorem execUopLoop_keeps {len : BitVec 12} {cm : BitVec 1} {count : W32} : Keeps s (execUopLoop len cm count s) :=
  .next fun hs => uop_inv hs (fun _ _ _ ht => ite_inv (inv_of_mem ht rfl) (inv_of_mem ht rfl))

theorem State.ranAhead_inv {t : State} {n p : Nat} (ht : t.Inv) : (s.ranAhead t n p).Inv := by
  unfold State.ranAhead
  split
  · exact ht
  · exact modRoutine_inv ht

end Sys2Proof.Machine
end

section
/-! PROOFS. Memory stays canonical: an instruction. -/

namespace Sys2Proof.Machine

open State

variable {s : State}

/-- Every instruction, micro-op and event answers a next state, and keeps memory canonical. -/
theorem exec_keeps {i : Instr} : Keeps s (exec i s) := by
  cases i with
  | add | sub | mul | mulh | mulhn | div | divn | rem | remn | and | or | xor | shl | shr | sra | rotl | min | max
  | minn | maxn => exact .next alu2_inv
  | clz | ctz | popc | mov | addi | andi | ori | xori | shli | shri | srai => exact .next alu1_inv
  | sel | lhi | movbLo | movbHi | ktoLo | ktoHi | svget | tmask => exact .next wg_inv
  | cmpEq | cmpNe | cmpLt | cmpLe | cmpLtn | cmpLen => exact .next cmp_inv
  | addb | movb | ptime | replayWindowEnd | powerControl | creditReturn | remoteAccessWindowEnd =>
    exact .next fun hs => inv_of_mem hs rfl
  | spb => exact execSpb_keeps
  | kand | kor | kxor => exact .next pred2_inv
  | knot | kmov => exact .next pred1_inv
  | kfrom => exact .next wk_inv
  | nop => exact .next id
  | sessionTimeout => exact execSessionTimeout_keeps
  | br | bra | call => exact .next fun hs => ite_inv (inv_of_mem hs rfl) (inv_of_mem hs rfl)
  | lbrk => exact execLbrk_keeps
  | loop => exact execLoop_keeps
  | brl | brlRot => exact .next closeIter_inv
  | jr | ret => exact .next jumpTo_inv
  | lidx => exact execLidx_keeps
  | trap => exact .next fun hs => raise_inv _ _ hs
  | eret => exact .next fun hs => supOnly_inv hs (fun _ ht => inv_of_mem ht rfl)
  | mfc => exact .next fun hs => ite_inv (raise_inv _ _ hs) (wg_inv (wg_inv hs))
  | mtc => exact execMtc_keeps
  | rdst => exact execRdst_keeps
  | freeze => exact execFreeze_keeps
  | thaw => exact execThaw_keeps
  | yield | wlChangeDone | ackTimer | trip => exact .next fun hs => ite_inv (inv_of_mem hs rfl) hs
  | sleep => exact execSleep_keeps
  | exit => exact execExit_keeps
  | ldI8 | ldN8 | ldI16 | ldN16 | ldW => exact .next fun hs => loadScalar_inv hs (fun _ _ _ ht => wg_inv ht)
  | ldb => exact .next fun hs => loadScalar_inv hs (fun _ _ _ ht => inv_of_mem ht rfl)
  | ldfe => exact execLdfe_keeps
  | ldv => exact execLdv_keeps
  | stB | stH | stW | stb => exact .next storeScalar_inv
  | stv => exact execStv_keeps
  | stm => exact execStm_keeps
  | stvMc => exact execStvMc_keeps
  | vgath => exact execVgath_keeps
  | vscat => exact execVscat_keeps
  | stAcc => exact execStAcc_keeps
  | stvAcc => exact execStvAcc_keeps
  | mkfull | mkempty => exact .next markLine_inv
  | fecheck => exact execFecheck_keeps
  | swarm => exact execSwarm_keeps
  | swait => exact execSwait_keeps
  | fbind => exact execFbind_keeps
  | funbind => exact execFunbind_keeps
  | fdrain => exact execFdrain_keeps
  | fence => exact execFence_keeps
  | sfence => exact execSfence_keeps
  | tbind => exact .next fun hs => hold_inv _ hs (ite_inv (stall_inv _ hs) hs)
  | tclr => exact execTclr_keeps
  | vadd | vsub | vmul => exact .next vfp2_inv
  | vfma | vfms => exact .next vfp3_inv
  | vneg | vabs | vmin | vmax | vrcp | vrsq | vexp2 | vlog2 => exact .next vfpq_inv
  | vsel => exact execVsel_keeps
  | vcmp => exact execVcmp_keeps
  | vaddI32 | vsubI32 | vmulI32 | vshlI32 | vshrI32 | vsraI32 | vaddN32 | vsubN32 | vmulN32 | vshlN32 | vshrN32
  | vsraN32 | vaddI16 | vsubI16 | vmulI16 | vshlI16 | vshrI16 | vsraI16 | vaddI8 | vsubI8 | vmulI8 | vshlI8 | vshrI8
  | vsraI8 => exact .next vint_inv
  | vand | vor | vxor | vnot | vmov | vperm | vrotl | vbcast | vzip | vunzip => exact .next vbits_inv
  | vcvt | vhad => exact .next vplain_inv
  | vqBfp => exact execVqBfp_keeps
  | vdqBfp => exact execVdqBfp_keeps
  | vext => exact execVext_keeps
  | vins => exact execVins_keeps
  | vredsum | vredmax | vredmin => exact .next vreduce_inv
  | vtag => exact .next fun hs => withCodes_inv _ hs (fun _ _ ht => writeCode_inv _ _ ht)
  | xchain => exact execXchain_keeps
  | xstat => exact execXstat_keeps
  | xkill => exact execXkill_keeps
  | xrmw => exact execXrmw_keeps
  | mcall => exact execMcall_keeps
  | mpset => exact .next fun hs => mx_inv hs (fun _ ht => inv_of_mem ht rfl)
  | mzero => exact execMzero_keeps
  | manch => exact execManch_keeps
  | zld | zst => exact .next fun hs => mxTile_inv hs (fun _ _ ht => moveTile_inv ht)
  | mrload => exact execMrload_keeps
  | mstat => exact execMstat_keeps
  | cset => exact execCset_keeps
  | csend | creduce | cbcast => exact .next collSend_inv
  | crecv => exact execCrecv_keeps
  | liftarm => exact execLiftarm_keeps
  | liftdisarm => exact execLiftdisarm_keeps
  | ctrig => exact execCtrig_keeps
  | crnew => exact execCrnew_keeps
  | crjoin => exact execCrjoin_keeps
  | crleave => exact execCrleave_keeps
  | crfree => exact execCrfree_keeps
  | phreg | phdrop =>
    exact .next fun hs => withCrew_inv hs (fun _ _ ht => ite_inv (raise_inv _ _ ht) (advanceCrew_inv ht))
  | phsig => exact execPhsig_keeps
  | phwait => exact execPhwait_keeps
  | launch => exact execLaunch_keeps
  | lstat => exact .next fun hs => eslot_inv hs (fun _ ht => wg_inv ht)
  | mte => exact execMte_keeps
  | mfe => exact .next fun hs => eslot_inv hs (fun _ ht => wg_inv (wg_inv ht))
  | zero => exact execZero_keeps
  | anchor => exact execAnchor_keeps
  | loadb => exact execLoadb_keeps
  | streama => exact execStreama_keeps
  | acc => exact execAcc_keeps
  | trans => exact .next fun hs => uop_inv hs (fun _ _ _ ht => uopDone_inv (inv_of_mem ht rfl))
  | had => exact execHad_keeps
  | drain => exact execDrain_keeps
  | waitf => exact .next fun hs => uop_inv hs (fun _ _ _ ht => ite_inv ht (uopDone_inv ht))
  | uopLoop => exact execUopLoop_keeps
  | groupIssue => exact execGroupIssue_keeps
  | loadReturn => exact execLoadReturn_keeps
  | storeArrive => exact .next fun hs => ite_inv hs (arriveVia_inv hs)
  | storeAck => exact execStoreAck_keeps
  | heldNotice => exact execHeldNotice_keeps
  | streamHeld => exact execStreamHeld_keeps
  | xrmwApply => exact .next fun hs => ite_inv (arriveVia_inv hs) hs
  | recordClaim => exact execRecordClaim_keeps
  | footprintRegister => exact execFootprintRegister_keeps
  | unitArrive => exact execUnitArrive_keeps
  | unitAck => exact execUnitAck_keeps
  | recordReturn => exact execRecordReturn_keeps
  | channelFault => exact execChannelFault_keeps
  | killComplete => exact execKillComplete_keeps
  | channelResume => exact execChannelResume_keeps
  | channelDrop => exact execChannelDrop_keeps
  | channelKill => exact execChannelKill_keeps
  | feedFill => exact execFeedFill_keeps
  | feedDrainWrite => exact execFeedDrainWrite_keeps
  | matrixCommandTurn => exact execMatrixCommandTurn_keeps
  | routineStart => exact execRoutineStart_keeps
  | contributionLand => exact execContributionLand_keeps
  | routineComplete => exact execRoutineComplete_keeps
  | routineLimit => exact execRoutineLimit_keeps
  | messageSend => exact execMessageSend_keeps
  | messageLand => exact .next landMessage_inv
  | messageAck => exact execMessageAck_keeps
  | countWrite => exact execCountWrite_keeps
  | cardTake => exact execCardTake_keeps
  | jobAdmit => exact execJobAdmit_keeps
  | place => exact execPlace_keeps
  | contextSwitch => exact execContextSwitch_keeps
  | longiterExpiry => exact execLongiterExpiry_keeps
  | park => exact execPark_keeps
  | contextSave => exact execContextSave_keeps
  | wake => exact execWake_keeps
  | sleepExpiry => exact execSleepExpiry_keeps
  | gangWake => exact execGangWake_keeps
  | deadlineOverrun => exact execDeadlineOverrun_keeps
  | coreRetire => exact execCoreRetire_keeps
  | registerWrite => exact .next catWrite_inv
  | flitReceive => exact execFlitReceive_keeps
  | nakReceive => exact execNakReceive_keeps
  | replayTimeout => exact execReplayTimeout_keeps
  | totalsSend | errorWindowEnd | stepDown | stepUp | burst | linkTraining =>
    exact .next fun hs => ite_inv hs (inv_of_mem hs rfl)
  | totalsReceive => exact .next fun hs => ite_inv hs (sendReady_inv (inv_of_mem hs rfl))
  | correctedErrorPost => exact .next fun hs => ite_inv hs (post_inv _ _ (inv_of_mem hs rfl))
  | retrain => exact .next fun hs => ite_inv hs (reroute_inv (inv_of_mem hs rfl))
  | trainingEnd => exact execTrainingEnd_keeps
  | routeTimeout => exact execRouteTimeout_keeps
  | timingFlit => exact execTimingFlit_keeps
  | wlWrite => exact execWlWrite_keeps
  | multicastArrive => exact execMulticastArrive_keeps
  | multicastAck => exact execMulticastAck_keeps
  | sessionOpen => exact execSessionOpen_keeps
  | sessionClose => exact execSessionClose_keeps
  | slotStore => exact execSlotStore_keeps
  | sessionValue => exact execSessionValue_keeps
  | sessionForwardTimeout => exact execSessionForwardTimeout_keeps
  | roundend => exact .next fun hs => received_inv hs (fun _ ht => roundEnd_inv ht)
  | closePacket => exact .next fun hs => received_inv hs (fun _ ht => closeSlots_inv ht)
  | withdraw => exact execWithdraw_keeps
  | reopen => exact execReopen_keeps
  | withdrawMarker => exact execWithdrawMarker_keeps
  | recontrib => exact execRecontrib_keeps
  | exclude => exact execExclude_keeps
  | staleReturn => exact execStaleReturn_keeps
  | flush => exact execFlush_keeps
  | migrationStart => exact execMigrationStart_keeps
  | migrationSwitch => exact execMigrationSwitch_keeps
  | migrationApply => exact execMigrationApply_keeps
  | migrationCandidate => exact execMigrationCandidate_keeps
  | headWrite => exact execHeadWrite_keeps
  | recordRetry => exact execRecordRetry_keeps
  | recordDrop => exact execRecordDrop_keeps
  | connectionThaw => exact execConnectionThaw_keeps
  | memoryError => exact execMemoryError_keeps
  | patrolScrub => exact execPatrolScrub_keeps
  | hostOpen | hostClose | hostSubmit | hostMread | hostMwrite | hostCatread | hostCatwrite | hostImage | hostAttest
  | hostAck => exact .next hostOp_inv
  | retransmitTimeout => exact .next retransmit_inv
  | pkgReset => exact execPkgReset_keeps
  | powerLoss => exact execPowerLoss_keeps
  | tempSample | hbmTempChange => exact .next fun hs => ite_inv hs (evsync_inv (inv_of_mem hs rfl))
  | linkDown => exact .next fun hs => ite_inv (portLost_inv (inv_of_mem hs rfl)) hs
  | matrixCommandComplete => exact execMatrixCommandComplete_keeps
  | copyTrafficLand => exact execCopyTrafficLand_keeps
  | jobEndBySystemSoftware => exact execJobEndBySystemSoftware_keeps
  | datagramDrop => exact execDatagramDrop_keeps

end Sys2Proof.Machine
end

section
/-! PROOFS. Memory stays canonical: groups, the queues that lag, the end of a step and the actions of the agenda. -/

namespace Sys2Proof.Machine

open State

variable {s : State}

/-! ### Groups that end or wait, and late work -/

theorem State.commit_inv {t : State} {brl : Bool} (ht : t.Inv) : (t.commit brl).Inv :=
  ite_inv (departNow_inv (modCore_inv (inv_of_mem ht rfl))) (modCore_inv (inv_of_mem ht rfl))

theorem State.noteWait_inv {x : Wait} (hs : s.Inv) : (s.noteWait x).Inv := by
  unfold State.noteWait
  split
  · exact queueLdfe_inv hs
  · exact markWaiting_inv hs
  · exact hs

theorem State.waitAt_inv {w : Wait} (hs : s.Inv) : (s.waitAt w).Inv := by
  unfold State.waitAt
  refine ite_inv (parkSeq_inv (recordWait_inv (noteWait_inv (inv_of_mem hs rfl)))) ?_
  exact recordWait_inv (noteWait_inv (inv_of_mem hs rfl))

theorem State.perform_inv {before : List Late} {x : LateWork} (hs : s.Inv) : SomeInv (s.perform before x) := by
  unfold State.perform
  split
  · refine SomeInv.ite ?_
    dsimp only [State.Inv]
    exact ite_inv (accept_inv (inv_of_mem hs rfl)) (putStore_inv (inv_of_mem hs rfl))
  · dsimp only
    split
    · next t e =>
      have ht := exec_keeps.of_next e (inv_of_mem hs rfl)
      split
      · exact .some (inv_of_mem ht rfl)
      · exact .some (inv_of_mem ht rfl)
      · exact .none
    · exact .none

theorem State.performAll_inv {p : LateWork → Bool} {kept ls : List Late} (hs : s.Inv) :
    (s.performAll p kept ls).1.Inv := by
  induction ls generalizing s kept with
  | nil => exact inv_of_mem hs rfl
  | cons l ls ih =>
    unfold State.performAll
    split
    · exact ih hs
    · split
      · next t e =>
        have ht := inv_of_some e (perform_inv hs)
        split
        · exact ih ht
        · exact inv_of_mem ht rfl
      · exact inv_of_mem hs rfl

theorem State.flushLate_inv (hs : s.Inv) : s.flushLate.1.Inv := by
  unfold State.flushLate
  split
  · next t e => exact inv_of_fst e (performAll_inv hs)
  · next t e => exact performAll_inv (inv_of_fst e (performAll_inv hs))

/-! ### Groups -/

/-- A run of the members of a group answers, and keeps memory canonical. -/
def MembersKeep (s : State) (x : Except (Fault ⊕ Refusal) Members) : Prop := ∃ m, x = .ok m ∧ (s.Inv → m.state.Inv)

theorem runMembers_keep {w : Option (Wait × Bool)} {q : List (Nat × BitVec 3 × Instr)} :
    MembersKeep s (runMembers w q s) := by
  induction q generalizing w s with
  | nil => exact ⟨_, rfl, id⟩
  | cons member ms ih =>
    obtain ⟨p, sl, i⟩ := member
    have rest {u : State} {w' : Option (Wait × Bool)} (hu : s.Inv → u.Inv) : MembersKeep s (runMembers w' ms u) := by
      obtain ⟨m, e, hm⟩ := ih (w := w') (s := u)
      exact ⟨m, e, hm ∘ hu⟩
    obtain ⟨t, e, ht⟩ :=
      exec_keeps (i := i) (s := { s with issue := { s.issue with pos := p, slot := sl, taken := 0 } })
    simp only [runMembers, e]
    split
    · exact rest fun hs => ht (inv_of_mem hs rfl)
    · exact ⟨_, rfl, fun hs => ht (inv_of_mem hs rfl)⟩
    · split
      · exact rest fun hs => inv_of_mem hs rfl
      · exact rest fun hs => inv_of_mem hs rfl

/-- The state in which a group ends. -/
def GroupEnd.state : GroupEnd → State
  | .done s | .trapped s | .waits s => s

/-- The trial of a group answers, and keeps memory canonical. -/
def TrialKeeps (s : State) (x : Except (Fault ⊕ Refusal) GroupEnd) : Prop := ∃ e, x = .ok e ∧ (s.Inv → e.state.Inv)

theorem State.tryGroup_keeps {g : State} : TrialKeeps g g.tryGroup := by
  obtain ⟨m, e, hm⟩ := runMembers_keep (w := none) (q := g.issue.queue) (s := { g with
    issue := { g.issue with queue := [] }
    ctx := { g.ctx with bankstall := satAdd g.ctx.bankstall g.issue.bankCycles } })
  simp only [State.tryGroup, e]
  split
  · exact ⟨_, rfl, fun hg => waitAt_inv (inv_of_mem hg rfl)⟩
  · exact ⟨_, rfl, fun hg => takeTrap_inv (s := { g with issue := .idle }) _ hg⟩
  · exact ⟨_, rfl, fun hg => commit_inv (hm hg)⟩

theorem State.reissue_inv {t g : State} (ht : t.Inv) : (t.reissue g).Inv :=
  inv_of_mem ht rfl

theorem State.runGroup_keeps {g : State} : Keeps g g.runGroup := by
  obtain ⟨x, e, hx⟩ := g.tryGroup_keeps
  unfold State.runGroup
  dsimp only
  split
  · rw [e]
    cases x <;> exact .next hx
  · split
    next t e' => exact .next fun hg => waitAt_inv (inv_of_fst e' (flushLate_inv hg))
    next t e' =>
      have ht (hg : g.Inv) : t.Inv := inv_of_fst e' (flushLate_inv hg)
      refine Keeps.ite (.next fun hg => inv_of_mem (ht hg) rfl) ?_
      refine Keeps.ite (.next fun hg => waitAt_inv (ht hg)) ?_
      obtain ⟨y, ey, hy⟩ := (t.reissue g).tryGroup_keeps
      replace hy (hg : g.Inv) : y.state.Inv := hy (reissue_inv (ht hg))
      rw [ey]
      split
      next e'' => cases e''; exact .next hy
      next =>
        refine Keeps.ite ?_ ?_
        · cases y <;> exact .next hy
        split
        next u eu => exact .next fun hg => waitAt_inv (inv_of_fst eu (performAll_inv (ht hg)))
        next u eu =>
          have hu (hg : g.Inv) : u.Inv := inv_of_fst eu (performAll_inv (ht hg))
          refine Keeps.ite (.next fun hg => inv_of_mem (hu hg) rfl) ?_
          obtain ⟨z, ez, hz⟩ := (u.reissue g).tryGroup_keeps
          rw [ez]
          cases z <;> exact .next fun hg => hz (reissue_inv (hu hg))

theorem State.settle_keeps : Keeps s s.settle := by
  unfold State.settle
  refine Keeps.ite runGroup_keeps ?_
  refine Keeps.ite ?_ (.next fun hs => inv_of_mem hs rfl)
  exact .next fun hs => inv_of_mem (performAll_inv hs) rfl

/-! ### The end of a step, and the actions -/

theorem State.latchWakes_inv (hs : s.Inv) : s.latchWakes.Inv := inv_of_mem hs rfl

theorem State.tick_inv (hs : s.Inv) : s.tick.Inv := inv_of_mem hs rfl

theorem State.tryResidents_inv (hs : s.Inv) : s.tryResidents.Inv := mapSeqs_inv hs

theorem ended_keeps {n : Nat} {o : Out} (h : Keeps s o) : Keeps s (ended n o) := by
  obtain ⟨t, rfl, ht⟩ := h
  exact .next fun hs => tick_inv (tryResidents_inv (askAll_inv (latchWakes_inv (transmit_inv (ht hs)))))

theorem State.engineStep_keeps {core : Nat} : Keeps s (s.engineStep core) := by
  unfold State.engineStep
  dsimp only
  split
  next p flag ls _ =>
    split
    · obtain ⟨t, e, ht⟩ := exec_keeps
      rw [e]
      exact .next fun hs => ranAhead_inv (ht (modRoutine_inv (inv_of_mem hs rfl)))
    · exact .next fun hs => inv_of_mem hs rfl
  next =>
    split
    · exact exec_keeps.imp fun hs => inv_of_mem hs rfl
    · exact .next fun hs => inv_of_mem hs rfl

theorem State.act_keeps {a : Action} : Keeps s (s.act a) := by
  cases a with
  | event i => exact exec_keeps
  | value n v => exact execSessionValue_keeps
  | mark n leaf lvl => exact execWithdrawMarker_keeps
  | packet p port => exact execMulticastArrive_keeps
  | acked g id br lost => exact execMulticastAck_keeps
  | pump conn => exact .next pump_inv
  | hostWrite p => exact .next hostAgain_inv
  | hostDropped p status => exact .next hostDone_inv
  | engine core => exact engineStep_keeps
  | issue h => exact execGroupIssue_keeps

end Sys2Proof.Machine
end

section
/-!
PROOFS. A step of a package that has power and whose clocks run, or that loses its power, answers a next state and keeps
memory canonical; any other step faults.
-/

namespace Sys2Proof.Machine

open State

variable {s : State}

theorem step_keeps (hp : s.powered = true) (hc : (s.clockStopped && !s.losesPower) = false) : Keeps s (step s) := by
  unfold step
  rw [if_neg (by simp [hp]), if_neg (by simp [hc])]
  split
  next a rest _ =>
    obtain ⟨t, e, ht⟩ := act_keeps (s := { s with agenda := rest }) (a := a)
    rw [e]
    exact ended_keeps (settle_keeps.imp fun hs => ht (inv_of_mem hs rfl))
  next =>
    obtain ⟨t, e, ht⟩ := execGroupIssue_keeps (s := s) (h := s.ctx.handle)
    rw [e]
    exact ended_keeps (settle_keeps.imp ht)

theorem step_powerLost (hp : s.powered = false) : step s = .fault .powerLost := by
  simp [step, hp]

theorem step_clockStopped (hp : s.powered = true) (hc : (s.clockStopped && !s.losesPower) = true) :
    step s = .fault .clockStopped := by
  simp only [step, hp, hc]
  rfl

end Sys2Proof.Machine
end

section
/-! PROOFS. What every step does: memory stays canonical, and a step proceeds unless the machine is off or stopped. -/

namespace Sys2Proof.Machine

/-- Settles O50, by the lemmas above, one for each update of the model: memory that is canonical before it is canonical
after it. -/
theorem stepKeepsMemoryForm : Obligations.StepKeepsMemoryForm := by
  unfold Obligations.StepKeepsMemoryForm
  intro s t hs e
  cases hp : s.powered with
  | false => simp [step_powerLost hp] at e
  | true =>
    cases hc : s.clockStopped && !s.losesPower with
    | true => simp [step_clockStopped hp hc] at e
    | false => exact (step_keeps hp hc).of_next e hs

/-- Settles O51: no branch of `exec`, nor of a step with power and running clocks, answers anything but a next state. -/
theorem alwaysProceeds : Obligations.AlwaysProceeds := by
  unfold Obligations.AlwaysProceeds
  refine ⟨fun i s => exec_keeps.answers, ?_, fun s hp => step_powerLost hp, ?_, ?_⟩
  · rintro s ⟨hp, hc⟩
    exact (step_keeps hp (by simp [hc])).answers
  · intro s hp hc hl
    exact step_clockStopped hp (by simp [hc, hl])
  · intro s rest hp ha
    have hl : s.losesPower = true := by simp [State.losesPower, ha]
    exact (step_keeps hp (by simp [hl])).answers

end Sys2Proof.Machine
end

section
/-!
PROOFS. The scalar store to the own scratchpad in a state whose memory is not in canonical form.
-/

namespace Sys2Proof.Machine

open Sys2Proof.Claims

/-- A sequencer whose job has two lots, with the window of the first in b1, in a memory that lists the first byte of that lot's home
twice: it is not in canonical form. -/
def listedTwice : State :=
  let s := State.reset.withFetchWord 32 0x8F000000
  { s with
    mem := [(2 ^ 45, 5), (2 ^ 45, 5)]
    jobs := s.jobs.map (fun j => { j with card := j.card.setIfInBounds 1 (1 + 2 ^ 21) })
    ctx := { s.ctx with lots := [0, 1], b := s.ctx.b.setIfInBounds 1 { val := 0xFFFF000000000000, taint := 0 } } }

/-- The translation of the first byte of the first lot. -/
def firstOfLot : Xlat := { pkg := 0, via := .lot 1 0, addr := 0, mc := none, sc := false, exp := BitVec.allOnes 64 }

/-- The home of that byte, in the scratchpad of core 0. -/
def lotHome : Home := { place := 2 ^ 45, fe := some (.line (2 ^ 38)) }

theorem listedTwice_plain :
    noStores listedTwice ∧ plainAddress listedTwice 1 0 ∧ (listedTwice.rg 0).taint = 0 ∧ (listedTwice.rb 0).taint = 0 := by
  unfold noStores plainAddress; decide +kernel

theorem listedTwice_own :
    let a := address listedTwice 1 0 0 1
    a.toNat % 1 = 0 ∧ listedTwice.translate listedTwice.me .store a 1 = .ok firstOfLot ∧
      (listedTwice.touchAll listedTwice.me [a]).ownHome firstOfLot = some lotHome ∧ prompt listedTwice firstOfLot.sc := by
  unfold prompt; decide +kernel

/-- The byte at a place in the next state. -/
def byteAfter (a : Nat) : Out → Option Byte
  | .next t => some (Memory.read t.mem a)
  | _ => none

/-- `st.b` of g0 removes one of the two cells; the other one still shows. -/
theorem listedTwice_store : byteAfter (2 ^ 45) (exec (.stB 0 1 0 0 0) listedTwice) = some 5 := by decide +kernel

/-- Refutes O22: the statement does not ask for memory in canonical form (log entry 3). Where a list names a byte twice, a zero stored
there removes the first cell only, and the byte reads as the second. No step leads from canonical memory to such a list. -/
theorem not_scalarStores : ¬ Obligations.ScalarStores := by
  unfold Obligations.ScalarStores
  intro h
  obtain ⟨hn, ha, hg, hb⟩ := listedTwice_plain
  obtain ⟨hB, -⟩ := h listedTwice 0 0 1 0 0 0 firstOfLot lotHome hn ha hg hb
  obtain ⟨t, e, hread, -⟩ := hB listedTwice_own
  have five := listedTwice_store
  rw [e, byteAfter, hread (2 ^ 45)] at five
  revert five
  decide +kernel

end Sys2Proof.Machine
end

section
/-!
PROOFS. What an outcome that writes one register leaves (R15 to R20): the writes of the model meet the words of the statements.
-/

namespace Sys2Proof.Machine

open Sys2Proof.Claims

variable (s : State)

theorem State.wg_frame (d : BitVec 5) (v : W32) (m : Mask) :
    s.wg d v m = { s with ctx := { s.ctx with g := (s.wg d v m).ctx.g } } := by
  unfold State.wg
  split <;> rfl

theorem State.wk_frame (d : BitVec 3) (v : W64) (m : Mask) :
    s.wk d v m = { s with ctx := { s.ctx with k := (s.wk d v m).ctx.k } } := by
  unfold State.wk
  split <;> rfl

variable {s}

theorem writesG_wg {d : BitVec 5} {v w : W32} {m : Mask} (h : v = w) : writesG s d ⟨w, m⟩ (.next (s.wg d v m)) :=
  h ▸ ⟨_, rfl, fun n => s.rg_wg d n v m, s.wg_frame d v m⟩

theorem writesG_of_eq {d : BitVec 5} {v : W32} {m : Mask} {o : Out} (e : o = .next (s.wg d v m)) : writesG s d ⟨v, m⟩ o :=
  e ▸ writesG_wg rfl

theorem writesB_wb {d : BitVec 3} {v w : W64} {m : Mask} (h : v = w) : writesB s d ⟨w, m⟩ (.next (s.wb d v m)) :=
  h ▸ ⟨_, rfl, fun n => s.rb_wb d n v m, rfl⟩

theorem writesB_of_eq {d : BitVec 3} {v : W64} {m : Mask} {o : Out} (e : o = .next (s.wb d v m)) : writesB s d ⟨v, m⟩ o :=
  e ▸ writesB_wb rfl

theorem writesK_wk {d : BitVec 3} {v w : W64} {m : Mask} (h : v = w) : writesK s d ⟨w, m⟩ (.next (s.wk d v m)) :=
  h ▸ ⟨_, rfl, fun n _ => s.k_wk d v m n, s.wk_frame d v m⟩

theorem writesV_of_eq {d : Nat} {r : VReg} {o : Out} (hd : d < 56) (e : o = .next (s.wv d r)) : writesV s d r o :=
  ⟨_, e, fun n _ => s.v_wv d r hd n, rfl⟩

end Sys2Proof.Machine
end

section
/-!
PROOFS. The words that scalar instructions compute, as numbers (R90, R93, R94, R96).
-/

namespace Sys2Proof.Machine

/-! ### Arithmetic -/

theorem sub_eq_ofInt (x y : W32) : x - y = BitVec.ofInt 32 (x.toInt - y.toInt) := by
  apply BitVec.eq_of_toInt_eq
  simp [BitVec.toInt_sub]

theorem mul_eq_ofInt (x y : W32) : x * y = BitVec.ofInt 32 (x.toInt * y.toInt) := by
  simp [BitVec.ofInt_mul]

theorem ofInt_upperHalf (z : Int) : BitVec.ofInt 32 (z / 2 ^ 32) = (BitVec.ofInt 64 z).extractLsb' 32 32 := by
  apply BitVec.eq_of_toNat_eq
  simp only [BitVec.extractLsb'_toNat, BitVec.toNat_ofInt, Nat.shiftRight_eq_div_pow]
  omega

theorem ofNat_upperHalf (n : Nat) : BitVec.ofNat 32 (n / 2 ^ 32) = (BitVec.ofNat 64 n).extractLsb' 32 32 := by
  apply BitVec.eq_of_toNat_eq
  simp only [BitVec.extractLsb'_toNat, BitVec.toNat_ofNat, Nat.shiftRight_eq_div_pow]
  omega

theorem add_signExtend_eq_ofInt (x : W32) (i : BitVec 14) : x + i.signExtend 32 = BitVec.ofInt 32 (x.toInt + i.toInt) := by
  simp [BitVec.ofInt_add, BitVec.signExtend]

theorem base_add_signExtend (b : W64) (g : W32) : b + g.signExtend 64 = BitVec.ofInt 64 (b.toNat + g.toInt) := by
  simp [BitVec.ofInt_add, BitVec.signExtend]

/-! ### Shifts -/

theorem shl_eq_ofNat (x : W32) (n : Nat) : x <<< n = BitVec.ofNat 32 (x.toNat * 2 ^ n) := by
  apply BitVec.eq_of_toNat_eq
  rw [BitVec.toNat_shiftLeft, BitVec.toNat_ofNat, Nat.shiftLeft_eq]

theorem shr_eq_ofNat (x : W32) (n : Nat) : x >>> n = BitVec.ofNat 32 (x.toNat / 2 ^ n) := by
  apply BitVec.eq_of_toNat_eq
  rw [BitVec.toNat_ushiftRight, BitVec.toNat_ofNat, Nat.shiftRight_eq_div_pow,
    Nat.mod_eq_of_lt (lt_of_le_of_lt (Nat.div_le_self _ _) x.isLt)]

theorem sra_eq_ofInt (x : W32) (n : Nat) : x.sshiftRight n = BitVec.ofInt 32 (x.toInt / 2 ^ n) := by
  rw [BitVec.sshiftRight, Int.shiftRight_eq_div_pow]
  norm_cast

theorem rotl_eq_or (x : W32) {n : Nat} (h : n < 32) : x.rotateLeft n = (x <<< n) ||| (x >>> (32 - n)) := by
  rw [BitVec.rotateLeft_def, Nat.mod_eq_of_lt h]

/-! ### Selection -/

theorem ite_slt_eq_min (x y : W32) : (if y.slt x then y else x) = BitVec.ofInt 32 (min x.toInt y.toInt) := by
  rw [min_comm, min_def_lt]
  simp only [BitVec.slt_iff_toInt_lt]
  split <;> exact BitVec.ofInt_toInt.symm

theorem ite_slt_eq_max (x y : W32) : (if x.slt y then y else x) = BitVec.ofInt 32 (max x.toInt y.toInt) := by
  rw [max_def_lt]
  simp only [BitVec.slt_iff_toInt_lt]
  split <;> exact BitVec.ofInt_toInt.symm

theorem ite_ult_eq_min (x y : W32) : (if y.ult x then y else x) = BitVec.ofNat 32 (min x.toNat y.toNat) := by
  rw [min_comm, min_def_lt]
  simp only [BitVec.ult_iff_toNat_lt]
  split <;> simp

theorem ite_ult_eq_max (x y : W32) : (if x.ult y then y else x) = BitVec.ofNat 32 (max x.toNat y.toNat) := by
  rw [max_def_lt]
  simp only [BitVec.ult_iff_toNat_lt]
  split <;> simp

/-! ### Bit counts -/

/-- The leading zeros of the n low bits: the bits above the highest one bit, and where it is. -/
theorem leadZeros_spec (x : W32) (n : Nat) :
    leadZeros x n ≤ n ∧ (∀ i < leadZeros x n, x.getLsbD (n - 1 - i) = false) ∧
      (leadZeros x n < n → x.getLsbD (n - 1 - leadZeros x n) = true) := by
  induction n with
  | zero => simp [leadZeros]
  | succ n ih =>
    obtain ⟨hle, hzero, hone⟩ := ih
    rw [leadZeros]
    split
    next h => simpa using h
    next h =>
      refine ⟨by omega, fun i hi => ?_, fun hlt => ?_⟩
      · rcases i with _ | i
        · simpa using h
        · have := hzero i (by omega)
          rwa [show n + 1 - 1 - (i + 1) = n - 1 - i by omega]
      · have := hone (by omega)
        rwa [show n + 1 - 1 - (1 + leadZeros x n) = n - 1 - leadZeros x n by omega]

/-- The trailing zeros of the n bits from i: the bits below the lowest one bit, and where it is. -/
theorem trailZeros_spec (x : W32) (i n : Nat) :
    trailZeros x i n ≤ n ∧ (∀ j < trailZeros x i n, x.getLsbD (i + j) = false) ∧
      (trailZeros x i n < n → x.getLsbD (i + trailZeros x i n) = true) := by
  induction n generalizing i with
  | zero => simp [trailZeros]
  | succ n ih =>
    obtain ⟨hle, hzero, hone⟩ := ih (i + 1)
    rw [trailZeros]
    split
    next h => simpa using h
    next h =>
      refine ⟨by omega, fun j hj => ?_, fun hlt => ?_⟩
      · rcases j with _ | j
        · simpa using h
        · have := hzero j (by omega)
          rwa [show i + (j + 1) = i + 1 + j by omega]
      · have := hone (by omega)
        rwa [show i + (1 + trailZeros x (i + 1) n) = i + 1 + trailZeros x (i + 1) n by omega]

theorem popCount_eq_length (x : W32) (n : Nat) : popCount x n = ((List.range n).filter x.getLsbD).length := by
  induction n with
  | zero => rfl
  | succ n ih =>
    rw [popCount, ih, List.range_succ, List.filter_append, List.length_append, List.filter_singleton]
    split <;> simp_all [Nat.add_comm]

/-! ### Halves -/

theorem joinHalves_eq_ofNat (lo hi : W32) : joinHalves lo hi = BitVec.ofNat 64 (hi.toNat * 2 ^ 32 + lo.toNat) := by
  apply BitVec.eq_of_toNat_eq
  rw [joinHalves, BitVec.toNat_append, ← Nat.shiftLeft_add_eq_or_of_lt lo.isLt, Nat.shiftLeft_eq, BitVec.toNat_ofNat]
  omega

theorem lowHalf_eq_ofNat (x : W64) : x.extractLsb' 0 32 = BitVec.ofNat 32 x.toNat := by
  apply BitVec.eq_of_toNat_eq
  simp

theorem highHalf_eq_ofNat (x : W64) : x.extractLsb' 32 32 = BitVec.ofNat 32 (x.toNat / 2 ^ 32) := by
  apply BitVec.eq_of_toNat_eq
  simp [Nat.shiftRight_eq_div_pow]

end Sys2Proof.Machine
end

section
/-!
PROOFS. The scalar, comparison, immediate, address and predicate instructions.
-/

namespace Sys2Proof.Machine

open Sys2Proof.Claims

variable {s : State}

theorem writesG_alu2 {d a b : BitVec 5} {f : W32 → W32 → W32} {w : W32} (h : f (s.rg a).val (s.rg b).val = w) :
    writesG s d ⟨w, (s.rg a).taint ||| (s.rg b).taint⟩ (.next (s.alu2 d a b f)) := writesG_wg h

theorem writesG_alu1 {d a : BitVec 5} {f : W32 → W32} {w : W32} (h : f (s.rg a).val = w) :
    writesG s d ⟨w, (s.rg a).taint⟩ (.next (s.alu1 d a f)) := writesG_wg h

/-- A comparison writes all ones or all zeros as its condition says (R92). -/
theorem writesK_cmp {k : BitVec 3} {a b : BitVec 5} {c : W32 → W32 → Bool} {p : Prop} [Decidable p]
    (h : c (s.rg a).val (s.rg b).val = true ↔ p) :
    writesK s k ⟨if p then BitVec.allOnes 64 else 0, (s.rg a).taint ||| (s.rg b).taint⟩ (.next (s.cmp k a b c)) :=
  writesK_wk (if_congr h rfl rfl)

theorem writesK_pred2 {d a b : BitVec 3} {f : W64 → W64 → W64} {w : W64} (h : f (s.rk a).val (s.rk b).val = w) :
    writesK s d ⟨w, (s.rk a).taint ||| (s.rk b).taint⟩ (.next (s.pred2 d a b f)) := writesK_wk h

theorem writesK_pred1 {d a : BitVec 3} {f : W64 → W64} {w : W64} (h : f (s.rk a).val = w) :
    writesK s d ⟨w, (s.rk a).taint⟩ (.next (s.pred1 d a f)) := writesK_wk h

/-- Settles O2: each form writes its word, which the lemmas above give as a number. -/
theorem aluResults : Obligations.AluResults := by
  unfold Obligations.AluResults
  intro s d a b p
  refine ⟨writesG_alu2 rfl, writesG_alu2 (sub_eq_ofInt _ _), writesG_alu2 (mul_eq_ofInt _ _), writesG_alu2 (ofInt_upperHalf _),
    writesG_alu2 (ofNat_upperHalf _), writesG_alu2 rfl, writesG_alu2 rfl, writesG_alu2 rfl, writesG_alu2 (shl_eq_ofNat _ _),
    writesG_alu2 (shr_eq_ofNat _ _), writesG_alu2 (sra_eq_ofInt _ _), writesG_alu2 (rotl_eq_or _ (Nat.mod_lt _ (by decide))),
    writesG_alu2 (ite_slt_eq_min _ _), writesG_alu2 (ite_slt_eq_max _ _), writesG_alu2 (ite_ult_eq_min _ _),
    writesG_alu2 (ite_ult_eq_max _ _), writesG_wg rfl, ?clz, ?ctz, writesG_alu1 (congrArg _ (popCount_eq_length _ _)),
    writesG_alu1 rfl⟩
  case clz =>
    obtain ⟨hle, hzero, hone⟩ := leadZeros_spec (s.rg a).val 32
    refine ⟨_, hle, writesG_alu1 rfl, fun i hi => ?_, fun hlt => ?_⟩
    · rw [BitVec.getMsbD_eq_getLsbD, hzero i hi, Bool.and_false]
    · rw [BitVec.getMsbD_eq_getLsbD, hone hlt, decide_eq_true hlt, Bool.true_and]
  case ctz =>
    obtain ⟨hle, hzero, hone⟩ := trailZeros_spec (s.rg a).val 0 32
    refine ⟨_, hle, writesG_alu1 rfl, fun i hi => ?_, fun hlt => ?_⟩
    · rw [← hzero i hi, Nat.zero_add]
    · rw [← hone hlt, Nat.zero_add]

/-- Settles O3: each comparison of the model decides the order or equality of the numbers. -/
theorem compareResults : Obligations.CompareResults := by
  unfold Obligations.CompareResults
  intro s d a b
  exact ⟨writesK_cmp beq_iff_eq, writesK_cmp bne_iff_ne, writesK_cmp BitVec.slt_iff_toInt_lt, writesK_cmp BitVec.sle_iff_toInt_le,
    writesK_cmp BitVec.ult_iff_lt, writesK_cmp BitVec.ule_iff_le⟩

/-- Settles O4: the immediates are extended as the lemmas on words say. -/
theorem immediateResults : Obligations.ImmediateResults := by
  unfold Obligations.ImmediateResults
  intro s d a n i j
  have hi : i.zeroExtend 32 = BitVec.ofNat 32 i.toNat := (BitVec.ofNat_toNat 32 i).symm
  refine ⟨writesG_alu1 (add_signExtend_eq_ofInt _ _), writesG_alu1 (congrArg _ hi), writesG_alu1 (congrArg _ hi),
    writesG_alu1 (congrArg _ hi), writesG_alu1 (shl_eq_ofNat _ _), writesG_alu1 (shr_eq_ofNat _ _), writesG_alu1 (sra_eq_ofInt _ _),
    writesG_wg ?_⟩
  rw [shl_eq_ofNat, BitVec.toNat_setWidth, Nat.mod_eq_of_lt (by omega)]

/-- Settles O5: a base moves as two halves, and predicates combine bit by bit. -/
theorem addressAndPredicateResults : Obligations.AddressAndPredicateResults := by
  unfold Obligations.AddressAndPredicateResults
  intro s d a b p q r
  exact ⟨writesB_wb (base_add_signExtend _ _), writesB_wb (joinHalves_eq_ofNat _ _), writesG_wg (lowHalf_eq_ofNat _),
    writesG_wg (highHalf_eq_ofNat _), writesK_pred2 rfl, writesK_pred2 rfl, writesK_pred2 rfl, writesK_pred1 rfl,
    writesK_pred1 rfl, writesK_wk (joinHalves_eq_ofNat _ _), writesG_wg (lowHalf_eq_ofNat _), writesG_wg (highHalf_eq_ofNat _), rfl⟩

end Sys2Proof.Machine
end

section
/-!
PROOFS. The loop stack: its levels, the exit address, the opening of a loop and the end of an iteration (R20, R105, R106).
-/

namespace Sys2Proof.Machine

open Sys2Proof.Claims

variable {s : State}

/-! ### Levels -/

theorem Seqr.levels_le (q : Seqr) : q.levels ≤ 6 := by
  unfold Seqr.levels
  exact (List.length_filter_le _ _).trans_eq q.ls.length_toList

theorem State.level_setLevel {i : Nat} (l : LoopLevel) (hi : i < 6) (n : Nat) :
    (s.setLevel i l).ctx.level n = if n = i then l else s.ctx.level n := by
  unfold State.setLevel Seqr.level
  by_cases h : n = i
  · subst h
    simp [hi]
  · simp [Vector.getElem?_setIfInBounds_ne (Ne.symm h), h]

theorem loops_setLevel {i : Nat} {l : LoopLevel} {m : Mask} {o : Out} (e : o = .next ((s.orCtaint m).setLevel i l)) (hi : i < 6) :
    loops s m i l none o :=
  ⟨_, e, fun n _ => State.level_setLevel l hi n, rfl, rfl, rfl⟩

theorem loops_close {i : Nat} {l : LoopLevel} {o : Out} (e : o = .next (s.setLevel i l)) (hi : i < 6) : loops s 0 i l none o :=
  ⟨_, e, fun n _ => State.level_setLevel l hi n, rfl, (BitVec.or_zero).symm, rfl⟩

theorem loops_goTo {i : Nat} {l : LoopLevel} {a : W64} {o : Out} (e : o = .next ((s.setLevel i l).goTo a)) (hi : i < 6) :
    loops s 0 i l (some a) o :=
  ⟨_, e, fun n _ => State.level_setLevel l hi n, rfl, (BitVec.or_zero).symm, rfl⟩

/-- A rotation step reads the bases from before the group, which the loop stack does not hold (R20). -/
theorem State.rotStep_setLevel_goTo (i : Nat) (l : LoopLevel) (a : W64) :
    ((s.setLevel i l).goTo a).rotStep = (s.rotStep.setLevel i l).goTo a := by
  unfold State.rotStep State.setLevel State.goTo State.src
  cases s.issue.pre <;> rfl

/-! ### The exit address -/

/-- A word that can be fetched, with the bit that ends a group (R66). -/
theorem fetched_of_msb {x : Except (BitVec 8 × W64) W32} {b : Bool} (h : x.toOption.map BitVec.msb = some b) :
    ∃ w, x = .ok w ∧ w.msb = b := by
  cases x with
  | error e => simp [Except.toOption] at h
  | ok w => exact ⟨w, rfl, by simpa [Except.toOption] using h⟩

theorem word_succ (x : W64) (i : Nat) : x + BitVec.ofNat 64 (4 * (i + 1)) = x + 4 + BitVec.ofNat 64 (4 * i) := by
  rw [BitVec.add_assoc, show 4 * (i + 1) = 4 + 4 * i by omega, BitVec.ofNat_add]
  rfl

/-- ExitAddress of the model follows the first word that ends a group, where every word before it can be fetched (R105). -/
theorem State.exitFrom_eq {n fuel : Nat} {x : W64} (hn : n < fuel)
    (hgo : ∀ i < n, (s.fetchWord (x + BitVec.ofNat 64 (4 * i))).toOption.map BitVec.msb = some false)
    (hstop : (s.fetchWord (x + BitVec.ofNat 64 (4 * n))).toOption.map BitVec.msb = some true) :
    s.exitFrom fuel x = .ok (x + BitVec.ofNat 64 (4 * (n + 1))) := by
  induction n generalizing fuel x with
  | zero =>
    obtain ⟨w, e, hw⟩ := fetched_of_msb hstop
    obtain ⟨f, rfl⟩ : ∃ f, fuel = f + 1 := ⟨fuel - 1, by omega⟩
    rw [show x + BitVec.ofNat 64 (4 * 0) = x by simp] at e
    simp [State.exitFrom, e, hw]
  | succ n ih =>
    obtain ⟨w, e, hw⟩ := fetched_of_msb (hgo 0 (by omega))
    obtain ⟨f, rfl⟩ : ∃ f, fuel = f + 1 := ⟨fuel - 1, by omega⟩
    rw [show x + BitVec.ofNat 64 (4 * 0) = x by simp] at e
    have tail : s.exitFrom f (x + 4) = .ok (x + 4 + BitVec.ofNat 64 (4 * (n + 1))) :=
      ih (by omega) (fun i hi => word_succ x i ▸ hgo (i + 1) (by omega)) (word_succ x n ▸ hstop)
    rw [State.exitFrom, e]
    simp only [hw, Bool.false_eq_true, if_false, tail, word_succ x (n + 1)]

theorem State.toExit_eq {x a : W64} (go : State → State) (h : exitsTo s x a) : s.toExit x go = (go s).goTo a := by
  obtain ⟨n, hn, hgo, hstop, rfl⟩ := h
  unfold State.toExit
  rw [State.exitFrom_eq hn hgo hstop]

theorem transfers_toExit {x a : W64} {m : Mask} {o : Out} (e : o = .next (s.toExit x (fun s' => s'.orCtaint m)))
    (h : exitsTo s x a) : transfers s m (some a) o :=
  e.trans (congrArg _ (State.toExit_eq _ h))

/-! ### The instructions -/

theorem execLoop_opens {c : BitVec 5} {l : BitVec 3} {len : BitVec 15} (hl : l.toNat = s.src.levels) (h5 : l.toNat ≤ 5)
    (hc : (s.rg c).val ≠ 0) :
    execLoop c l len s = .next ((s.orCtaint (s.rg c).taint).setLevel l.toNat
      { valid := true, count := (s.rg c).val, index := 0, start := s.src.pc + BitVec.ofNat 64 (4 * s.issue.len)
        stop := s.wordAddr + BitVec.ofNat 64 (4 * len.toNat) }) := by
  unfold execLoop
  rw [if_neg (by simp [hl] at h5 ⊢; omega), if_neg hc]

theorem execLoop_skips {c : BitVec 5} {l : BitVec 3} {len : BitVec 15} (hl : l.toNat = s.src.levels) (h5 : l.toNat ≤ 5)
    (hc : (s.rg c).val = 0) :
    execLoop c l len s = .next (s.toExit (s.wordAddr + BitVec.ofNat 64 (4 * len.toNat)) (fun s' => s'.orCtaint (s.rg c).taint)) := by
  unfold execLoop
  rw [if_neg (by simp [hl] at h5 ⊢; omega), if_pos hc]

theorem execLoop_depth {c : BitVec 5} {l : BitVec 3} {len : BitVec 15} (h : l.toNat ≠ s.src.levels ∨ 6 ≤ l.toNat) :
    execLoop c l len s = .next (s.raise cLoopDepth 0) := by
  unfold execLoop
  rw [if_pos (by simpa using h)]

theorem State.closeIter_depth {l : BitVec 3} {rot : Bool} (h : s.src.levels ≠ l.toNat + 1) :
    s.closeIter l rot = s.raise cLoopDepth 0 := by
  unfold State.closeIter
  rw [if_pos h]

theorem State.closeIter_again {l : BitVec 3} {rot : Bool} (h : s.src.levels = l.toNat + 1)
    (hlt : (s.src.level l.toNat).index.toNat + 1 < (s.src.level l.toNat).count.toNat) :
    s.closeIter l rot =
      let lv := s.src.level l.toNat
      let t := (s.setLevel l.toNat { lv with index := lv.index + 1 }).goTo lv.start
      if rot then t.rotStep else t := by
  unfold State.closeIter
  rw [if_neg (not_not_intro h)]
  exact if_pos hlt

theorem State.closeIter_last {l : BitVec 3} {rot : Bool} (h : s.src.levels = l.toNat + 1)
    (hle : (s.src.level l.toNat).count.toNat ≤ (s.src.level l.toNat).index.toNat + 1) :
    s.closeIter l rot =
      let lv := s.src.level l.toNat
      s.setLevel l.toNat { lv with index := lv.index + 1, valid := false } := by
  unfold State.closeIter
  rw [if_neg (not_not_intro h)]
  exact if_neg (Nat.not_lt.mpr hle)

/-- Settles O8: an opened or closed iteration writes its level, and a zero count goes where the exit address of the model leads. -/
theorem loopResults : Obligations.LoopResults := by
  unfold Obligations.LoopResults
  intro s c l len x
  refine ⟨fun hl h5 hc => ?opens, fun hl h5 hc hx => ?skips, fun h => execLoop_depth h, fun h hlt => ?again, fun h hle => ?last,
    fun h => ?depth⟩
  case opens =>
    rw [← hl]
    exact loops_setLevel (execLoop_opens hl h5 hc) (by omega)
  case skips => exact transfers_toExit (execLoop_skips hl h5 hc) hx
  case again =>
    have hi : l.toNat < 6 := by have := s.src.levels_le; omega
    have rotates := (State.closeIter_again (rot := true) h hlt).trans (State.rotStep_setLevel_goTo _ _ _)
    exact ⟨loops_goTo (congrArg _ (State.closeIter_again h hlt)) hi,
      loops_goTo (s := s.rotStep) (congrArg Host.Outcome.next rotates) hi⟩
  case last =>
    have hi : l.toNat < 6 := by have := s.src.levels_le; omega
    exact ⟨loops_close (congrArg _ (State.closeIter_last h hle)) hi, loops_close (congrArg _ (State.closeIter_last h hle)) hi⟩
  case depth =>
    exact ⟨congrArg _ (State.closeIter_depth h), congrArg _ (State.closeIter_depth h)⟩

end Sys2Proof.Machine
end

section
/-!
PROOFS. The trap instruction: what giving up a wait sends (R252), what a posted record changes (R339), and taking a trap in a user
and in a supervisor context (R218).
-/

namespace Sys2Proof.Machine

open Sys2Proof.Claims

variable {s u : State}

/-! ### Sync words -/

/-- Fewer than 32 bytes cover no granule, so they clear no poison mark (R344). -/
theorem State.writeLE_frame (s : State) (a v : Nat) {n : Nat} (hn : n < 32) :
    s.writeLE a v n = { s with mem := (s.writeLE a v n).mem } := by
  have keeps : (s.writeLE a v n).poison = s.poison := by
    refine List.filter_eq_self.mpr (fun g _ => ?_)
    rw [Bool.not_eq_true', Bool.eq_false_iff]
    intro covered
    simp only [List.all_eq_true, List.mem_range, List.any_eq_true, decide_eq_true_eq] at covered
    obtain ⟨b, hb, first⟩ := covered 0 (by decide)
    obtain ⟨c, hc, last⟩ := covered 31 (by decide)
    have hb := atAddrs_ge hb
    have hc := atAddrs_ge hc
    rw [leBytes_length] at hb hc
    omega
  calc s.writeLE a v n = { s with mem := (s.writeLE a v n).mem, poison := (s.writeLE a v n).poison } := rfl
    _ = _ := by rw [keeps]

/-- A sync word changes memory alone (R138). -/
theorem State.syncAdd_frame (s : State) (a n : Nat) : s.syncAdd a n = { s with mem := (s.syncAdd a n).mem } := by
  unfold State.syncAdd
  dsimp only
  split
  · exact s.writeLE_frame _ _ (by decide)
  · rw [State.writeLE_frame _ _ _ (by decide), s.writeLE_frame _ _ (by decide)]

theorem State.countAt_frame (s : State) (a n : Nat) :
    s.countAt a n = { s with mem := (s.countAt a n).mem, trans := (s.countAt a n).trans } := by
  unfold State.countAt
  split
  · rfl
  · conv_lhs => rw [s.syncAdd_frame a n]
    rw [s.syncAdd_frame a n]

/-- A count depends on memory, the translation units and the package's number alone. -/
theorem State.countAt_congr (hm : u.mem = s.mem) (ht : u.trans = s.trans) (hp : u.pkg = s.pkg) (a n : Nat) :
    (u.countAt a n).mem = (s.countAt a n).mem ∧ (u.countAt a n).trans = (s.countAt a n).trans := by
  have held : u.migrationAt a = s.migrationAt a := by simp only [State.migrationAt, State.tu, ht, hp]
  have sum : (u.syncAdd a n).mem = (s.syncAdd a n).mem := by
    have word (b : Nat) : u.readLE b 4 = s.readLE b 4 := congrArg (Memory.readLE · b 4) hm
    unfold State.syncAdd
    rw [word a, word (a + 4), word (a + 8)]
    by_cases stop : s.readLE a 4 = 0
    · simp only [if_pos stop, State.writeLE, State.writeBytes_mem, hm]
    · simp only [if_neg stop, State.writeLE, State.writeBytes_mem, hm]
  unfold State.countAt
  rw [held]
  split
  · exact ⟨hm, by simp only [State.migrationHold, ht, hp]⟩
  · exact ⟨sum, by rw [u.syncAdd_frame, s.syncAdd_frame]; exact ht⟩

theorem State.countAt_still {a : Nat} (n : Nat) (h : s.migrationAt a = none) :
    (s.countAt a n).mem = (s.syncAdd a n).mem ∧ (s.countAt a n).trans = s.trans := by
  unfold State.countAt
  rw [h, if_neg (by decide)]
  exact ⟨rfl, by rw [s.syncAdd_frame]⟩

theorem State.countAt_held {a : Nat} (n : Nat) (h : (s.migrationAt a).isSome) :
    (s.countAt a n).mem = s.mem ∧ (s.countAt a n).trans = (s.migrationHold a (.count a n)).trans := by
  unfold State.countAt
  rw [if_pos h]
  exact ⟨rfl, rfl⟩

/-! ### Posting a record -/

theorem State.post_frame (s : State) (d : Nat) (r : TrapRec) :
    s.post d r = { s with dies := (s.post d r).dies, mem := (s.post d r).mem, trans := (s.post d r).trans } := by
  unfold State.post
  dsimp only
  split
  · split
    · rw [State.countAt_frame]
      rfl
    · rfl
  · split <;> rfl

theorem State.countAt_dieAt (s : State) (a n d : Nat) : (s.countAt a n).dieAt d = s.dieAt d := by
  rw [State.countAt_frame]
  rfl

/-- A record goes to the queue of its die alone. -/
theorem State.post_dieAt_other (s : State) {d e : Nat} (r : TrapRec) (h : e ≠ d) : (s.post d r).dieAt e = s.dieAt e := by
  have other (f : Die → Die) : (s.modDie d f).dieAt e = s.dieAt e := tget_tset_other _ _ _ h
  unfold State.post
  dsimp only
  split
  · split
    · rw [State.countAt_dieAt, other]
    · exact other _
  · split <;> exact other _

/-- A queue with room takes the record at TAIL (R339). -/
theorem State.post_queue_of_room (s : State) {d : Nat} (r : TrapRec) (h : (s.dieAt d).queue.pending < 1024) :
    ((s.post d r).dieAt d).queue = (s.dieAt d).queue.push { r with pt := s.ptime } := by
  unfold State.post
  dsimp only
  rw [if_pos h]
  split
  · rw [State.countAt_dieAt, dieAt_modDie]
  · rw [dieAt_modDie]

/-- A posted record gains QSYNC 64 bytes, where QSYNC names a word of this package (R339; log entry 7). What the count changes is
said of another state with the same queues, memory and translation units. -/
theorem State.post_counts {d : Nat} (r : TrapRec) (hd : u.dies = s.dies) (hm : u.mem = s.mem) (ht : u.trans = s.trans)
    (hp : u.pkg = s.pkg) (h : (s.dieAt d).queue.pending < 1024) (near : paPkg (s.dieAt d).queue.qsync = s.pkg) :
    (u.post d r).mem = (s.countAt (paLocal (s.dieAt d).queue.qsync) 64).mem ∧
      (u.post d r).trans = (s.countAt (paLocal (s.dieAt d).queue.qsync) 64).trans := by
  have die : u.dieAt d = s.dieAt d := by rw [State.dieAt, hd]; rfl
  unfold State.post
  dsimp only
  rw [die, if_pos h]
  split
  · exact State.countAt_congr (s := s) (u := u.modDie d _) hm ht hp _ _
  next far => exact absurd (near.trans hp.symm) far

/-- A full queue holds a record of a kind that is never dropped (R339). -/
theorem State.post_queue_of_full (s : State) {d : Nat} {r : TrapRec} (h : 1024 ≤ (s.dieAt d).queue.pending)
    (hk : (r.kind = 5 || r.kind = 6 || r.kind = 9) = false) :
    ((s.post d r).dieAt d).queue = { (s.dieAt d).queue with holding := (s.dieAt d).queue.holding ++ [r] } := by
  unfold State.post
  dsimp only
  rw [if_neg (Nat.not_lt.mpr h), if_neg (Bool.not_eq_true _ ▸ hk), dieAt_modDie]

/-- A record that waits, or whose QSYNC is no word of this package, counts nowhere. -/
theorem State.post_counts_nowhere (s : State) {d : Nat} (r : TrapRec)
    (h : 1024 ≤ (s.dieAt d).queue.pending ∨ paPkg (s.dieAt d).queue.qsync ≠ s.pkg) :
    (s.post d r).mem = s.mem ∧ (s.post d r).trans = s.trans := by
  unfold State.post
  dsimp only
  split
  next room =>
    split
    next near => exact absurd near (h.resolve_left (Nat.not_le.mpr room))
    · exact ⟨rfl, rfl⟩
  · split <;> exact ⟨rfl, rfl⟩

/-! ### Giving up a wait -/

theorem State.leaveWaits_eq (s : State) (q : Seqr) : s.leaveWaits q = { s with egress := s.egress ++ withdrawals q } := by
  unfold State.leaveWaits withdrawals
  generalize q.asks = l
  induction l generalizing s with
  | nil => simp
  | cons a l ih =>
    rw [List.foldl_cons, ih]
    cases h : a.place <;> simp [State.emit, h]

/-! ### The instruction -/

/-- The trap of the `trap` instruction (R218). -/
theorem Seqr.report_trapInsn (q : Seqr) {t : Trap} (hc : t.code = 0x12) (hs : t.slot ≠ 7) : q.report t = q := by
  unfold Seqr.report
  rw [hc, if_neg (by decide), if_neg (by rw [decide_eq_false hs]; exact Bool.false_ne_true), if_neg (by decide), if_neg (by decide)]

/-- A state that has taken the trap `t`, as far as the privilege of its context does not matter: nothing of its group waits. -/
def State.trapped (s : State) (t : Trap) : State :=
  { s with
    ctx := { s.ctx with
      cause := t.causeWord, epc := s.ctx.pc, badaddr := t.bad, wait := none, asks := [], resumed := false }
    ldfeQueue := s.ldfeQueue.filter (fun e => e.2.1 ≠ s.pkg ∨ e.2.2 ≠ s.ctx.handle)
    egress := s.egress ++ withdrawals s.ctx
    issue := { s.issue with flow := .trap t } }

/-- A user context that has taken a trap departs from its slot to be frozen (R218, R250). -/
def State.departing (s : State) (t : Trap) : State :=
  { s.trapped t with ctx := { (s.trapped t).ctx with depart := some .freeze, preempt := none } }

theorem State.leaveLdfe_eq (s : State) (p : BitVec 15) (h : BitVec 24) :
    s.leaveLdfe p h = { s with ldfeQueue := s.ldfeQueue.filter (fun e => e.2.1 ≠ p ∨ e.2.2 ≠ h) } := by
  have same (e : FeRef × BitVec 15 × BitVec 24) : decide (e.2 ≠ (p, h)) = decide (e.2.1 ≠ p ∨ e.2.2 ≠ h) := by
    rw [decide_eq_decide, ne_eq, Prod.ext_iff, not_and_or]
  unfold State.leaveLdfe
  simp only [same]

theorem State.takeTrap_eq_supervisor {t : Trap} (hr : s.ctx.report t = s.ctx) (h : s.ctx.sup = true) :
    s.takeTrap t = { s.trapped t with ctx := { (s.trapped t).ctx with pc := s.ctx.trapBase } } := by
  unfold State.takeTrap
  rw [hr]
  dsimp only
  rw [State.leaveWaits_eq, State.leaveLdfe_eq]
  exact if_pos h

theorem State.takeTrap_eq_user {t : Trap} (hr : s.ctx.report t = s.ctx) (h : s.ctx.sup = false) :
    s.takeTrap t =
      (s.departing t).post s.ctx.cdie.toNat (mkRec 1 t.code (s.ctx.handle.zeroExtend 32) s.ctx.job t.bad s.ctx.pc) := by
  unfold State.takeTrap
  rw [hr]
  dsimp only
  rw [State.leaveWaits_eq, State.leaveLdfe_eq]
  exact if_neg (Bool.eq_false_iff.mp h)

/-- cr.cause of the `trap` instruction: its code, the slot and the word (Table 1.6). -/
theorem Trap.causeWord_trapInsn (slot : BitVec 3) (pos : Nat) :
    Trap.causeWord { code := 0x12, slot := slot, whole := false, word := BitVec.ofNat 4 pos, bad := 0 } =
      0x12 ||| (slot.zeroExtend 32 <<< 8) ||| (BitVec.ofNat 32 (pos % 16) <<< 12) := by
  have word : (BitVec.ofNat 4 pos).zeroExtend 32 = BitVec.ofNat 32 (pos % 16) :=
    (BitVec.ofNat_toNat 32 (BitVec.ofNat 4 pos)).symm.trans (congrArg _ (BitVec.toNat_ofNat pos 4))
  unfold Trap.causeWord
  rw [word]
  change (0x12 : W32) ||| _ ||| 0#32 ||| _ = _
  rw [BitVec.or_zero]
  rfl

/-- Settles O10: taking the trap is the update `trapped`, then cr.trap for a supervisor and a posted record for a user. -/
theorem trapInstruction : Obligations.TrapInstruction := by
  unfold Obligations.TrapInstruction
  intro s imm hslot cause issue waiting q r
  have hr : s.ctx.report (s.trapOf cTrapInsn 0) = s.ctx := s.ctx.report_trapInsn rfl hslot
  have hcause : (s.trapOf cTrapInsn 0).causeWord = cause := Trap.causeWord_trapInsn _ _
  refine ⟨fun hu => ?user, fun hsup => ?supervisor⟩
  case supervisor =>
    refine congrArg Host.Outcome.next ((State.takeTrap_eq_supervisor hr hsup).trans ?_)
    unfold State.trapped
    rw [hcause]
    rfl
  case user =>
    have counts (room : q.pending < 1024) (near : paPkg q.qsync = s.pkg) (r : TrapRec) :=
      State.post_counts (s := s) (u := s.departing (s.trapOf cTrapInsn 0)) r rfl rfl rfl rfl room near
    refine ⟨_, congrArg Host.Outcome.next (State.takeTrap_eq_user hr hu), (State.post_ctx _ _ _).trans ?ctx,
      fun room => State.post_queue_of_room (s.departing _) _ room, fun room near still => ?still, fun room near held => ?held,
      fun full => State.post_queue_of_full (s.departing _) full rfl, fun h => State.post_counts_nowhere (s.departing _) _ h,
      fun d hd => State.post_dieAt_other (s.departing _) _ hd, (State.post_frame (s.departing _) _ _).trans ?frame⟩
    case ctx =>
      rw [State.departing, State.trapped, hcause]
      rfl
    case still =>
      obtain ⟨hm, ht⟩ := counts room near _
      obtain ⟨hm', ht'⟩ := State.countAt_still 64 still
      exact ⟨hm.trans hm', ht.trans ht'⟩
    case held =>
      obtain ⟨hm, ht⟩ := counts room near _
      obtain ⟨hm', ht'⟩ := State.countAt_held 64 held
      exact ⟨hm.trans hm', ht.trans ht'⟩
    case frame =>
      rw [State.post_ctx]
      rfl

end Sys2Proof.Machine
end

section
/-!
PROOFS. Control registers (R29, R30, R220, R394): what each reads, and what a write of one makes each of them read.
-/

namespace Sys2Proof.Machine

open Sys2Proof.Claims

variable {s : State} {q : Seqr}

/-! ### Reading -/

theorem packNat_bits (p : Nat → Bool) (n : Nat) :
    packNat 1 (fun i => bitOf (p i)) n = (((List.range n).filter p).map (2 ^ ·)).sum := by
  induction n with
  | zero => rfl
  | succ n ih =>
    rw [packNat, ih, List.range_succ, List.filter_append, List.map_append, List.sum_append, List.filter_singleton, Nat.one_mul]
    cases p n <;> simp [bitOf]

/-- The control registers of the statements are those of the model, in the order of Table 1.3. -/
theorem controlRegisters_eq (q : Seqr) : controlRegisters q = (List.range 20).map q.cr := by
  have tags : q.cr 7 = BitVec.ofNat 64 (((List.range 16).filter (fun i => (q.tags[i]?.getD none).isSome)).map (2 ^ ·)).sum :=
    congrArg (BitVec.ofNat 64) (packNat_bits (fun i => (q.tags[i]?.getD none).isSome) 16)
  have ids : q.cr 13 = BitVec.ofNat 64 (q.job.toNat * 2 ^ 16 + q.index.toNat) :=
    congrArg (BitVec.ofNat 64) (by rw [Nat.add_comm, Nat.mul_comm])
  simp only [controlRegisters, ← tags, ← ids]
  rfl

theorem controlRegisters_getElem? (q : Seqr) {n : Nat} (h : n < 20) : (controlRegisters q)[n]? = some (q.cr n) := by
  rw [controlRegisters_eq]
  simp [h]

/-! ### Writing -/

/-- A write of one control register leaves the others. -/
theorem Seqr.cr_setCr_other {n k : Nat} (v : W64) (h : k ≠ n) : (q.setCr n v).cr k = q.cr k := by
  unfold Seqr.setCr
  split <;> (unfold Seqr.cr; split <;> trivial)

/-- What a control register reads after a write of a value without reserved bits: its low bits, to which the counters add what the
group counts and cr.fstat what it raises; a seed of zero becomes one (R30, R394). -/
def State.writtenCr (s : State) (n : Nat) (v : W64) : Nat :=
  let low := v.toNat % 2 ^ (controlWidths[n]?.getD 0)
  match n with
  | 4 => if low = 0 then 1 else low
  | 5 => low ||| s.issue.raised.toNat
  | 9 => min (low + s.issue.bankCycles) 0xFFFFFFFF
  | 12 => min (low + s.issue.roerrs) 0xFFFFFFFF
  | _ => low

theorem truncate_zeroExtend (v : W64) (w : Nat) :
    (v.truncate w).zeroExtend 64 = BitVec.ofNat 64 (v.toNat % 2 ^ w) := by
  apply BitVec.eq_of_toNat_eq
  rw [BitVec.toNat_setWidth, BitVec.toNat_setWidth, BitVec.toNat_ofNat]

theorem seedFix_zeroExtend (v : W64) :
    (seedFix (v.truncate 32)).zeroExtend 64 = BitVec.ofNat 64 (if v.toNat % 2 ^ 32 = 0 then 1 else v.toNat % 2 ^ 32) := by
  have zero : v.truncate 32 = 0 ↔ v.toNat % 2 ^ 32 = 0 := by
    rw [← BitVec.toNat_inj, BitVec.toNat_setWidth]
    rfl
  unfold seedFix
  simp only [zero]
  split
  · rfl
  · exact truncate_zeroExtend v 32

/-- The flags that the group raises join the seven bits of cr.fstat (R31, R394). -/
theorem fstat_zeroExtend (v : W64) (f : BitVec 7) (h : v.toNat % 2 ^ 32 / 2 ^ 7 = 0) :
    (((v ||| f.zeroExtend 64).truncate 7).zeroExtend 32).zeroExtend 64 = BitVec.ofNat 64 (v.toNat % 2 ^ 32 ||| f.toNat) := by
  have hf : f.toNat < 2 ^ 7 := f.isLt
  have hv : v.toNat % 2 ^ 32 < 2 ^ 7 := by omega
  have seven : (v.toNat ||| f.toNat) % 2 ^ 7 = v.toNat % 2 ^ 32 ||| f.toNat := by
    rw [Nat.or_mod_two_pow, Nat.mod_eq_of_lt hf, show v.toNat % 2 ^ 7 = v.toNat % 2 ^ 32 by omega]
  have small := Nat.or_lt_two_pow hv hf
  apply BitVec.eq_of_toNat_eq
  rw [BitVec.toNat_setWidth, BitVec.toNat_setWidth, BitVec.toNat_setWidth, BitVec.toNat_or, BitVec.toNat_setWidth,
    Nat.mod_eq_of_lt (a := f.toNat) (by omega), seven, BitVec.toNat_ofNat]
  omega

theorem counter_zeroExtend (v : W64) (n : Nat) :
    (((satAdd (v.truncate 32) n).zeroExtend 64).truncate 32).zeroExtend 64 =
      BitVec.ofNat 64 (min (v.toNat % 2 ^ 32 + n) 0xFFFFFFFF) := by
  have sat : satAdd (v.truncate 32) n = BitVec.ofNat 32 (min (v.toNat % 2 ^ 32 + n) 0xFFFFFFFF) := by
    rw [satAdd, BitVec.toNat_setWidth]
  apply BitVec.eq_of_toNat_eq
  rw [sat]
  simp only [BitVec.toNat_setWidth, BitVec.toNat_ofNat]
  omega

theorem cause_zeroExtend (v : W64) (h : v.toNat % 2 ^ 32 / 2 ^ 16 = 0) :
    ((v.truncate 16).zeroExtend 32).zeroExtend 64 = BitVec.ofNat 64 (v.toNat % 2 ^ 32) := by
  apply BitVec.eq_of_toNat_eq
  simp only [BitVec.toNat_setWidth, BitVec.toNat_ofNat]
  omega

theorem ofNat_mod_64 (v : W64) : v = BitVec.ofNat 64 (v.toNat % 2 ^ 64) := by
  rw [Nat.mod_eq_of_lt v.isLt, BitVec.ofNat_toNat, BitVec.setWidth_eq]

theorem State.cr_writeCr : ∀ {n : Nat} {v : W64}, n < 20 → crReadOnly n = false → crAccepts n v = true →
    (s.writeCr n v).ctx.cr n = BitVec.ofNat 64 (s.writtenCr n v)
  | 0, v, _, _, _ => truncate_zeroExtend v 5
  | 1, v, _, _, _ => truncate_zeroExtend v 2
  | 2, v, _, _, _ => truncate_zeroExtend v 3
  | 3, v, _, _, _ => truncate_zeroExtend v 2
  | 4, v, _, _, _ => seedFix_zeroExtend v
  | 5, v, _, _, fits => fstat_zeroExtend v s.issue.raised (of_decide_eq_true fits)
  | 8, v, _, _, _ => truncate_zeroExtend v 2
  | 9, v, _, _, _ => counter_zeroExtend v s.issue.bankCycles
  | 10, v, _, _, _ => truncate_zeroExtend v 32
  | 11, v, _, _, _ => truncate_zeroExtend v 32
  | 12, v, _, _, _ => counter_zeroExtend v s.issue.roerrs
  | 15, v, _, _, fits => cause_zeroExtend v (of_decide_eq_true fits)
  | 16, v, _, _, _ => ofNat_mod_64 v
  | 17, v, _, _, _ => ofNat_mod_64 v
  | 18, v, _, _, _ => ofNat_mod_64 v
  | 6, _, _, ro, _ | 7, _, _, ro, _ | 13, _, _, ro, _ | 14, _, _, ro, _ | 19, _, _, ro, _ => absurd ro (by decide)
  | n + 20, _, lt, _, _ => absurd lt (by omega)

/-- A write of a control register changes the context alone, and of it that register alone. -/
theorem State.controlRegisters_writeCr {n : Nat} {v : W64} (hn : n < 20) (hw : crReadOnly n = false) (hv : crAccepts n v = true)
    (k : Nat) (hk : k < 20) :
    (controlRegisters (s.writeCr n v).ctx)[k]? =
      if k = n then some (BitVec.ofNat 64 (s.writtenCr n v)) else (controlRegisters s.ctx)[k]? := by
  rw [controlRegisters_getElem? _ hk, controlRegisters_getElem? _ hk]
  split
  next e => rw [e, State.cr_writeCr hn hw hv]
  next ne => rw [← s.ctx.cr_setCr_other _ ne]; rfl

/-- A write of a control register leaves the register files, the loop stack, the ports and the staging registers. -/
theorem Seqr.setCr_files (q : Seqr) (n : Nat) (v : W64) :
    (q.setCr n v).g = q.g ∧ (q.setCr n v).b = q.b ∧ (q.setCr n v).v = q.v ∧ (q.setCr n v).k = q.k ∧ (q.setCr n v).pc = q.pc ∧
      (q.setCr n v).ls = q.ls ∧ (q.setCr n v).mp = q.mp ∧ (q.setCr n v).staging = q.staging ∧ (q.setCr n v).ports = q.ports := by
  unfold Seqr.setCr
  split <;> exact ⟨rfl, rfl, rfl, rfl, rfl, rfl, rfl, rfl, rfl⟩

theorem State.writeCr_files (s : State) (n : Nat) (v : W64) :
    let q := (s.writeCr n v).ctx
    q.g = s.ctx.g ∧ q.b = s.ctx.b ∧ q.v = s.ctx.v ∧ q.k = s.ctx.k ∧ q.pc = s.ctx.pc ∧ q.ls = s.ctx.ls ∧ q.mp = s.ctx.mp ∧
      q.staging = s.ctx.staging ∧ q.ports = s.ctx.ports :=
  s.ctx.setCr_files n _

/-! ### The instructions -/

theorem execMfc_reads {l h : BitVec 5} {n : BitVec 8} (hn : n ≠ 18 ∨ s.src.sup = true) :
    execMfc l h n s = .next ((s.wg l ((s.src.cr n.toNat).truncate 32) 0).wg h (BitVec.ofNat 32 ((s.src.cr n.toNat).toNat / 2 ^ 32)) 0) := by
  unfold execMfc
  refine congrArg Host.Outcome.next (if_neg ?_)
  rw [Bool.and_eq_true, decide_eq_true_eq, Bool.not_eq_true', not_and, Bool.not_eq_false]
  exact fun h18 => hn.resolve_left (not_not_intro h18)

theorem execMfc_user {l h : BitVec 5} {n : BitVec 8} (hn : n = 18) (hu : s.src.sup = false) :
    execMfc l h n s = .next (s.raise cPriv 0) := by
  unfold execMfc
  exact congrArg Host.Outcome.next (if_pos (by rw [decide_eq_true hn, hu]; rfl))

/-- Settles O12: two writes of g registers, the later one to the high half. -/
theorem controlRegisterRead : Obligations.ControlRegisterRead := by
  unfold Obligations.ControlRegisterRead
  intro s l h n hn v
  have hv : v = s.src.cr n.toNat := by
    unfold v
    rw [controlRegisters_getElem? _ (by omega)]
    rfl
  refine ⟨fun ok => ⟨_, execMfc_reads ok, fun r => ?_, ?_⟩, fun h18 hu => ?_⟩
  · rw [State.rg_wg, State.rg_wg, hv, BitVec.ofNat_toNat]
  · rw [State.wg_frame, State.wg_frame s]
  · exact execMfc_user h18 hu

theorem ignoredWrite_roerrUp : ignoredWrite s (.next s.roerrUp) := rfl

theorem crReadOnly_iff (n : Nat) : crReadOnly n = true ↔ n ∈ [6, 7, 13, 14, 19] := by
  simp [crReadOnly, or_assoc]

theorem crSupWrite_iff (n : Nat) : crSupWrite n = true ↔ n ∈ [8, 10, 11, 15, 16, 17, 18] := by
  simp [crSupWrite, or_assoc]

/-- The reserved values and fields of R29. -/
theorem crAccepts_false_iff (n : BitVec 8) (v : W64) :
    crAccepts n.toNat v = false ↔
      n = 2 ∧ 5 ≤ v.toNat % 8 ∨ n = 5 ∧ v.toNat % 2 ^ 32 / 2 ^ 7 ≠ 0 ∨ n = 15 ∧ v.toNat % 2 ^ 32 / 2 ^ 16 ≠ 0 := by
  have num (k : BitVec 8) : n = k ↔ n.toNat = k.toNat := BitVec.toNat_inj.symm
  rw [num 2, num 5, num 15]
  unfold crAccepts
  split
  next e => simp [e]; omega
  next e => simp [e]
  next e => simp [e]
  next h2 h5 h15 => simpa using ⟨fun e => (h2 e).elim, fun e => (h5 e).elim, fun e => (h15 e).elim⟩

theorem crReadOnly_of_crSupWrite {n : Nat} (h : crSupWrite n = true) : crReadOnly n = false := by
  simp only [crSupWrite, crReadOnly, Bool.or_eq_true, decide_eq_true_eq, Bool.or_eq_false_iff, decide_eq_false_iff_not] at *
  omega

/-- What `mtc` does with operands that carry no mask. -/
theorem execMtc_plain {l h : BitVec 5} {n : BitVec 8} (hl : (s.rg l).taint = 0) (hh : (s.rg h).taint = 0) :
    execMtc l h n s = .next (
      let v : W64 := BitVec.ofNat 64 ((s.rg h).val.toNat * 2 ^ 32 + (s.rg l).val.toNat)
      if crReadOnly n.toNat then s.roerrUp
      else if crSupWrite n.toNat && !s.src.sup then s.raise cPriv 0
      else if !crAccepts n.toNat v then s.roerrUp
      else s.writeCr n.toNat v) := by
  unfold execMtc
  have word : (s.rg l).val.toNat + 2 ^ 32 * (s.rg h).val.toNat = (s.rg h).val.toNat * 2 ^ 32 + (s.rg l).val.toNat := by omega
  rw [hl, hh]
  refine congrArg Host.Outcome.next ((s.hold_zero _).trans ?_)
  rw [word]

/-- Settles O13: the lemmas above say which writes are refused and what the others leave in each register. -/
theorem controlRegisterWrite : Obligations.ControlRegisterWrite := by
  unfold Obligations.ControlRegisterWrite
  intro s l h n hn hl hh v readOnly supOnly reserved low result
  have e := execMtc_plain (n := n) hl hh
  have ro : crReadOnly n.toNat = true ↔ readOnly := crReadOnly_iff _
  have so : crSupWrite n.toNat = true ↔ supOnly := crSupWrite_iff _
  have rs : crAccepts n.toNat v = false ↔ reserved := crAccepts_false_iff n v
  have mayWrite (hw : ¬ readOnly) (hs : supOnly → s.src.sup = true) :
      exec (.mtc l h n) s = .next (if !crAccepts n.toNat v then s.roerrUp else s.writeCr n.toNat v) := by
    refine e.trans (congrArg Host.Outcome.next ?_)
    rw [if_neg (mt ro.mp hw), if_neg]
    rw [Bool.and_eq_true, Bool.not_eq_true', not_and, Bool.not_eq_false]
    exact fun h => hs (so.mp h)
  refine ⟨fun hr => ?ignored, fun hs hu => ?user, fun hw hs hv => ?reserved, fun hw hs hv => ?written⟩
  case ignored =>
    exact e.trans (congrArg Host.Outcome.next (if_pos (ro.mpr hr)))
  case user =>
    refine e.trans (congrArg Host.Outcome.next ?_)
    rw [crReadOnly_of_crSupWrite (so.mpr hs), so.mpr hs, hu]
    rfl
  case reserved =>
    rw [mayWrite hw hs, rs.mpr hv]
    exact ignoredWrite_roerrUp
  case written =>
    have hv : crAccepts n.toNat v = true := Bool.not_eq_false _ ▸ mt rs.mp hv
    have hro : crReadOnly n.toNat = false := Bool.eq_false_iff.mpr (mt ro.mp hw)
    rw [mayWrite hw hs, hv]
    obtain ⟨hg, hb, hvec, hk, hpc, hls, hmp, hst, hports⟩ := s.writeCr_files n.toNat v
    exact ⟨_, rfl, fun k hk => State.controlRegisters_writeCr (by omega) hro hv k hk, hg, hb, hvec, hk, hpc, hls, hmp, hst,
      hports, rfl⟩

end Sys2Proof.Machine
end

section
/-!
PROOFS. Package time, the schema variant and the catalogue (R206, R221, R224), and the instructions on taint masks (R145).
-/

namespace Sys2Proof.Machine

open Sys2Proof.Claims

variable {s : State}

/-! ### Package time -/

/-- The value that `ptime` reads: package time, or the later one that the sequencer has read already (R224). -/
def State.timeRead (s : State) : W64 := if s.ctx.lastPtime.toNat < s.ptime.toNat then s.ptime else s.ctx.lastPtime

theorem execPtime_eq (d : BitVec 3) :
    execPtime d s = .next ({ s with ctx := { s.ctx with lastPtime := s.timeRead } }.wb d s.timeRead 0) := by
  have now : (if s.ctx.lastPtime.ult s.ptime then s.ptime else s.ctx.lastPtime) = s.timeRead :=
    if_congr BitVec.ult_iff_toNat_lt rfl rfl
  unfold execPtime
  rw [now]

/-! ### The catalogue -/

theorem keyOf_pkg_eq_iff (key : W64) (p : BitVec 15) : (keyOf key).pkg = p ↔ key.toNat / 2 ^ 49 = p.toNat := by
  have hk := key.isLt
  rw [← BitVec.toNat_inj]
  change key.toNat / 2 ^ 49 % 2 ^ 15 % 2 ^ 15 = p.toNat ↔ _
  omega

theorem keyOf_pkg (key : W64) : (keyOf key).pkg = BitVec.ofNat 15 (key.toNat / 2 ^ 49) :=
  (keyOf_pkg_eq_iff key _).mpr (by have := key.isLt; rw [BitVec.toNat_ofNat]; omega)

/-- A supervisor's `rdst` of this package: the catalogue word, or zero with the absent read counted (R37, R221). -/
theorem execRdst_near {d a : BitVec 3} (hs : s.src.sup = true) (ha : (s.rb a).taint = 0)
    (hp : (s.rb a).val.toNat / 2 ^ 49 = s.pkg.toNat) :
    execRdst d a s = .next ((s.catRead (s.rb a).val).2.wb d ((s.catRead (s.rb a).val).1.getD 0) 0) := by
  unfold execRdst
  rw [State.supOnly_supervisor _ hs, ha, State.hold_zero]
  exact congrArg Host.Outcome.next (if_pos ((keyOf_pkg_eq_iff _ _).mpr hp))

/-- A supervisor's `rdst` of another package: it asks once and takes the reply (R221). -/
theorem execRdst_far {d a : BitVec 3} (hs : s.src.sup = true) (ha : (s.rb a).taint = 0)
    (hp : (s.rb a).val.toNat / 2 ^ 49 ≠ s.pkg.toNat) :
    execRdst d a s = .next (s.ask .reply false none
      (fun t => .catRead (keyOf (s.rb a).val).pkg s.ctx.handle t (s.rb a).val) (fun r s' =>
        match r with
        | .value v => s'.wb d (vecWord v 0) 0
        | .fault _ _ => s'.raise cRmtFault (s.rb a).val
        | .poison _ => s'.raise cRmtFault (s.rb a).val
        | .again => s'.stall .reply)) := by
  unfold execRdst
  rw [State.supOnly_supervisor _ hs, ha, State.hold_zero]
  exact congrArg Host.Outcome.next (if_neg (mt (keyOf_pkg_eq_iff _ _).mp hp))

/-- A member with no request at its place sends one and waits (R227); a wait that cannot park is not ended by a held matrix
error (R191). -/
theorem asksFor_ask {w : Wait} {effect : Bool} {p : Nat → Packet} {go : Reply → State → State} {o : Out}
    (e : o = .next (s.ask w effect none p go)) (hw : w.parkable = false) (h : request s = none) : asksFor s effect w p o := by
  have unasked : s.ctx.asks.find? (fun a => a.pos = s.askPos) = none := h
  have waits : (s.sendAsk effect none p).stall w =
      { s.sendAsk effect none p with issue := { s.issue with flow := .wait w } } := by
    rcases (s.sendAsk effect none p).stall_cases w with ⟨e, -⟩ | ⟨c, a, -, parks, -⟩
    · exact e
    · rw [hw] at parks
      exact absurd parks (by decide)
  have asked : s.ask w effect none p go = (s.sendAsk effect none p).stall w := by
    unfold State.ask
    rw [unasked]
  rw [e, asked, waits]
  rfl

/-- A member whose request is answered goes on with the reply. -/
theorem ask_reply {w : Wait} {effect : Bool} {place : Option (BitVec 15 × Via × W64 × W64)} {p : Nat → Packet}
    {go : Reply → State → State} {r : Reply} (h : (request s).bind Ask.reply = some r) (hr : r ≠ .again) :
    s.ask w effect place p go = go r { s with issue := { s.issue with taken := s.issue.taken + 1 } } := by
  obtain ⟨⟨pos, tag, e, pl, rep⟩, found, rfl : rep = some r⟩ := Option.bind_eq_some_iff.mp h
  have found : s.ctx.asks.find? (fun a => a.pos = s.askPos) = some ⟨pos, tag, e, pl, some r⟩ := found
  unfold State.ask
  rw [found]
  exact if_neg hr

/-- Settles O14: time and variant are register writes; a catalogue word is read here or asked for there. -/
theorem systemReads : Obligations.SystemReads := by
  unfold Obligations.SystemReads
  intro s d a e v w ha now key
  refine ⟨⟨_, execPtime_eq d, fun r => State.rb_wb _ d r _ _, rfl⟩, writesG_wg rfl, fun hs hp hv => ?here, fun hs hp hv => ?absent,
    fun hs hp hr => ?asks, fun hs hp hr => ?replied, fun hu => ?user⟩
  case here =>
    have read : s.catRead key = (some v, s) := by rw [State.catRead, hv]
    refine writesB_of_eq ((execRdst_near hs ha hp).trans ?_)
    rw [read]
    rfl
  case absent =>
    have read : s.catRead key = (none, { s with absentReads := s.absentReads + 1 }) := by rw [State.catRead, hv]
    refine writesB_of_eq ((execRdst_near hs ha hp).trans ?_)
    rw [read]
    rfl
  case asks =>
    have e := execRdst_far (d := d) hs ha hp
    rw [keyOf_pkg] at e
    exact asksFor_ask e rfl hr
  case replied =>
    have e := execRdst_far (d := d) hs ha hp
    rw [ask_reply hr (by simp)] at e
    exact writesB_of_eq e
  case user => exact congrArg Host.Outcome.next (State.supOnly_user _ hu)

/-! ### Taint -/

theorem State.maskOf_eq_namedMask (s : State) (r : BitVec 5) (h : BitVec 1) (f : BitVec 2) : s.maskOf r h f = namedMask s r h f := by
  obtain rfl | rfl | rfl | rfl : f = 0 ∨ f = 1 ∨ f = 2 ∨ f = 3 := by
    revert f; decide
  all_goals rfl

/-- With no tag of the mask in the table nothing holds (R145). -/
theorem State.hold_of_free {m : Mask} (go : State → State)
    (h : ∀ i < 16, m.getLsbD i = true → s.src.tags[i]?.getD none = none) : s.hold m go = go s := by
  have free : (List.range 16).all (fun i => !(m.getLsbD i && (s.src.tags[i]?.getD none).isSome)) = true := by
    simp only [List.all_eq_true, List.mem_range, Bool.not_eq_true', Bool.and_eq_false_imp]
    intro i hi hm
    rw [h i hi hm]
    rfl
  unfold State.hold
  rw [if_pos free, ite_self]

/-- The lowest void tag of a mask, with the address of its dropped store (R232). -/
def State.voidTag (s : State) (m : Mask) : Option (Nat × W64) :=
  (List.range 16).findSome? (fun i =>
    if m.getLsbD i then ((s.src.tags[i]?.getD none).bind TagEntry.void).map (fun a => (i, a)) else none)

/-- A tag of the mask in the table holds: the lowest void tag is reported, or the member waits (R117, R232). -/
theorem State.hold_of_held {m : Mask} (go : State → State) {i : Nat} (hi : i < 16) (hm : m.getLsbD i = true)
    (h : (s.src.tags[i]?.getD none).isSome = true) :
    s.hold m go = (s.voidTag m).elim (s.stall .taint) (fun v => s.raiseVoid v.1 v.2) := by
  have tainted : m ≠ 0 := by
    rintro rfl
    simp at hm
  have held : ¬ (List.range 16).all (fun i => !(m.getLsbD i && (s.src.tags[i]?.getD none).isSome)) = true := by
    simp only [List.all_eq_true, List.mem_range, Bool.not_eq_true', not_forall]
    exact ⟨i, hi, by rw [hm, h]; decide⟩
  unfold State.hold
  rw [if_neg tainted, if_neg held, ← State.voidTag]
  cases s.voidTag m <;> rfl

/-- Live tags hold, where none of the mask is void (R117). -/
theorem State.hold_of_live {m : Mask} (go : State → State) {i : Nat} (hi : i < 16) (hm : m.getLsbD i = true)
    (h : (s.src.tags[i]?.getD none).isSome = true)
    (live : ∀ i < 16, m.getLsbD i = true → (s.src.tags[i]?.getD none).bind TagEntry.void = none) :
    s.hold m go = s.stall .taint := by
  rw [s.hold_of_held go hi hm h]
  have noVoid : s.voidTag m = none := by
    refine List.findSome?_eq_none_iff.mpr (fun i hi => ?_)
    split
    next hm => rw [live i (List.mem_range.mp hi) hm]; rfl
    · rfl
  rw [noVoid]
  rfl

theorem findSome?_range {α : Type} {f : Nat → Option α} {n i : Nat} {x : α} (hi : i < n) (h : f i = some x)
    (lowest : ∀ j < i, f j = none) : (List.range n).findSome? f = some x := by
  induction n with
  | zero => exact absurd hi (Nat.not_lt_zero i)
  | succ n ih =>
    rw [List.range_succ, List.findSome?_append]
    rcases Nat.lt_succ_iff_lt_or_eq.mp hi with lt | rfl
    · rw [ih lt]
      rfl
    · have before : (List.range i).findSome? f = none :=
        List.findSome?_eq_none_iff.mpr (fun j hj => lowest j (List.mem_range.mp hj))
      rw [before, List.findSome?_singleton, h]
      rfl

/-- The lowest void tag of the mask is reported with its dropped address (R232). -/
theorem State.hold_of_void {m : Mask} (go : State → State) {i : Nat} {e : W64} (hi : i < 16) (hm : m.getLsbD i = true)
    (h : (s.src.tags[i]?.getD none).bind TagEntry.void = some e)
    (lowest : ∀ j < i, m.getLsbD j = true → (s.src.tags[j]?.getD none).bind TagEntry.void = none) :
    s.hold m go = s.raiseVoid i e := by
  have live : (s.src.tags[i]?.getD none).isSome = true := by
    obtain ⟨t, ht, -⟩ := Option.bind_eq_some_iff.mp h
    rw [ht]
    rfl
  rw [s.hold_of_held go hi hm live]
  have first : s.voidTag m = some (i, e) := by
    refine findSome?_range hi (by rw [if_pos hm, h]; rfl) (fun j hj => ?_)
    split
    next hm => rw [lowest j hj hm]; rfl
    · rfl
  rw [first]
  rfl

theorem earlierEntries_of_noStores (h : noStores s) : s.earlierEntries = [] := by
  obtain ⟨curbs, -, -⟩ := h
  have noEntry : s.entriesOf s.ctx.handle = [] := by
    unfold State.entriesOf
    rw [List.flatMap_eq_nil_iff.mpr (fun d hd => show s.curbOf d = [] from curbs d (List.mem_range.mp hd))]
    rfl
  rw [State.earlierEntries, noEntry]
  rfl

theorem scPending_eq_false (h : ∀ e ∈ s.earlierEntries, e.sc = false) : s.scPending = false := by
  unfold State.scPending
  rw [List.any_eq_false]
  exact fun e he => Bool.eq_false_iff.mp (h e he)

theorem execTbind_free {r : BitVec 5} {h : BitVec 1} {f : BitVec 2}
    (free : ∀ i < 16, (namedMask s r h f).getLsbD i = true → s.src.tags[i]?.getD none = none)
    (sc : ∀ e ∈ s.earlierEntries, e.sc = false) : execTbind r h f s = .next s := by
  unfold execTbind
  rw [State.maskOf_eq_namedMask, State.hold_of_free _ free, scPending_eq_false sc]
  rfl

/-- Settles O31: `tbind` is a hold on the named mask, and `tclr` and `tmask` are register writes. -/
theorem taintInstructions : Obligations.TaintInstructions := by
  unfold Obligations.TaintInstructions
  intro s d r h f e n r3 m tag
  have mask : s.maskOf r h f = m := s.maskOf_eq_namedMask r h f
  have bind (x : State) (hold : s.hold m (fun s => if s.scPending then s.stall .fence else s) = x) :
      exec (.tbind r h f) s = .next x := by
    change Host.Outcome.next (s.hold (s.maskOf r h f) _) = _
    rw [mask, hold]
  refine ⟨writesG_wg (congrArg _ mask), fun hn ht => ?none, fun free sc => execTbind_free free sc,
    fun ⟨i, hi, hm, live⟩ voids => bind _ (State.hold_of_live _ hi hm live voids),
    fun i hi hm hv low => bind _ (State.hold_of_void _ hi hm hv low), fun h0 => ?ctaint, fun h0 => ?g, writesB_wb rfl,
    fun hn => ?v, fun hn => ?port, writesK_wk rfl⟩
  case none =>
    refine execTbind_free (fun i hi _ => ?_) (by rw [earlierEntries_of_noStores hn]; exact fun _ h => nomatch h)
    obtain ⟨-, -, tags⟩ := hn
    rw [ht, tags, Vector.getElem?_replicate, if_pos hi]
    rfl
  case ctaint => exact congrArg Host.Outcome.next (if_pos h0)
  case g => exact writesG_of_eq (congrArg Host.Outcome.next (if_neg h0))
  case v => exact writesV_of_eq hn (congrArg Host.Outcome.next (if_pos hn))
  case port => exact congrArg Host.Outcome.next (if_neg (Nat.not_lt.mpr hn))

end Sys2Proof.Machine
end

section
/-!
PROOFS. Rotated register numbers (R19), shown by moves: a vector code as the only source of a `vmov` under k0, and `kmov`.
-/

namespace Sys2Proof.Machine

open Sys2Proof.Claims

variable {s : State}

/-! ### Lanes -/

theorem packNat_digits (w x n : Nat) : packNat w (fun i => x / 2 ^ (w * i) % 2 ^ w) n = x % 2 ^ (w * n) := by
  induction n with
  | zero => simp [packNat, Nat.mod_one]
  | succ n ih => rw [packNat, ih, Nat.mul_succ, Nat.pow_add, Nat.mod_mul, Nat.mul_comm (2 ^ (w * n))]

theorem ofLanes_lane (v : Vec) : ofLanes (lane v) = v := by
  have digits : (fun l => (lane v l).toNat) = fun l => v.toNat / 2 ^ (32 * l) % 2 ^ 32 := by
    funext l
    rw [lane, BitVec.extractLsb'_toNat, Nat.shiftRight_eq_div_pow]
  rw [ofLanes, digits, packNat_digits, Nat.mod_eq_of_lt v.isLt, BitVec.ofNat_toNat, BitVec.setWidth_eq]

/-! ### One vector code as a source -/

theorem State.popCodes_register {a : BitVec 6} (ha : a.toNat < 56) : s.popCodes [a] = s := by
  have noPort : [a].eraseDups.filter (fun c => decide (56 ≤ c.toNat)) = [] := by simp [ha]
  rw [State.popCodes, noPort]
  rfl

theorem State.popCodes_port {a : BitVec 6} (ha : 56 ≤ a.toNat) :
    s.popCodes [a] = s.modFeed (a.toNat - 56) (fun f => { f with entries := f.entries.drop 1 }) := by
  have onePort : [a].eraseDups.filter (fun c => decide (56 ≤ c.toNat)) = [a] := by
    change [a].filter _ = [a]
    rw [List.filter_singleton, decide_eq_true ha]
    rfl
  rw [State.popCodes, onePort]
  rfl

theorem State.port_modFeed {p : Nat} (f : FeedPort → FeedPort) (hp : p < 8) (n : Nat) :
    (s.modFeed p f).ctx.port n = if n = p then f (s.ctx.port p) else s.ctx.port n := by
  unfold State.modFeed Seqr.port
  by_cases h : n = p
  · subst h
    simp [hp]
  · simp [Vector.getElem?_setIfInBounds_ne (Ne.symm h), h]

theorem State.modFeed_src_vrot (p : Nat) (f : FeedPort → FeedPort) : (s.modFeed p f).src.vrot = s.src.vrot := by
  unfold State.modFeed State.src
  cases s.issue.pre <;> rfl

theorem readCodes_one {q : Seqr} {a : BitVec 6} {r : VReg} (h : readCode q a = .ok r) : readCodes q [a] = .ok [r] := by
  rw [readCodes, h]
  rfl

theorem readCode_register {q : Seqr} {a : BitVec 6} (ha : a.toNat < 56) : readCode q a = .ok (q.rv a.toNat) := if_pos ha

/-- A bound fill port reads as its oldest entry (R23). -/
theorem readCode_port {q : Seqr} {a : BitVec 6} (ha : 56 ≤ a.toNat) (hb : (q.port (a.toNat - 56)).bind = 1)
    (he : (q.port (a.toNat - 56)).entries ≠ []) :
    readCode q a = .ok { val := (q.port (a.toNat - 56)).entries.headD 0, tag := (q.port (a.toNat - 56)).tag
                         aux := (q.port (a.toNat - 56)).aux, taint := 0 } := by
  obtain ⟨e, es, entries⟩ := List.exists_cons_of_ne_nil he
  rw [readCode, if_neg (Nat.not_lt.mpr ha), readPort, if_neg (not_not_intro hb), entries]
  rfl

/-! ### Moves -/

theorem State.flag_none (s : State) : s.flag 0 = s := by
  have fstat : s.ctx.fstat ||| (0 : BitVec 7).zeroExtend 32 = s.ctx.fstat := BitVec.or_zero
  have raised : s.issue.raised ||| 0 = s.issue.raised := BitVec.or_zero
  rw [State.flag, fstat, raised]

theorem State.finish_pure (v : Vec) (go : State → State) : s.finish (.pure v s.seedNow) go = go s :=
  congrArg go s.flag_none

/-- A form that moves bits, under k0 to a register: its sources are popped, and it raises no flag and draws nothing (R150, R161). -/
theorem State.vbits_k0 {d : BitVec 6} {cs : List (BitVec 6)} {rs : List VReg} {check : List VReg → Bool} {f : List VReg → Nat → W32}
    (hd : d.toNat < 56) (hr : readCodes s.src cs = .ok rs) (hv : (rs.all tagValid && check rs) = true) :
    s.vbits d cs 0 check f = (s.popCodes cs).wv d.toNat
      { val := ofLanes (f rs), tag := (srcAt rs 0).tag, aux := (srcAt rs 0).aux, taint := rs.foldl (fun m r => m ||| r.taint) 0 } := by
  unfold State.vbits State.vform State.withCodes
  rw [hr, if_neg (by simp)]
  dsimp only
  rw [if_neg (by simp [hv]), if_neg (by simp)]
  rw [State.finish_pure, State.writeCode, if_pos hd, if_pos rfl, if_neg (by decide),
    show ∀ m : Mask, m ||| 0 = m from fun _ => BitVec.or_zero]
  rfl

/-- `vmov` under k0 writes what its source reads, and pops it where it is a port (R150, R161). -/
theorem execVmov_moves {d a : BitVec 6} {x : VReg} (hd : d.toNat < 56) (hx : readCode s.src a = .ok x)
    (hv : ¬ (x.tag = 8 ∧ x.aux = 7)) : execVmov d a 0 s = .next ((s.popCodes [a]).wv d.toNat x) := by
  refine congrArg Host.Outcome.next ((State.vbits_k0 hd (readCodes_one hx) ?_).trans ?_)
  · simpa [tagValid, or_iff_not_imp_left] using hv
  · change (s.popCodes [a]).wv d.toNat { val := ofLanes (lane x.val), tag := x.tag, aux := x.aux, taint := 0 ||| x.taint } = _
    rw [ofLanes_lane, show 0 ||| x.taint = x.taint from BitVec.zero_or]

/-- Settles O48: the physical number of a read is that of the base before the group, as that of a write is. -/
theorem rotatedNumbers : Obligations.RotatedNumbers := by
  unfold Obligations.RotatedNumbers
  intro s d a e c hd x f
  refine ⟨fun ha hv => ?register, fun ha hb he hv => ?port, ?kmov⟩
  case register =>
    have moves := execVmov_moves hd (readCode_register (q := s.src) ha) hv
    rw [State.popCodes_register ha] at moves
    exact ⟨_, moves, fun n _ => State.v_wv s d.toNat _ hd n, rfl⟩
  case port =>
    have moves := execVmov_moves hd (readCode_port (q := s.src) ha hb he) hv
    rw [State.popCodes_port ha] at moves
    refine ⟨_, moves, fun n _ => ?_, fun p _ => ?_, rfl⟩
    · rw [State.v_wv _ _ _ hd, State.modFeed_src_vrot]
      rfl
    · refine (State.port_modFeed (s := s) (fun f => { f with entries := f.entries.drop 1 }) (by omega) p).trans ?_
      unfold popped
      simp only [List.any_cons, List.any_nil, Bool.or_false, decide_eq_true_eq, show a.toNat = 56 + p ↔ p = a.toNat - 56 by omega]
      split
      next e => rw [e]
      · rfl
  case kmov =>
    refine ⟨_, rfl, fun n _ => (State.k_wk s e _ _ n).trans (if_congr Iff.rfl ?_ rfl), State.wk_frame s e _ _⟩
    unfold State.rk Seqr.rk
    split <;> rfl

end Sys2Proof.Machine
end

section
/-!
PROOFS. What caching a translation and counting a far access change (R333, R336): the translation units and the free counter, and
nothing that a load reads.
-/

namespace Sys2Proof.Machine

open Sys2Proof.Claims

variable {s t u : State}

/-- The state differs in its translation units and in the counter of free values alone. -/
def Noted (s t : State) : Prop := ∃ trans freeCtr, t = { s with trans := trans, freeCtr := freeCtr }

theorem Noted.refl (s : State) : Noted s s := ⟨s.trans, s.freeCtr, rfl⟩

theorem Noted.trans (h : Noted s t) (h' : Noted t u) : Noted s u := by
  obtain ⟨_, _, rfl⟩ := h
  obtain ⟨_, _, rfl⟩ := h'
  exact ⟨_, _, rfl⟩

theorem Noted.foldl {α : Type} {f : State → α → State} (step : ∀ s a, Noted s (f s a)) (l : List α) (s : State) :
    Noted s (l.foldl f s) := by
  induction l generalizing s with
  | nil => exact .refl s
  | cons a l ih => exact (step s a).trans (ih _)

theorem Noted.ctx (h : Noted s t) : t.ctx = s.ctx := by obtain ⟨_, _, rfl⟩ := h; rfl
theorem Noted.pkg (h : Noted s t) : t.pkg = s.pkg := by obtain ⟨_, _, rfl⟩ := h; rfl
theorem Noted.mem (h : Noted s t) : t.mem = s.mem := by obtain ⟨_, _, rfl⟩ := h; rfl
theorem Noted.src (h : Noted s t) : t.src = s.src := by obtain ⟨_, _, rfl⟩ := h; rfl

theorem Noted.noStores (h : Noted s t) (hn : noStores s) : Claims.noStores t := by obtain ⟨_, _, rfl⟩ := h; exact hn

theorem State.countRemote_noted (s : State) (a : Nat) (pkg : BitVec 15) (die : Nat) : Noted s (s.countRemote a pkg die) := by
  unfold State.countRemote
  split
  · exact ⟨_, _, rfl⟩
  · exact .refl s

theorem State.touchPage_noted (s : State) (w : Who) (va : W64) : Noted s (s.touchPage w va) := by
  unfold State.touchPage
  split
  · exact .refl s
  · split
    · exact .refl s
    · have walk : Noted s (s.countWalk w.die w.asid va) := Noted.foldl (fun s a => s.countRemote_noted a s.pkg w.die) _ s
      exact walk.trans ⟨_, _, rfl⟩

theorem State.touch_noted (s : State) (w : Who) (va : W64) : Noted s (s.touch w va) :=
  Noted.foldl (fun s a => s.touchPage_noted w a) _ s

theorem State.touchAll_noted (s : State) (w : Who) (vas : List W64) : Noted s (s.touchAll w vas) :=
  Noted.foldl (fun s a => s.touch_noted w a) _ s

theorem State.touchVia_noted (s : State) (via : Via) (addr : W64) : Noted s (s.touchVia via addr) := by
  unfold State.touchVia
  split
  · exact s.touch_noted _ _
  · exact .refl s

theorem noted_noted (s : State) (y : Xlat) (h : Home) : Noted s (noted s y h) :=
  (s.touchVia_noted y.via y.addr).trans (State.countRemote_noted _ _ _ _)

end Sys2Proof.Machine
end

section
/-!
PROOFS. The line of a home (Table 14.1): the 128 bytes at the home of an aligned address lie in one region of the map, so none of
them belongs to a session slot if the first does not.
-/

namespace Sys2Proof.Machine

/-- The alignment to a line that an address keeps which its home resolves further (R331). -/
def alignedAt (via : Via) (addr : W64) : Prop :=
  match via with
  | .lot _ _ | .remote _ => addr.toNat % 128 = 0
  | .phys | .copy _ => True

/-! ### Regions of the map -/

theorem isSession_iff (a : Nat) :
    isSession a = true ↔ a / 2 ^ 46 % 8 = 4 ∧ 0x100000000000 ≤ a % 2 ^ 46 ∧ a % 2 ^ 46 < 0x100020000000 := by
  simp only [isSession, Bool.and_eq_true, decide_eq_true_eq, and_assoc]
  rfl

theorem dieOf_of_hasMemory {a : Nat} (h : hasMemory a = true) : dieOf a < 4 ∧ offOf a < 0x20000C000000 := by
  simp only [hasMemory, isHbm, isScratch, Bool.or_eq_true, Bool.and_eq_true, decide_eq_true_eq] at h
  omega

theorem isSession_of_hasMemory {a i : Nat} (h : hasMemory a = true) (hi : i < 128) : isSession (a + i) = false := by
  have := dieOf_of_hasMemory h
  unfold dieOf offOf at this
  rw [Bool.eq_false_iff, ne_eq, isSession_iff]
  omega

theorem isSession_line {a i : Nat} (ha : a % 128 = 0) (h : isSession a = false) (hi : i < 128) : isSession (a + i) = false := by
  rw [Bool.eq_false_iff, ne_eq, isSession_iff] at *
  omega

/-! ### Homes -/

variable {s : State} {h : Home} {i : Nat}

theorem hasMemory_of_plainAddr {die : Nat} {asid : BitVec 8} {va pa : W64} (e : s.plainAddr die asid va = some pa) :
    hasMemory (paLocal pa) = true := by
  unfold State.plainAddr at e
  split at e
  · split at e
    · cases e
    · split at e
      next mem =>
        cases e
        exact (Bool.and_eq_true_iff.mp mem).2
      · cases e
  · cases e

theorem homePhys_line {pa : W64} (e : s.homePhys pa = .ok h) (hs : isSession h.place = false) (hi : i < 128) :
    isSession (h.place + i) = false := by
  unfold State.homePhys at e
  dsimp only at e
  split at e
  · cases e
  · split at e
    next scratch =>
      cases e
      exact isSession_of_hasMemory (by rw [hasMemory, scratch, Bool.or_true]) hi
    · split at e
      next mem =>
        cases e
        rw [hs, Bool.or_false] at mem
        exact isSession_of_hasMemory (by rw [hasMemory, mem, Bool.true_or]) hi
      · cases e

theorem lotPlace_aligned (core n : Nat) {o : Nat} (ho : o % 128 = 0) : lotPlace core n o % 128 = 0 := by
  unfold lotPlace
  omega

theorem lotHome_line {die : Nat} {j : Job} {q n o : Nat} (e : s.lotHome die j q n o = .ok h) (ho : o % 128 = 0)
    (hs : isSession h.place = false) (hi : i < 128) : isSession (h.place + i) = false := by
  unfold State.lotHome at e
  split at e
  · cases e
  · split at e
    · cases e
      exact isSession_line (lotPlace_aligned _ _ ho) hs hi
    · split at e
      next pa _ epa _ =>
        cases e
        exact isSession_of_hasMemory (hasMemory_of_plainAddr epa) hi
      · cases e

theorem homeLot_line {die : Nat} {job seq : BitVec 16} {o : Nat} (e : s.homeLot die job seq o = .ok h) (ho : o % 128 = 0)
    (hs : isSession h.place = false) (hi : i < 128) : isSession (h.place + i) = false := by
  unfold State.homeLot at e
  split at e
  · cases e
  · split at e
    · cases e
    · exact lotHome_line e (by omega) hs hi

/-! ### Translations -/

theorem lotAway_aligned {die : Nat} {job : BitVec 16} {n o : Nat} {y : Xlat} (e : s.lotAway die job n o = some y) :
    alignedAt y.via y.addr := by
  unfold State.lotAway at e
  split at e
  · cases e
  · split at e
    · cases e
    · obtain ⟨x, -, rfl⟩ := Option.map_eq_some_iff.mp e
      exact trivial

theorem resolve_aligned {u : Use} {leaf : Nat} {va addr : W64} {p : BitVec 15} {via : Via}
    (e : s.resolve u leaf va = .ok (p, via, addr)) (ha : va.toNat % 128 = 0) : alignedAt via addr := by
  have low : (BitVec.ofNat 64 (va.toNat % 2 ^ 26)).toNat % 128 = 0 := by
    rw [BitVec.toNat_ofNat]
    omega
  unfold State.resolve at e
  split at e
  · dsimp only at e
    split at e
    · cases e
    · split at e <;> cases e
      exact trivial
  · split at e
    · split at e <;> cases e
      exact low
    · split at e <;> cases e
      exact trivial
    · split at e <;> cases e
      exact trivial
    · split at e <;> cases e
      exact ha

/-- A translation keeps the alignment of what it leaves to its home to resolve. -/
theorem translate_aligned {w : Who} {u : Use} {va : W64} {n : Nat} {y : Xlat} (e : s.translate w u va n = .ok y)
    (ha : va.toNat % 128 = 0) : alignedAt y.via y.addr := by
  have low : (BitVec.ofNat 64 ((va.toNat - lotBase) % 0x4000000)).toNat % 128 = 0 := by
    rw [BitVec.toNat_ofNat, lotBase]
    omega
  unfold State.translate at e
  split at e
  · split at e
    · cases e
    · dsimp only at e
      split at e
      · split at e
        next away =>
          cases e
          split at away
          · cases away
          · exact lotAway_aligned away
        · cases e
      · split at e
        · cases e
        · cases e
          exact low
  · split at e
    · cases e
    · dsimp only at e
      iterate 4
        split at e
        · cases e
      split at e
      · cases e
      next pkg via addr resolved =>
        split at e
        · cases e
        · split at e
          next away =>
            cases e
            split at away
            · split at away
              · exact (lotAway_aligned away :)
              · cases away
            · cases away
          · cases e
            exact resolve_aligned resolved ha

theorem homeOf_line {die : Nat} {sup : Bool} {u : Use} {y : Xlat} (e : s.homeOf die sup u y.via y.addr = .ok h)
    (ha : alignedAt y.via y.addr) (hs : isSession h.place = false) (hi : i < 128) : isSession (h.place + i) = false := by
  unfold State.homeOf at e
  split at e
  next => exact homePhys_line e hs hi
  next =>
    dsimp only at e
    cases e' : s.homePhys y.addr with
    | error c => rw [e'] at e; cases e
    | ok h' =>
      rw [e'] at e
      cases e
      exact homePhys_line (h := h') e' hs hi
  next via =>
    rw [via] at ha
    exact homeLot_line e ha hs hi
  next via =>
    split at e
    · cases e
    next x ex =>
      split at e
      · cases e
      · rw [via] at ha
        have hx := translate_aligned ex ha
        split at e
        next => exact homePhys_line e hs hi
        next xvia =>
          rw [xvia] at hx
          exact homeLot_line e hx hs hi
        · cases e
        · cases e

end Sys2Proof.Machine
end

section
/-!
PROOFS. Vector loads (R120): with no store on its way every byte comes from its home, and 256 bytes come in two halves.
-/

namespace Sys2Proof.Machine

open Sys2Proof.Claims

variable {s t : State}

/-! ### Bytes as numbers -/

theorem ofBytes_append (xs ys : List Byte) : ofBytes (xs ++ ys) = ofBytes xs + 256 ^ xs.length * ofBytes ys := by
  induction xs with
  | nil => simp [ofBytes]
  | cons x xs ih =>
    rw [List.cons_append, ofBytes, ih, ofBytes, List.length_cons, Nat.pow_succ]
    ring

theorem ofBytes_read (m : List Host.Cell) (a n : Nat) :
    ofBytes ((List.range n).map (fun i => Memory.read m (a + i))) = Memory.readLE m a n := by
  induction n generalizing a with
  | zero => rfl
  | succ n ih =>
    rw [List.range_succ_eq_map, List.map_cons, List.map_map, ofBytes, Memory.readLE, ← ih]
    simp only [Function.comp_def, Nat.add_zero, Nat.succ_eq_add_one, Nat.add_assoc, Nat.add_comm 1]

/-! ### No store on its way -/

theorem curbOf_of_noStores (h : noStores s) {d : Nat} (hd : d < 4) : s.curbOf d = [] := h.1 d hd

theorem lateHere_of_noStores (h : noStores s) : s.lateHere = [] := by
  unfold State.lateHere
  rw [List.filter_eq_nil_iff.mpr (fun l hl => by simpa using h.2.1 l hl)]
  rfl

theorem ownOverlap_of_noStores (h : noStores s) (ls : List (BitVec 15 × Via × Nat)) (b : Bool) : s.ownOverlap ls b = false := by
  have late : s.lateOver ls = false := by rw [State.lateOver, lateHere_of_noStores h]; rfl
  rw [State.ownOverlap, late, Bool.false_or, List.any_eq_false]
  intro d hd
  rw [curbOf_of_noStores h (List.mem_range.mp hd)]
  exact Bool.false_ne_true

theorem taggedOver_of_noStores (h : noStores s) (d : Nat) (ls : List (BitVec 15 × Via × Nat)) (b : Bool) :
    s.taggedOver d ls b = false := by
  rw [State.taggedOver, List.any_eq_false]
  intro i hi
  rw [h.2.2, Vector.getElem?_replicate, if_pos (List.mem_range.mp hi)]
  exact Bool.false_ne_true

theorem forwardByte_of_noStores (h : noStores s) {d : Nat} (hd : d < 4) (l : BitVec 15 × Via × Nat) : s.forwardByte d l = none := by
  rw [State.forwardByte, curbOf_of_noStores h hd]
  rfl

/-- The pieces with no forwarded byte. -/
def unforwarded (ps : List Piece) : List (Piece × List (Option Byte)) := ps.map (fun p => (p, List.replicate p.n none))

theorem pieceLocs_length (s : State) (p : Piece) : (s.pieceLocs p).length = p.n := by
  simp [State.pieceLocs]

theorem forwarded_of_noStores (h : noStores s) {d : Nat} (hd : d < 4) (ps : List Piece) :
    (ps.map (fun p => s.pieceLocs p)).map (fun ls => ls.map (fun l => s.forwardByte d l)) =
      ps.map (fun p => List.replicate p.n none) := by
  rw [List.map_map]
  refine List.map_congr_left (fun p _ => ?_)
  simp only [Function.comp_apply, forwardByte_of_noStores h hd, List.map_const', pieceLocs_length]

theorem filterMap_none {α : Type} (ps : List Piece) :
    (ps.map (fun p => List.replicate p.n (none : Option α))).flatten.filterMap id = [] := by
  rw [List.filterMap_eq_nil_iff]
  intro x hx
  obtain ⟨l, hl, hx⟩ := List.mem_flatten.mp hx
  obtain ⟨p, -, rfl⟩ := List.mem_map.mp hl
  exact (List.mem_replicate.mp hx).2

/-- With no store on its way every byte of a load comes from its home, and it takes no tag (R118, R121, R122). -/
theorem State.loadPieces_of_noStores (h : noStores s) (ps : List Piece) (go : List (List Byte) → Mask → State → State) :
    s.loadPieces ps go = (s.touchAll s.me (ps.map Piece.va)).readPieces (unforwarded ps) (fun bss t => go bss 0 t) := by
  have h' := (s.touchAll_noted s.me (ps.map Piece.va)).noStores h
  unfold State.loadPieces
  dsimp only
  generalize s.touchAll s.me (ps.map Piece.va) = s' at *
  rw [forwarded_of_noStores h' s.ctx.cdie.isLt, filterMap_none]
  have here : ps.zip ((ps.map (fun p => s'.pieceLocs p)).map (fun ls => ls.map (fun _ => (none : Option Byte)))) = unforwarded ps := by
    simp only [List.map_map, ← List.map_prod_left_eq_zip, unforwarded, Function.comp_def, List.map_const', pieceLocs_length]
  have there : ps.zip ((ps.map (fun p => List.replicate p.n none)).map (fun f => f.map (fun b => Option.map (Prod.snd (α := Nat)) b))) =
      unforwarded ps := by
    simp only [List.map_map, ← List.map_prod_left_eq_zip, unforwarded, Function.comp_def, List.map_replicate, Option.map_none]
  rw [ownOverlap_of_noStores h', ownOverlap_of_noStores h', taggedOver_of_noStores h', taggedOver_of_noStores h',
    lateHere_of_noStores h', here, there, if_neg (by simp), if_neg (by decide)]
  split
  · rfl
  · rfl

/-! ### A piece at its home -/

theorem find?_poisoned {a n : Nat} (h : s.poisoned a n = false) (p : Nat → Bool) :
    (List.range n).find? (fun i => p i && s.poisoned (a + i) 1) = none := by
  rw [List.find?_eq_none]
  intro i hi both
  rw [State.poisoned, List.any_eq_false] at h
  have one := (Bool.and_eq_true_iff.mp both).2
  simp only [State.poisoned, List.range_one, List.any_cons, List.any_nil, Bool.or_false, Nat.add_zero] at one
  exact h i hi one

/-- The 128 bytes of a piece in this package's memory, whose line is full and unpoisoned (R120, R345). -/
theorem State.readPiece_near {p : Piece} {h : Home} {go : List Byte → State → State} (hp : p.x.pkg = s.pkg) (hn : p.n = 128)
    (hh : s.homeOf s.ctx.cdie.toNat s.ctx.sup .load p.x.via p.x.addr = .ok h) (ha : alignedAt p.x.via p.x.addr)
    (hf : s.feFull h.fe = true) (hs : isSession h.place = false) (hc : s.poisoned h.place 128 = false) :
    s.readPiece p (List.replicate p.n none) go =
      go ((List.range 128).map (fun i => Memory.read s.mem (h.place + i))) (noted s p.x h) := by
  have unread : ¬ (List.replicate 128 (none : Option Byte)).all Option.isSome = true := by decide
  have absent (i : Nat) : (List.replicate 128 (none : Option Byte))[i]?.getD none = none := by
    rw [List.getElem?_replicate]
    split <;> rfl
  have bytes : (List.range 128).map (fun i => s.byteAt (h.place + i)) =
      (List.range 128).map (fun i => Memory.read s.mem (h.place + i)) := by
    refine List.map_congr_left (fun i hi => ?_)
    rw [State.byteAt, homeOf_line hh ha hs (List.mem_range.mp hi)]
    rfl
  have clean := find?_poisoned hc (fun _ => !isSession h.place)
  unfold State.readPiece
  rw [hn, if_neg unread, if_pos hp, hh]
  simp only [hf, absent, Option.isNone_none, Bool.true_and, Option.getD_none, clean, bytes]
  rfl

/-! ### Vector loads -/

theorem ea_eq_address (s : State) (b : BitVec 3) (x : BitVec 5) (n : Nat) (i : BitVec 6) : s.ea b x n i = address s b x i n := by
  simp [State.ea, address, BitVec.ofInt_add]

theorem State.mslot_plain {m : Mask} (go : State → State) (hn : noStores s) (hm : m = 0) (hc : s.src.ctaint = 0) :
    s.mslot m go = go s := by
  have sc : s.scPending = false := scPending_eq_false (by rw [earlierEntries_of_noStores hn]; exact fun _ h => nomatch h)
  unfold State.mslot
  rw [hm, hc, show (0 : Mask) ||| 0 = 0 from rfl, State.hold_zero, sc]
  rfl

theorem addrMask_plain {b : BitVec 3} {x : BitVec 5} (h : plainAddress s b x) : s.addrMask b x = 0 := by
  obtain ⟨hb, hx, hc⟩ := h
  rw [State.addrMask, hb, hx, hc]
  rfl

/-- The two halves of a 256-byte access, each in this package's memory (R114, R120). -/
theorem State.loadAt_halves {a : W64} {y y' : Xlat} {h h' : Home} {go : List Byte → Mask → State → State} (hn : noStores s)
    (ha : a.toNat % 128 = 0) :
    let s' := s.touchAll s.me [a, a + 128]
    loadable s s' .load a 128 y h → loadable s (noted s' y h) .load (a + 128) 128 y' h' →
    s.loadAt a 256 128 go =
      go ((List.range 128).map (fun i => Memory.read s.mem (h.place + i)) ++
          (List.range 128).map (fun i => Memory.read s.mem (h'.place + i))) 0 (noted (noted s' y h) y' h') := by
  intro s' hl hl'
  obtain ⟨ht, hp, hh, hf, hs, hc⟩ := hl
  obtain ⟨ht', hp', hh', hf', hs', hc'⟩ := hl'
  have first : Noted s s' := s.touchAll_noted _ _
  have second : Noted s (noted s' y h) := first.trans (noted_noted _ _ _)
  have aligned : (a + 128).toNat % 128 = 0 := by
    rw [BitVec.toNat_add, show (128 : W64).toNat = 128 from rfl]
    omega
  have translated : s.translateAll s.me .load (accessPieces a 256) = .ok [(a, 128, y), (a + 128, 128, y')] := by
    rw [accessPieces, if_pos rfl, State.translateAll, ht, State.translateAll, ht']
    rfl
  unfold State.loadAt State.checked
  rw [if_neg (not_not_intro ha), translated]
  dsimp only
  rw [State.loadPieces_of_noStores hn]
  change s'.readPiece ⟨a, 128, y⟩ (List.replicate 128 none) _ = _
  rw [State.readPiece_near (by rw [first.pkg]; exact hp) rfl (by rw [first.ctx]; exact hh) (translate_aligned ht ha) hf hs hc]
  change (noted s' y h).readPiece ⟨a + 128, 128, y'⟩ (List.replicate 128 none) _ = _
  rw [State.readPiece_near (by rw [second.pkg]; exact hp') rfl (by rw [second.ctx]; exact hh') (translate_aligned ht' aligned) hf' hs' hc',
    first.mem, second.mem]
  change go ([_, _] : List (List Byte)).flatten 0 _ = _
  rw [List.flatten_cons, List.flatten_cons, List.flatten_nil, List.append_nil]

/-- What `ldv` does with the 256 bytes it loads (R120). -/
def State.takeVector (s : State) (d : BitVec 6) (m : BitVec 4) (v : Vec) : State :=
  if d.toNat < 56 then s.wv d.toNat { val := v, tag := ldvTag m, aux := 0, taint := 0 }
  else s.pushPort (d.toNat - 56) { val := v, tag := 0, aux := 0, taint := 0 }

/-- `ldv` of 256 bytes in this package's memory, to a register or to a port bound for drain. -/
theorem execLdv_takes {d : BitVec 6} {b : BitVec 3} {x : BitVec 5} {m : BitVec 4} {i : BitVec 6} {y y' : Xlat} {h h' : Home}
    (hn : noStores s) (hx : plainAddress s b x) (hd : 56 ≤ d.toNat → (s.src.port (d.toNat - 56)).bind = 2) :
    let a := address s b x i 256
    let s' := s.touchAll s.me [a, a + 128]
    a.toNat % 128 = 0 → loadable s s' .load a 128 y h → loadable s (noted s' y h) .load (a + 128) 128 y' h' →
    execLdv d b x m i s = .next ((noted (noted s' y h) y' h').takeVector d m
      (BitVec.ofNat 2048 (Memory.readLE s.mem h.place 128 + 2 ^ 1024 * Memory.readLE s.mem h'.place 128))) := by
  intro a s' ha hl hl'
  have bytes : ofBytes ((List.range 128).map (fun i => Memory.read s.mem (h.place + i)) ++
      (List.range 128).map (fun i => Memory.read s.mem (h'.place + i))) =
      Memory.readLE s.mem h.place 128 + 2 ^ 1024 * Memory.readLE s.mem h'.place 128 := by
    rw [ofBytes_append, ofBytes_read, ofBytes_read, List.length_map, List.length_range, show 256 = 2 ^ 8 from rfl, ← pow_mul]
  have bound : ¬ (decide (56 ≤ d.toNat) && decide ((s.src.port (d.toNat - 56)).bind ≠ 2)) = true := by
    rw [Bool.and_eq_true, decide_eq_true_eq, decide_eq_true_eq]
    exact fun ⟨h56, hb⟩ => hb (hd h56)
  unfold execLdv
  rw [State.mslot_plain _ hn (addrMask_plain hx) hx.2.2, if_neg bound, ea_eq_address, State.loadAt_halves hn ha hl hl', bytes]
  rfl

/-- A drain port with room takes an entry of any format (R23, R141). -/
theorem State.pushPort_takes {p : Nat} {v : Vec} {w : Walk} (hb : (s.src.port p).bind = 2) (hc : (s.src.port p).closing = false)
    (hw : (s.src.port p).walk = some w) (hf : w.failed = none)
    (hroom : w.place + 256 * ((s.src.port p).entries.length + 1) ≤ w.length) (hl : (s.src.port p).entries.length < 4) :
    s.pushPort p { val := v, tag := 0, aux := 0, taint := 0 } = s.modFeed p (fun now => pushed s now p v) := by
  have bound : ¬ (decide ((s.src.port p).bind ≠ 2) || (s.src.port p).closing) = true := by
    rw [hb, hc]
    decide
  unfold State.pushPort
  dsimp only
  rw [if_neg bound, if_neg (by simp), State.hold_zero]
  split
  next unwalked => rw [hw] at unwalked; cases unwalked
  next walked =>
    rw [hw] at walked
    cases walked
    split
    next failed => rw [hf] at failed; cases failed
    · rw [if_neg (Nat.not_lt.mpr hroom), if_neg (Nat.not_le.mpr hl)]
      rfl

/-- Settles O19: both halves are read at their homes, and the vector goes to the register or the port. -/
theorem vectorLoad : Obligations.VectorLoad := by
  unfold Obligations.VectorLoad
  intro s d b x m i y y' h h' w hn hx hm a s' after v p ha hl hl'
  have first : Noted s (noted s' y h) := (s.touchAll_noted _ _).trans (noted_noted _ _ _)
  have all : Noted s after := first.trans (noted_noted _ _ _)
  refine ⟨fun hd => ?register, fun hd hb hc hw hf hroom hlen => ?port⟩
  case register =>
    have e := execLdv_takes (m := m) hn hx (fun h => absurd h (Nat.not_le.mpr hd)) ha hl hl'
    exact writesV_of_eq hd (e.trans (congrArg Host.Outcome.next (if_pos hd)))
  case port =>
    have e := execLdv_takes (m := m) hn hx (fun _ => hb) ha hl hl'
    have same (now : FeedPort) : pushed after now p v = pushed s now p v := by rw [pushed, all.src]; rfl
    rw [← all.src] at hb hc hw hroom hlen
    have takes : after.takeVector d m v = after.modFeed p (fun now => pushed after now p v) :=
      (if_neg (Nat.not_lt.mpr hd)).trans (State.pushPort_takes hb hc hw hf hroom hlen)
    simp only [same] at takes
    have port (q : Nat) := State.port_modFeed (s := after) (fun now => pushed s now p v) (p := p) (by omega) q
    refine ⟨_, e.trans (congrArg Host.Outcome.next takes), ?_, fun q _ hq => ?_, rfl⟩
    · rw [port, if_pos rfl, all.ctx]
    · rw [port, if_neg hq, all.ctx]

end Sys2Proof.Machine
end

section
/-!
PROOFS. Words that the spec spells (R64, R76, R274).
-/

namespace Sys2Proof.Machine

/-- Settles O54: each word of the list, decoded. -/
theorem decodeWords : Obligations.DecodeWords := by
  unfold Obligations.DecodeWords
  decide +kernel

end Sys2Proof.Machine
end

section
/-!
PROOFS. A far load of a sequencer that holds a matrix error (R191, R252).
-/

namespace Sys2Proof.Machine

open Sys2Proof.Claims

/-- A sequencer that holds a matrix error since its last group; its address space maps the page at 0x600000 to a REMOTE page of
package 5. -/
def heldError : State :=
  let s := State.reset.withFetchWord 32 0x8F000000
  ({ s with ctx := { s.ctx with
      held := some (cMatrix, 0), b := s.ctx.b.setIfInBounds 1 { val := 0x600000, taint := 0 } } } : State).modTu 0 (fun t =>
    { t with cache := [{ pos := 0, asid := s.asidOf s.ctx.job, vpage := 0x600000, exp := 1
                         leaf := 3 + 2 ^ 8 + 3 * 2 ^ 9 + 5 * 2 ^ 11 + 1 * 2 ^ 26 }] })

/-- The translation of the first byte of that page. -/
def remotePage : Xlat := { pkg := 5, via := .remote 1, addr := 0x600000, mc := none, sc := false, exp := 1 }

/-- The outcome leaves the group waiting. -/
def leavesWaiting : Out → Bool
  | .next t =>
    match t.issue.flow with
    | .wait _ => true
    | _ => false
  | _ => false

theorem asksFor_waits {s : State} {effect : Bool} {w : Wait} {p : Nat → Packet} {o : Out} (h : asksFor s effect w p o) :
    leavesWaiting o = true := by
  rw [h, leavesWaiting]

theorem heldError_plain : noStores heldError ∧ plainAddress heldError 1 0 := by
  unfold noStores plainAddress; decide +kernel

theorem heldError_far :
    let a := address heldError 1 0 0 1
    a.toNat % 1 = 0 ∧ heldError.translate heldError.me .load a 1 = .ok remotePage ∧ remotePage.pkg ≠ heldError.pkg ∧
      request heldError = none := by decide +kernel

/-- `ld.i8` of a byte there sends its request and then takes the trap of the held error: the wait of a REMOTE load can park. -/
theorem heldError_load : leavesWaiting (exec (.ldI8 0 1 0 0) heldError) = false := by decide +kernel

/-- Refutes O18: the statement does not ask that no matrix error is held. With one held, a load from a REMOTE page of another package
traps (R191) where the statement has it wait for its bytes. -/
theorem not_scalarLoads : ¬ Obligations.ScalarLoads := by
  unfold Obligations.ScalarLoads
  intro h
  obtain ⟨hn, ha⟩ := heldError_plain
  obtain ⟨aligned, tr, far, fresh⟩ := heldError_far
  obtain ⟨-, -, -, -, -, -, -, -, loads⟩ := h heldError 0 0 1 0 0 lotHome remotePage (0, 0) 0 0 hn ha
  obtain ⟨-, -, -, asks⟩ := loads (1, .ldI8 0 1 0 0) List.mem_cons_self
  have waits := asksFor_waits (asks aligned tr far fresh)
  rw [heldError_load] at waits
  cases waits

end Sys2Proof.Machine
end

section
/-!
PROOFS. Vector stores and a scatter to the own scratchpad in a state whose memory is not in canonical form.
-/

namespace Sys2Proof.Machine

open Sys2Proof.Claims

/-- The translation of byte 128 of the first lot. -/
def secondHalfOfLot : Xlat := { firstOfLot with addr := 128 }

/-- The home of that byte, in the next line. -/
def secondHalfHome : Home := { place := 2 ^ 45 + 128, fe := some (.line (2 ^ 38 + 1)) }

theorem listedTwice_vector : plainVector listedTwice 0 ∧ (listedTwice.rk 0).taint = 0 := by
  unfold plainVector readable; decide +kernel

theorem listedTwice_halves :
    let a := address listedTwice 1 0 0 256
    let s' := listedTwice.touchAll listedTwice.me [a, a + 128]
    a.toNat % 128 = 0 ∧ listedTwice.translate listedTwice.me .store a 128 = .ok firstOfLot ∧
      listedTwice.translate listedTwice.me .store (a + 128) 128 = .ok secondHalfOfLot ∧ s'.ownHome firstOfLot = some lotHome ∧
      s'.ownHome secondHalfOfLot = some secondHalfHome ∧ prompt listedTwice (firstOfLot.sc || secondHalfOfLot.sc) := by
  unfold prompt; decide +kernel

/-- `stv` of zeros removes one of the two cells; the other one still shows. -/
theorem listedTwice_stv : byteAfter (2 ^ 45) (exec (.stv 0 1 0 0 0) listedTwice) = some 5 := by decide +kernel

/-- Refutes O23, as O22 is refuted: the statement does not ask for memory in canonical form (log entry 3). -/
theorem not_vectorStores : ¬ Obligations.VectorStores := by
  unfold Obligations.VectorStores
  intro h
  obtain ⟨hn, ha, -, -⟩ := listedTwice_plain
  obtain ⟨hv, hk⟩ := listedTwice_vector
  obtain ⟨hstv, -⟩ := h listedTwice 0 1 0 0 0 0 firstOfLot secondHalfOfLot lotHome secondHalfHome hn ha hv hk
  obtain ⟨t, e, hread, -⟩ := hstv listedTwice_halves
  have five := listedTwice_stv
  rw [e, byteAfter, hread (2 ^ 45)] at five
  revert five
  decide +kernel

/-- The same state with zero offsets (TAG 5) in v0 and a predicate k1 that names lane 0 alone. -/
def scatterTwice : State :=
  let s := listedTwice
  { s with ctx := { s.ctx with
      v := s.ctx.v.setIfInBounds 0 { val := 0, tag := 5, aux := 0, taint := 0 }
      k := s.ctx.k.setIfInBounds 1 { val := 1, taint := 0 } } }

theorem scatterTwice_plain :
    noStores scatterTwice ∧ plainVector scatterTwice 0 ∧ (scatterTwice.src.rv 0).tag = 5 ∧ (scatterTwice.src.rv 0).taint = 0 ∧
      (scatterTwice.rb 1).taint = 0 ∧ (scatterTwice.rk 1).taint = 0 ∧ scatterTwice.src.ctaint = 0 := by
  unfold noStores plainVector readable; decide +kernel

theorem scatterTwice_vscat : byteAfter (2 ^ 45) (exec (.vscat 0 1 0 1 0) scatterTwice) = some 5 := by decide +kernel

/-- Refutes O24 in the same way: lane 0 alone stores a zero word at the byte that memory lists twice. -/
theorem not_scatterStore : ¬ Obligations.ScatterStore := by
  unfold Obligations.ScatterStore
  intro h
  obtain ⟨hn, hd, htag, hv, hb, hk, hc⟩ := scatterTwice_plain
  obtain ⟨hvscat, -, -⟩ :=
    h scatterTwice 0 1 0 1 0 (fun _ => firstOfLot) (fun _ => lotHome) hn hd (by decide) htag hv hb hk hc
  obtain ⟨t, e, hread, -⟩ := hvscat (by decide +kernel) (by decide +kernel) (by unfold prompt; decide +kernel)
  have five := scatterTwice_vscat
  rw [e, byteAfter, hread (2 ^ 45)] at five
  revert five
  decide +kernel

end Sys2Proof.Machine
end

section
/-!
PROOFS. The fields of a word: what a field is of a sum of placed fields, and how two neighbours make one (R64, R76 to R81).
-/

namespace Sys2Proof

/-- Two neighbouring fields are one. -/
theorem fld_append (w lo k n : Nat) : fld w lo (k + n) = fld w lo k + 2 ^ k * fld w (lo + k) n := by
  rw [fld, fld, fld, pow_add, Nat.mod_mul, pow_add, Nat.div_div_eq_div_mul]

theorem fld_lt (w lo n : Nat) : fld w lo n < 2 ^ n := Nat.mod_lt _ (Nat.two_pow_pos n)

theorem fld_split {w lo m v : Nat} (k n p : Nat) (hm : k + n = m) (hp : lo + k = p) :
    fld w lo m = v ↔ fld w lo k = v % 2 ^ k ∧ fld w p n = v / 2 ^ k := by
  subst hm hp
  have l := fld_lt w lo k
  rw [fld_append]
  constructor
  · rintro rfl
    rw [Nat.add_mul_mod_self_left, Nat.mod_eq_of_lt l, Nat.add_mul_div_left _ _ (Nat.two_pow_pos k), Nat.div_eq_of_lt l, Nat.zero_add]
    exact ⟨rfl, rfl⟩
  · rintro ⟨h, h'⟩
    rw [h, h', Nat.mod_add_div]

@[simp] theorem fld_fld {w k m j n : Nat} (h : j + n ≤ m) : fld (fld w k m) j n = fld w (k + j) n := by
  obtain ⟨i, rfl⟩ := Nat.exists_eq_add_of_le h
  rw [fld, fld, fld, pow_add, pow_add, Nat.mul_assoc, Nat.mod_mul_right_div_self, Nat.mod_mul_right_mod, Nat.div_div_eq_div_mul,
    ← pow_add]

@[simp] theorem fld_ofNat (a lo n : Nat) : fld (no_index (OfNat.ofNat a)) lo n = OfNat.ofNat a / 2 ^ lo % 2 ^ n := by
  rw [fld]

theorem fld_of_lt {w n : Nat} (h : w < 2 ^ n) : fld w 0 n = w := by
  rw [fld, pow_zero, Nat.div_one, Nat.mod_eq_of_lt h]

@[simp] theorem fld_toNat {n : Nat} (b : BitVec n) : fld b.toNat 0 n = b.toNat := fld_of_lt b.isLt

@[simp] theorem fb_toNat (w lo n : Nat) : (fb w lo n).toNat = fld w lo n := by rw [fb, BitVec.toNat_ofNat, fld]

@[simp] theorem fb_eq_iff {w lo n : Nat} {b : BitVec n} : fb w lo n = b ↔ fld w lo n = b.toNat := by
  rw [← fb_toNat, BitVec.toNat_inj]

section
variable {x m n k lo : Nat} {b : BitVec m}

/-- A field below a placed one is as before. -/
@[simp] theorem fld_sh_high (h : lo + n ≤ k) : fld (x + sh b k) lo n = fld x lo n := by
  obtain ⟨j, rfl⟩ := Nat.exists_eq_add_of_le h
  have e : x + sh b (lo + n + j) = x + 2 ^ lo * (2 ^ n * (b.toNat * 2 ^ j)) := by rw [sh, pow_add, pow_add]; ring
  rw [fld, e, Nat.add_mul_div_left _ _ (Nat.two_pow_pos lo), Nat.add_mul_mod_self_left, fld]

/-- Where nothing stood, the placed field is alone with what stands above it. -/
theorem add_sh_div (h0 : fld x k m = 0) : (x + sh b k) / 2 ^ k = 2 ^ m * (x / 2 ^ (k + m)) + b.toNat := by
  rw [fld] at h0
  rw [sh, Nat.add_mul_div_right _ _ (Nat.two_pow_pos k), pow_add, ← Nat.div_div_eq_div_mul, Nat.mul_div_cancel' (Nat.dvd_of_mod_eq_zero h0)]

/-- A field above a placed one is as before, where nothing stood in its place. -/
@[simp] theorem fld_sh_low (h : k + m ≤ lo) (h0 : fld x k m = 0) : fld (x + sh b k) lo n = fld x lo n := by
  obtain ⟨j, rfl⟩ := Nat.exists_eq_add_of_le h
  rw [fld, pow_add, pow_add, ← Nat.div_div_eq_div_mul, ← Nat.div_div_eq_div_mul, add_sh_div h0,
    Nat.mul_add_div (Nat.two_pow_pos m), Nat.div_eq_of_lt b.isLt, Nat.add_zero, Nat.div_div_eq_div_mul, ← pow_add, fld]

/-- A field inside a placed one is the value's. -/
@[simp] theorem fld_sh_inside (hk : k ≤ lo) (h : lo + n ≤ k + m) (h0 : fld x k m = 0) :
    fld (x + sh b k) lo n = fld b.toNat (lo - k) n := by
  obtain ⟨j, rfl⟩ := Nat.exists_eq_add_of_le hk
  obtain ⟨i, rfl⟩ := Nat.exists_eq_add_of_le (show j + n ≤ m by omega)
  have e : 2 ^ (j + n + i) * (x / 2 ^ (k + (j + n + i))) + b.toNat = b.toNat + 2 ^ j * (2 ^ n * (2 ^ i * (x / 2 ^ (k + (j + n + i))))) := by
    rw [pow_add 2 (j + n), pow_add 2 j]; ring
  rw [fld, pow_add, ← Nat.div_div_eq_div_mul, add_sh_div h0, e, Nat.add_mul_div_left _ _ (Nat.two_pow_pos j), Nat.add_mul_mod_self_left,
    Nat.add_sub_cancel_left, fld]

end

end Sys2Proof
end

section
/-!
PROOFS. Every word that decodes is the encoding of what it decodes to, up to its S and Y bits (R76 to R81): row by row of the
tables, each row's fixed fields and operands fill the word, and the encoding has the same value in each of them.
-/

namespace Sys2Proof

/-- Two numbers have the same fields of these widths, from a bit up. -/
def SameFields (x w : Nat) : Nat → List Nat → Prop
  | _, [] => True
  | lo, n :: ns => fld x lo n = fld w lo n ∧ SameFields x w (lo + n) ns

theorem SameFields.fld_eq {x w : Nat} : ∀ {lo : Nat} {ns : List Nat}, SameFields x w lo ns → fld x lo ns.sum = fld w lo ns.sum
  | _, [], _ => by simp [fld, Nat.mod_one]
  | lo, n :: ns, ⟨h, hs⟩ => by rw [List.sum_cons, fld_append, fld_append, h, hs.fld_eq]

/-- What a word decodes to has the word's m low bits as its encoding. -/
def Spelt (encoded : Instr → Nat) (m w : Nat) (o : Option Instr) : Prop := ∀ i, o = some i → fld (encoded i) 0 m = fld w 0 m

section
variable {encoded : Instr → Nat} {m w : Nat} {i : Instr} {o : Option Instr} (ns : List Nat) (hs : ns.sum = m)

theorem spelt_none : Spelt encoded m w none := fun _ h => nomatch h

include hs in
theorem spelt_some (h : SameFields (encoded i) w 0 ns) : Spelt encoded m w (some i) :=
  fun _ e => Option.some.inj e ▸ (hs ▸ h.fld_eq)

include hs in
/-- A row of a table of words: its instruction where the fixed fields are the row's, else what the rows below say. -/
theorem spelt_row {c : Prop} [Decidable c] (ho : Spelt encoded m w o) (h : c → SameFields (encoded i) w 0 ns) :
    Spelt encoded m w (if c then some i else o) := by
  split
  next hc => exact spelt_some ns hs (h hc)
  next => exact ho

end

theorem immediateWords_spelt {w : Nat} :
    (fld w 24 6 = 0x02 → Spelt encodeInstr 30 w (decodeMajor02 w)) ∧
    (fld w 24 6 = 0x03 → Spelt encodeInstr 30 w (decodeMajor03 w)) ∧
    (fld w 24 6 = 0x04 → Spelt encodeInstr 30 w (decodeMajor04 w)) ∧
    (fld w 24 6 = 0x05 → Spelt encodeInstr 30 w (decodeMajor05 w)) ∧
    (fld w 24 6 = 0x07 → Spelt encodeInstr 30 w (decodeMajor07 w)) := by
  refine ⟨fun hm => spelt_some [14, 5, 5, 6] rfl ?_, fun hm => spelt_some [14, 5, 5, 6] rfl ?_,
    fun hm => spelt_some [14, 5, 5, 6] rfl ?_, fun hm => spelt_some [14, 5, 5, 6] rfl ?_, fun hm => spelt_some [19, 5, 6] rfl ?_⟩
  all_goals
    delta encodeInstr; dsimp only
    simp [SameFields, *]

theorem branchWords_spelt {w : Nat} :
    (fld w 24 6 = 0x0F → Spelt encodeInstr 30 w (decodeMajor0F w)) ∧
    (fld w 24 6 = 0x10 → Spelt encodeInstr 30 w (decodeMajor10 w)) ∧
    (fld w 24 6 = 0x11 → Spelt encodeInstr 30 w (decodeMajor11 w)) ∧
    (fld w 24 6 = 0x12 → Spelt encodeInstr 30 w (decodeMajor12 w)) ∧
    (fld w 24 6 = 0x13 → Spelt encodeInstr 30 w (decodeMajor13 w)) ∧
    (fld w 24 6 = 0x14 → Spelt encodeInstr 30 w (decodeMajor14 w)) := by
  refine ⟨fun hm => spelt_row [24, 6] rfl spelt_none fun h => ?_, fun hm => spelt_some [20, 3, 1, 6] rfl ?_,
    fun hm => spelt_some [20, 3, 1, 6] rfl ?_, fun hm => spelt_some [20, 3, 1, 6] rfl ?_,
    fun hm => spelt_row [20, 3, 1, 6] rfl spelt_none fun h => ?_,
    fun hm => spelt_row [15, 1, 3, 5, 6] rfl spelt_none fun h => ?_⟩
  all_goals
    delta encodeInstr; dsimp only
    simp [SameFields, *]

theorem storeWords_spelt {w : Nat} :
    (fld w 24 6 = 0x21 → Spelt encodeInstr 30 w (decodeMajor21 w)) ∧
    (fld w 24 6 = 0x22 → Spelt encodeInstr 30 w (decodeMajor22 w)) ∧
    (fld w 24 6 = 0x23 → Spelt encodeInstr 30 w (decodeMajor23 w)) ∧
    (fld w 24 6 = 0x24 → Spelt encodeInstr 30 w (decodeMajor24 w)) ∧
    (fld w 24 6 = 0x25 → Spelt encodeInstr 30 w (decodeMajor25 w)) ∧
    (fld w 24 6 = 0x26 → Spelt encodeInstr 30 w (decodeMajor26 w)) ∧
    (fld w 24 6 = 0x27 → Spelt encodeInstr 30 w (decodeMajor27 w)) ∧
    (fld w 24 6 = 0x28 → Spelt encodeInstr 30 w (decodeMajor28 w)) ∧
    (fld w 24 6 = 0x29 → Spelt encodeInstr 30 w (decodeMajor29 w)) ∧
    (fld w 24 6 = 0x2A → Spelt encodeInstr 30 w (decodeMajor2A w)) ∧
    (fld w 24 6 = 0x2B → Spelt encodeInstr 30 w (decodeMajor2B w)) ∧
    (fld w 24 6 = 0x2C → Spelt encodeInstr 30 w (decodeMajor2C w)) := by
  refine ⟨fun hm => spelt_some [6, 4, 5, 3, 6, 6] rfl ?_, fun hm => spelt_row [6, 4, 5, 3, 5, 1, 6] rfl spelt_none fun h => ?_,
    fun hm => spelt_row [6, 4, 5, 3, 5, 1, 6] rfl spelt_none fun h => ?_,
    fun hm => spelt_row [6, 4, 5, 3, 5, 1, 6] rfl spelt_none fun h => ?_,
    fun hm => spelt_row [6, 4, 5, 3, 3, 3, 6] rfl spelt_none fun h => ?_, fun hm => spelt_some [6, 4, 5, 3, 6, 6] rfl ?_,
    fun hm => spelt_row [6, 4, 2, 3, 3, 6, 6] rfl spelt_none fun h => ?_, fun hm => spelt_some [6, 4, 5, 3, 6, 6] rfl ?_,
    fun hm => spelt_row [6, 3, 6, 3, 6, 6] rfl spelt_none fun h => ?_,
    fun hm => spelt_row [2, 4, 3, 6, 3, 6, 6] rfl spelt_none fun h => ?_,
    fun hm => spelt_row [2, 4, 4, 5, 3, 5, 1, 6] rfl spelt_none fun h => ?_,
    fun hm => spelt_row [2, 4, 4, 5, 3, 6, 6] rfl spelt_none fun h => ?_⟩
  all_goals
    delta encodeInstr; dsimp only
    simp [SameFields, *]

theorem laneWords_spelt {w : Nat} :
    (fld w 24 6 = 0x32 → Spelt encodeInstr 30 w (decodeMajor32 w)) ∧
    (fld w 24 6 = 0x38 → Spelt encodeInstr 30 w (decodeMajor38 w)) ∧
    (fld w 24 6 = 0x39 → Spelt encodeInstr 30 w (decodeMajor39 w)) ∧
    (fld w 24 6 = 0x3A → Spelt encodeInstr 30 w (decodeMajor3A w)) := by
  refine ⟨fun hm => spelt_row [3, 3, 6, 6, 3, 3, 6] rfl spelt_none fun h => ?_,
    fun hm => spelt_row [2, 1, 2, 3, 4, 6, 6, 6] rfl spelt_none fun h => ?_,
    fun hm => spelt_row [3, 3, 6, 6, 6, 6] rfl spelt_none fun h => ?_,
    fun hm => spelt_row [6, 6, 6, 6, 6] rfl spelt_none fun h => ?_⟩
  all_goals
    delta encodeInstr; dsimp only
    simp [SameFields, *]

theorem stagingWords_spelt {w : Nat} :
    (fld w 24 6 = 0x3E → Spelt encodeInstr 30 w (decodeMajor3E w)) ∧
    (fld w 24 6 = 0x3F → Spelt encodeInstr 30 w (decodeMajor3F w)) := by
  refine ⟨fun hm => spelt_row [5, 5, 4, 7, 3, 6] rfl spelt_none fun h => ?_,
    fun hm => spelt_row [5, 5, 4, 7, 3, 6] rfl spelt_none fun h => ?_⟩
  all_goals
    delta encodeInstr; dsimp only
    simp [SameFields, *]

theorem arithmeticWords_spelt {w : Nat} :
    fld w 24 6 = 0x01 → Spelt encodeInstr 30 w (decodeMajor01 w) := by
  intro hm
  rw [decodeMajor01]
  iterate 16 refine spelt_row [9, 5, 5, 5, 6] rfl ?_ fun h => ?_
  iterate 3 refine spelt_row [14, 5, 5, 6] rfl ?_ fun h => ?_
  iterate 4 refine spelt_row [9, 5, 5, 5, 6] rfl ?_ fun h => ?_
  refine spelt_row [14, 5, 5, 6] rfl ?_ fun h => ?_
  refine spelt_row [3, 6, 5, 5, 5, 6] rfl ?_ fun h => ?_
  iterate 6 refine spelt_row [9, 5, 5, 3, 2, 6] rfl ?_ fun h => ?_
  exact spelt_none
  all_goals
    delta encodeInstr; dsimp only
    simp [SameFields, *]

theorem shiftWords_spelt {w : Nat} :
    fld w 24 6 = 0x06 → Spelt encodeInstr 30 w (decodeMajor06 w) := by
  intro hm
  rw [decodeMajor06]
  iterate 3 refine spelt_row [5, 9, 5, 5, 6] rfl ?_ fun h => ?_
  exact spelt_none
  all_goals
    delta encodeInstr; dsimp only
    simp [SameFields, *]

theorem addressWords_spelt {w : Nat} :
    fld w 24 6 = 0x08 → Spelt encodeInstr 30 w (decodeMajor08 w) := by
  intro hm
  rw [decodeMajor08]
  refine spelt_row [9, 5, 3, 2, 3, 2, 6] rfl ?_ fun h => ?_
  refine spelt_row [9, 5, 5, 3, 2, 6] rfl ?_ fun h => ?_
  refine spelt_row [14, 5, 3, 2, 6] rfl ?_ fun h => ?_
  iterate 2 refine spelt_row [14, 3, 2, 5, 6] rfl ?_ fun h => ?_
  exact spelt_none
  all_goals
    delta encodeInstr; dsimp only
    simp [SameFields, *]

theorem predicateWords_spelt {w : Nat} :
    fld w 24 6 = 0x09 → Spelt encodeInstr 30 w (decodeMajor09 w) := by
  intro hm
  rw [decodeMajor09]
  iterate 3 refine spelt_row [9, 3, 2, 3, 2, 3, 2, 6] rfl ?_ fun h => ?_
  iterate 2 refine spelt_row [14, 3, 2, 3, 2, 6] rfl ?_ fun h => ?_
  refine spelt_row [9, 5, 5, 3, 2, 6] rfl ?_ fun h => ?_
  iterate 2 refine spelt_row [14, 3, 2, 5, 6] rfl ?_ fun h => ?_
  exact spelt_none
  all_goals
    delta encodeInstr; dsimp only
    simp [SameFields, *]

theorem loopEndWords_spelt {w : Nat} :
    fld w 24 6 = 0x15 → Spelt encodeInstr 30 w (decodeMajor15 w) := by
  intro hm
  rw [decodeMajor15]
  iterate 2 refine spelt_row [16, 3, 5, 6] rfl ?_ fun h => ?_
  exact spelt_none
  all_goals
    delta encodeInstr; dsimp only
    simp [SameFields, *]

theorem jumpWords_spelt {w : Nat} :
    fld w 24 6 = 0x16 → Spelt encodeInstr 30 w (decodeMajor16 w) := by
  intro hm
  rw [decodeMajor16]
  refine spelt_row [14, 3, 7, 6] rfl ?_ fun h => ?_
  refine spelt_row [24, 6] rfl ?_ fun h => ?_
  refine spelt_row [14, 5, 5, 6] rfl ?_ fun h => ?_
  exact spelt_none
  all_goals
    delta encodeInstr; dsimp only
    simp [SameFields, *]

theorem systemWords_spelt {w : Nat} :
    fld w 24 6 = 0x17 → Spelt encodeInstr 30 w (decodeMajor17 w) := by
  intro hm
  rw [decodeMajor17]
  refine spelt_row [8, 16, 6] rfl ?_ fun h => ?_
  refine spelt_row [24, 6] rfl ?_ fun h => ?_
  iterate 2 refine spelt_row [8, 5, 5, 6, 6] rfl ?_ fun h => ?_
  refine spelt_row [8, 3, 2, 3, 8, 6] rfl ?_ fun h => ?_
  iterate 2 refine spelt_row [8, 5, 11, 6] rfl ?_ fun h => ?_
  refine spelt_row [24, 6] rfl ?_ fun h => ?_
  refine spelt_row [8, 5, 11, 6] rfl ?_ fun h => ?_
  refine spelt_row [13, 3, 8, 6] rfl ?_ fun h => ?_
  refine spelt_row [8, 5, 11, 6] rfl ?_ fun h => ?_
  refine spelt_row [13, 5, 6, 6] rfl ?_ fun h => ?_
  exact spelt_none
  all_goals
    delta encodeInstr; dsimp only
    simp [SameFields, *]

theorem loadWords_spelt {w : Nat} :
    fld w 24 6 = 0x20 → Spelt encodeInstr 30 w (decodeMajor20 w) := by
  intro hm
  rw [decodeMajor20]
  iterate 5 refine spelt_row [6, 4, 5, 3, 5, 1, 6] rfl ?_ fun h => ?_
  refine spelt_row [6, 4, 5, 3, 3, 3, 6] rfl ?_ fun h => ?_
  refine spelt_row [6, 4, 5, 3, 5, 1, 6] rfl ?_ fun h => ?_
  exact spelt_none
  all_goals
    delta encodeInstr; dsimp only
    simp [SameFields, *]

theorem syncWords_spelt {w : Nat} :
    fld w 24 6 = 0x2D → Spelt encodeInstr 30 w (decodeMajor2D w) := by
  intro hm
  rw [decodeMajor2D]
  iterate 2 refine spelt_row [9, 5, 3, 7, 6] rfl ?_ fun h => ?_
  iterate 3 refine spelt_row [9, 5, 3, 2, 5, 6] rfl ?_ fun h => ?_
  refine spelt_row [14, 5, 3, 2, 6] rfl ?_ fun h => ?_
  iterate 2 refine spelt_row [19, 3, 2, 6] rfl ?_ fun h => ?_
  iterate 2 refine spelt_row [4, 20, 6] rfl ?_ fun h => ?_
  iterate 2 refine spelt_row [2, 1, 16, 5, 6] rfl ?_ fun h => ?_
  refine spelt_row [2, 1, 11, 5, 5, 6] rfl ?_ fun h => ?_
  exact spelt_none
  all_goals
    delta encodeInstr; dsimp only
    simp [SameFields, *]

theorem floatWords_spelt {w : Nat} :
    fld w 24 6 = 0x30 → Spelt encodeInstr 30 w (decodeMajor30 w) := by
  intro hm
  rw [decodeMajor30]
  iterate 8 refine spelt_row [3, 3, 6, 6, 6, 6] rfl ?_ fun h => ?_
  exact spelt_none
  all_goals
    delta encodeInstr; dsimp only
    simp [SameFields, *]

theorem floatUnaryWords_spelt {w : Nat} :
    fld w 24 6 = 0x31 → Spelt encodeInstr 30 w (decodeMajor31 w) := by
  intro hm
  rw [decodeMajor31]
  iterate 6 refine spelt_row [3, 3, 6, 6, 6, 6] rfl ?_ fun h => ?_
  exact spelt_none
  all_goals
    delta encodeInstr; dsimp only
    simp [SameFields, *]

theorem integerWords_spelt {w : Nat} :
    (fld w 24 6 = 0x33 → Spelt encodeInstr 30 w (decodeMajor33 w)) ∧
    (fld w 24 6 = 0x34 → Spelt encodeInstr 30 w (decodeMajor34 w)) ∧
    (fld w 24 6 = 0x35 → Spelt encodeInstr 30 w (decodeMajor35 w)) ∧
    (fld w 24 6 = 0x36 → Spelt encodeInstr 30 w (decodeMajor36 w)) := by
  and_intros
  all_goals
    intro hm
    simp only [decodeMajor33, decodeMajor34, decodeMajor35, decodeMajor36]
    iterate 6 refine spelt_row [3, 3, 6, 6, 6, 6] rfl ?_ fun h => ?_
    exact spelt_none
  all_goals
    delta encodeInstr; dsimp only
    simp [SameFields, *]

theorem logicWords_spelt {w : Nat} :
    fld w 24 6 = 0x37 → Spelt encodeInstr 30 w (decodeMajor37 w) := by
  intro hm
  rw [decodeMajor37]
  iterate 5 refine spelt_row [3, 3, 6, 6, 6, 6] rfl ?_ fun h => ?_
  exact spelt_none
  all_goals
    delta encodeInstr; dsimp only
    simp [SameFields, *]

theorem permutationWords_spelt {w : Nat} :
    fld w 24 6 = 0x3B → Spelt encodeInstr 30 w (decodeMajor3B w) := by
  intro hm
  rw [decodeMajor3B]
  iterate 3 refine spelt_row [3, 3, 6, 6, 6, 6] rfl ?_ fun h => ?_
  refine spelt_row [6, 6, 6, 5, 1, 6] rfl ?_ fun h => ?_
  refine spelt_row [6, 6, 5, 1, 6, 6] rfl ?_ fun h => ?_
  iterate 2 refine spelt_row [3, 3, 6, 6, 6, 6] rfl ?_ fun h => ?_
  refine spelt_row [12, 6, 6, 6] rfl ?_ fun h => ?_
  exact spelt_none
  all_goals
    delta encodeInstr; dsimp only
    simp [SameFields, *]

theorem reductionWords_spelt {w : Nat} :
    fld w 24 6 = 0x3C → Spelt encodeInstr 30 w (decodeMajor3C w) := by
  intro hm
  rw [decodeMajor3C]
  iterate 3 refine spelt_row [3, 3, 6, 6, 6, 6] rfl ?_ fun h => ?_
  refine spelt_row [3, 3, 4, 2, 6, 6, 6] rfl ?_ fun h => ?_
  exact spelt_none
  all_goals
    delta encodeInstr; dsimp only
    simp [SameFields, *]

theorem engineWords_spelt {w : Nat} :
    fld w 24 6 = 0x3D → Spelt encodeInstr 30 w (decodeMajor3D w) := by
  intro hm
  rw [decodeMajor3D]
  iterate 2 refine spelt_row [5, 5, 7, 7, 6] rfl ?_ fun h => ?_
  refine spelt_row [10, 7, 7, 6] rfl ?_ fun h => ?_
  refine spelt_row [5, 5, 7, 4, 3, 6] rfl ?_ fun h => ?_
  refine spelt_row [10, 8, 6, 6] rfl ?_ fun h => ?_
  refine spelt_row [5, 5, 3, 11, 6] rfl ?_ fun h => ?_
  refine spelt_row [5, 5, 3, 1, 10, 6] rfl ?_ fun h => ?_
  iterate 3 refine spelt_row [5, 5, 3, 11, 6] rfl ?_ fun h => ?_
  refine spelt_row [5, 5, 8, 6, 6] rfl ?_ fun h => ?_
  refine spelt_row [5, 5, 3, 11, 6] rfl ?_ fun h => ?_
  iterate 12 refine spelt_row [5, 5, 14, 6] rfl ?_ fun h => ?_
  refine spelt_row [5, 5, 2, 12, 6] rfl ?_ fun h => ?_
  iterate 2 refine spelt_row [5, 5, 14, 6] rfl ?_ fun h => ?_
  refine spelt_row [5, 5, 1, 13, 6] rfl ?_ fun h => ?_
  refine spelt_row [5, 5, 3, 5, 6, 6] rfl ?_ fun h => ?_
  refine spelt_row [5, 5, 14, 6] rfl ?_ fun h => ?_
  exact spelt_none
  all_goals
    delta encodeInstr; dsimp only
    simp [SameFields, *]

theorem decodeRaw_spelt {w : Nat} : Spelt encodeInstr 30 w (decodeRaw w) := by
  unfold decodeRaw
  split
  all_goals
    simp only [spelt_none, immediateWords_spelt, branchWords_spelt, storeWords_spelt, laneWords_spelt, stagingWords_spelt, arithmeticWords_spelt,
        shiftWords_spelt, addressWords_spelt, predicateWords_spelt, loopEndWords_spelt, jumpWords_spelt, systemWords_spelt,
        loadWords_spelt, syncWords_spelt, floatWords_spelt, floatUnaryWords_spelt, integerWords_spelt, logicWords_spelt,
        permutationWords_spelt, reductionWords_spelt, engineWords_spelt, *]

end Sys2Proof
end

section
/-!
PROOFS. The word of every instruction decodes to it (R64, R76 to R81).
-/

namespace Sys2Proof

/-- The word of an instruction has 30 bits and, with any S and Y bits, decodes to the instruction. -/
structure Decodes (i : Instr) : Prop where
  high (n : Nat) : fld (encodeInstr i) 30 n = 0
  decodeRaw_eq (y : BitVec 2) : decodeRaw (encodeInstr i + sh y 30) = some i

theorem arithmeticWords_decode_low :
    (∀ d a b, Decodes (.add d a b)) ∧ (∀ d a b, Decodes (.sub d a b)) ∧ (∀ d a b, Decodes (.mul d a b)) ∧
    (∀ d a b, Decodes (.mulh d a b)) ∧ (∀ d a b, Decodes (.mulhn d a b)) ∧ (∀ d a b, Decodes (.div d a b)) ∧
    (∀ d a b, Decodes (.divn d a b)) ∧ (∀ d a b, Decodes (.rem d a b)) ∧ (∀ d a b, Decodes (.remn d a b)) ∧
    (∀ d a b, Decodes (.and d a b)) ∧ (∀ d a b, Decodes (.or d a b)) ∧ (∀ d a b, Decodes (.xor d a b)) ∧
    (∀ d a b, Decodes (.shl d a b)) ∧ (∀ d a b, Decodes (.shr d a b)) ∧ (∀ d a b, Decodes (.sra d a b)) ∧
    (∀ d a b, Decodes (.rotl d a b)) := by
  and_intros
  all_goals
    intros
    constructor
    all_goals
      intro
      delta encodeInstr; dsimp only
      simp [decodeRaw, decodeMajor01]

theorem arithmeticWords_decode_high :
    (∀ d a, Decodes (.clz d a)) ∧ (∀ d a, Decodes (.ctz d a)) ∧ (∀ d a, Decodes (.popc d a)) ∧ (∀ d a b, Decodes (.min d a b)) ∧
    (∀ d a b, Decodes (.max d a b)) ∧ (∀ d a b, Decodes (.minn d a b)) ∧ (∀ d a b, Decodes (.maxn d a b)) ∧
    (∀ d a, Decodes (.mov d a)) ∧ (∀ d a b p, Decodes (.sel d a b p)) ∧ (∀ k a b, Decodes (.cmpEq k a b)) ∧
    (∀ k a b, Decodes (.cmpNe k a b)) ∧ (∀ k a b, Decodes (.cmpLt k a b)) ∧ (∀ k a b, Decodes (.cmpLe k a b)) ∧
    (∀ k a b, Decodes (.cmpLtn k a b)) ∧ (∀ k a b, Decodes (.cmpLen k a b)) := by
  and_intros
  all_goals
    intros
    constructor
    all_goals
      intro
      delta encodeInstr; dsimp only
      simp [decodeRaw, decodeMajor01, fld_split (lo := 0) (m := 9) 3 6 3 rfl rfl, fld_split (lo := 0) (m := 14) 3 11 3 rfl rfl,
        fld_split (lo := 3) (m := 11) 6 5 9 rfl rfl]

theorem immediateWords_decode :
    (∀ d a i, Decodes (.addi d a i)) ∧ (∀ d a i, Decodes (.andi d a i)) ∧ (∀ d a i, Decodes (.ori d a i)) ∧
    (∀ d a i, Decodes (.xori d a i)) ∧ (∀ d a n, Decodes (.shli d a n)) ∧ (∀ d a n, Decodes (.shri d a n)) ∧
    (∀ d a n, Decodes (.srai d a n)) ∧ (∀ d i, Decodes (.lhi d i)) := by
  and_intros
  all_goals
    intros
    constructor
    all_goals
      intro
      delta encodeInstr; dsimp only
      simp [decodeRaw, decodeMajor02, decodeMajor03, decodeMajor04, decodeMajor05, decodeMajor06, decodeMajor07]

theorem moveWords_decode :
    (∀ d a b, Decodes (.addb d a b)) ∧ (∀ d a b, Decodes (.movb d a b)) ∧ (∀ d a, Decodes (.spb d a)) ∧
    (∀ d a, Decodes (.movbLo d a)) ∧ (∀ d a, Decodes (.movbHi d a)) ∧ (∀ d a b, Decodes (.kand d a b)) ∧
    (∀ d a b, Decodes (.kor d a b)) ∧ (∀ d a b, Decodes (.kxor d a b)) ∧ (∀ d a, Decodes (.knot d a)) ∧
    (∀ d a, Decodes (.kmov d a)) ∧ (∀ d a b, Decodes (.kfrom d a b)) ∧ (∀ d a, Decodes (.ktoLo d a)) ∧
    (∀ d a, Decodes (.ktoHi d a)) ∧ Decodes .nop := by
  and_intros
  all_goals
    intros
    constructor
    all_goals
      intro
      delta encodeInstr; dsimp only
      simp [decodeRaw, decodeMajor08, decodeMajor09, decodeMajor0F, fld_split (lo := 0) (m := 14) 9 5 9 rfl rfl]

theorem branchWords_decode :
    (∀ n k o, Decodes (.br n k o)) ∧ (∀ n k o, Decodes (.bra n k o)) ∧ (∀ n k o, Decodes (.call n k o)) ∧
    (∀ n k, Decodes (.lbrk n k)) ∧ (∀ c l n, Decodes (.loop c l n)) ∧ (∀ l, Decodes (.brl l)) ∧ (∀ l, Decodes (.brlRot l)) ∧
    (∀ a, Decodes (.jr a)) ∧ Decodes .ret ∧ (∀ d l, Decodes (.lidx d l)) := by
  and_intros
  all_goals
    intros
    constructor
    all_goals
      intro
      delta encodeInstr; dsimp only
      simp [decodeRaw, decodeMajor10, decodeMajor11, decodeMajor12, decodeMajor13, decodeMajor14, decodeMajor15, decodeMajor16,
        fld_split (lo := 17) (m := 7) 2 5 19 rfl rfl,
        fld_split (lo := 0) (m := 24) 14 10 14 rfl rfl, fld_split (lo := 14) (m := 10) 1 9 15 rfl rfl,
        fld_split (lo := 15) (m := 9) 1 8 16 rfl rfl, fld_split (lo := 16) (m := 8) 1 7 17 rfl rfl]

theorem systemWords_decode :
    (∀ i, Decodes (.trap i)) ∧ Decodes .eret ∧ (∀ l h n, Decodes (.mfc l h n)) ∧ (∀ l h n, Decodes (.mtc l h n)) ∧
    (∀ d a, Decodes (.rdst d a)) ∧ (∀ a, Decodes (.freeze a)) ∧ (∀ a, Decodes (.thaw a)) ∧ Decodes .yield ∧
    (∀ a, Decodes (.sleep a)) ∧ (∀ d, Decodes (.ptime d)) ∧ (∀ a, Decodes (.exit a)) ∧ (∀ d, Decodes (.svget d)) := by
  and_intros
  all_goals
    intros
    constructor
    all_goals
      intro
      delta encodeInstr; dsimp only
      simp [decodeRaw, decodeMajor17, fld_split (lo := 8) (m := 16) 3 13 11 rfl rfl, fld_split (lo := 0) (m := 24) 8 16 8 rfl rfl,
        fld_split (lo := 16) (m := 8) 2 6 18 rfl rfl, fld_split (lo := 13) (m := 11) 3 8 16 rfl rfl,
        fld_split (lo := 0) (m := 13) 8 5 8 rfl rfl, fld_split (lo := 11) (m := 13) 2 11 13 rfl rfl]

theorem memoryWords_decode :
    (∀ t b x i, Decodes (.ldI8 t b x i)) ∧ (∀ t b x i, Decodes (.ldN8 t b x i)) ∧ (∀ t b x i, Decodes (.ldI16 t b x i)) ∧
    (∀ t b x i, Decodes (.ldN16 t b x i)) ∧ (∀ t b x i, Decodes (.ldW t b x i)) ∧ (∀ t b x i, Decodes (.ldb t b x i)) ∧
    (∀ t b x i, Decodes (.ldfe t b x i)) ∧ (∀ t b x m i, Decodes (.ldv t b x m i)) ∧ (∀ t b x st i, Decodes (.stB t b x st i)) ∧
    (∀ t b x st i, Decodes (.stH t b x st i)) ∧ (∀ t b x st i, Decodes (.stW t b x st i)) ∧
    (∀ t b x st i, Decodes (.stb t b x st i)) ∧ (∀ t b x st i, Decodes (.stv t b x st i)) ∧
    (∀ t b k st i, Decodes (.stm t b k st i)) ∧ (∀ t b x st i, Decodes (.stvMc t b x st i)) ∧
    (∀ t b v k, Decodes (.vgath t b v k)) ∧ (∀ t b v k st, Decodes (.vscat t b v k st)) ∧
    (∀ t b x st o, Decodes (.stAcc t b x st o)) ∧ (∀ t b x st o, Decodes (.stvAcc t b x st o)) := by
  and_intros
  all_goals
    intros
    constructor
    all_goals
      intro
      delta encodeInstr; dsimp only
      simp [decodeRaw, decodeMajor20, decodeMajor21, decodeMajor22, decodeMajor23, decodeMajor24, decodeMajor25, decodeMajor26,
        decodeMajor27, decodeMajor28, decodeMajor29, decodeMajor2A, decodeMajor2B, decodeMajor2C,
        fld_split (lo := 21) (m := 3) 2 1 23 rfl rfl]

theorem syncWords_decode :
    (∀ a b, Decodes (.mkfull a b)) ∧ (∀ a b, Decodes (.mkempty a b)) ∧ (∀ d a b, Decodes (.fecheck d a b)) ∧
    (∀ d a b, Decodes (.swarm d a b)) ∧ (∀ d a b, Decodes (.swait d a b)) ∧ (∀ p a, Decodes (.fbind p a)) ∧
    (∀ p, Decodes (.funbind p)) ∧ (∀ p, Decodes (.fdrain p)) ∧ (∀ c, Decodes (.fence c)) ∧ (∀ st, Decodes (.sfence st)) ∧
    (∀ r h f, Decodes (.tbind r h f)) ∧ (∀ r h f, Decodes (.tclr r h f)) ∧ (∀ d r h f, Decodes (.tmask d r h f)) := by
  and_intros
  all_goals
    intros
    constructor
    all_goals
      intro
      delta encodeInstr; dsimp only
      simp [decodeRaw, decodeMajor2D, fld_split (lo := 0) (m := 9) 2 7 2 rfl rfl, fld_split (lo := 17) (m := 7) 2 5 19 rfl rfl,
        fld_split (lo := 0) (m := 14) 2 12 2 rfl rfl, fld_split (lo := 0) (m := 19) 2 17 2 rfl rfl,
        fld_split (lo := 4) (m := 20) 5 15 9 rfl rfl, fld_split (lo := 3) (m := 16) 1 15 4 rfl rfl,
        fld_split (lo := 3) (m := 11) 1 10 4 rfl rfl, fld_split (lo := 2) (m := 7) 1 6 3 rfl rfl,
        fld_split (lo := 19) (m := 5) 3 2 22 rfl rfl, fld_split (lo := 2) (m := 12) 1 11 3 rfl rfl,
        fld_split (lo := 2) (m := 17) 1 16 3 rfl rfl, fld_split (lo := 9) (m := 15) 5 10 14 rfl rfl,
        fld_split (lo := 4) (m := 15) 5 10 9 rfl rfl, fld_split (lo := 3) (m := 6) 1 5 4 rfl rfl, fld_split (lo := 14) (m := 10) 3 7 17 rfl rfl,
        fld_split (lo := 9) (m := 10) 5 5 14 rfl rfl]

theorem floatWords_decode :
    (∀ d a b k, Decodes (.vadd d a b k)) ∧ (∀ d a b k, Decodes (.vsub d a b k)) ∧ (∀ d a b k, Decodes (.vmul d a b k)) ∧
    (∀ d a b k, Decodes (.vfma d a b k)) ∧ (∀ d a b k, Decodes (.vfms d a b k)) ∧ (∀ d a k, Decodes (.vneg d a k)) ∧
    (∀ d a k, Decodes (.vabs d a k)) ∧ (∀ d a b k, Decodes (.vmin d a b k)) ∧ (∀ d a b k, Decodes (.vmax d a b k)) ∧
    (∀ d a k, Decodes (.vrcp d a k)) ∧ (∀ d a k, Decodes (.vrsq d a k)) ∧ (∀ d a k, Decodes (.vexp2 d a k)) ∧
    (∀ d a k, Decodes (.vlog2 d a k)) ∧ (∀ d a b k, Decodes (.vsel d a b k)) ∧ (∀ k a b p c, Decodes (.vcmp k a b p c)) := by
  and_intros
  all_goals
    intros
    constructor
    all_goals
      intro
      delta encodeInstr; dsimp only
      simp [decodeRaw, decodeMajor30, decodeMajor31, decodeMajor32]

theorem integerWords_decode_low :
    (∀ d a b k, Decodes (.vaddI32 d a b k)) ∧ (∀ d a b k, Decodes (.vsubI32 d a b k)) ∧
    (∀ d a b k, Decodes (.vmulI32 d a b k)) ∧ (∀ d a b k, Decodes (.vshlI32 d a b k)) ∧
    (∀ d a b k, Decodes (.vshrI32 d a b k)) ∧ (∀ d a b k, Decodes (.vsraI32 d a b k)) ∧
    (∀ d a b k, Decodes (.vaddN32 d a b k)) ∧ (∀ d a b k, Decodes (.vsubN32 d a b k)) ∧
    (∀ d a b k, Decodes (.vmulN32 d a b k)) ∧ (∀ d a b k, Decodes (.vshlN32 d a b k)) ∧
    (∀ d a b k, Decodes (.vshrN32 d a b k)) ∧ (∀ d a b k, Decodes (.vsraN32 d a b k)) := by
  and_intros
  all_goals
    intros
    constructor
    all_goals
      intro
      delta encodeInstr; dsimp only
      simp [decodeRaw, decodeMajor33, decodeMajor34]

theorem integerWords_decode_high :
    (∀ d a b k, Decodes (.vaddI16 d a b k)) ∧ (∀ d a b k, Decodes (.vsubI16 d a b k)) ∧
    (∀ d a b k, Decodes (.vmulI16 d a b k)) ∧ (∀ d a b k, Decodes (.vshlI16 d a b k)) ∧
    (∀ d a b k, Decodes (.vshrI16 d a b k)) ∧ (∀ d a b k, Decodes (.vsraI16 d a b k)) ∧ (∀ d a b k, Decodes (.vaddI8 d a b k)) ∧
    (∀ d a b k, Decodes (.vsubI8 d a b k)) ∧ (∀ d a b k, Decodes (.vmulI8 d a b k)) ∧ (∀ d a b k, Decodes (.vshlI8 d a b k)) ∧
    (∀ d a b k, Decodes (.vshrI8 d a b k)) ∧ (∀ d a b k, Decodes (.vsraI8 d a b k)) := by
  and_intros
  all_goals
    intros
    constructor
    all_goals
      intro
      delta encodeInstr; dsimp only
      simp [decodeRaw, decodeMajor35, decodeMajor36]

theorem laneWords_decode :
    (∀ d a b k, Decodes (.vand d a b k)) ∧ (∀ d a b k, Decodes (.vor d a b k)) ∧ (∀ d a b k, Decodes (.vxor d a b k)) ∧
    (∀ d a k, Decodes (.vnot d a k)) ∧ (∀ d a k, Decodes (.vmov d a k)) ∧ (∀ d a t r o p, Decodes (.vcvt d a t r o p)) ∧
    (∀ d a st m, Decodes (.vqBfp d a st m)) ∧ (∀ d a st, Decodes (.vdqBfp d a st)) := by
  and_intros
  all_goals
    intros
    constructor
    all_goals
      intro
      delta encodeInstr; dsimp only
      simp [decodeRaw, decodeMajor37, decodeMajor38, decodeMajor39, decodeMajor3A]

theorem permutationWords_decode :
    (∀ d a b k, Decodes (.vperm d a b k)) ∧ (∀ d a n k, Decodes (.vrotl d a n k)) ∧ (∀ d a n k, Decodes (.vbcast d a n k)) ∧
    (∀ d a n, Decodes (.vext d a n)) ∧ (∀ d a n, Decodes (.vins d a n)) ∧ (∀ d a b k, Decodes (.vzip d a b k)) ∧
    (∀ d a k, Decodes (.vunzip d a k)) ∧ (∀ d a, Decodes (.vhad d a)) ∧ (∀ d a k, Decodes (.vredsum d a k)) ∧
    (∀ d a k, Decodes (.vredmax d a k)) ∧ (∀ d a k, Decodes (.vredmin d a k)) ∧ (∀ d a t x, Decodes (.vtag d a t x)) := by
  and_intros
  all_goals
    intros
    constructor
    all_goals
      intro
      delta encodeInstr; dsimp only
      simp [decodeRaw, decodeMajor3B, decodeMajor3C, fld_split (lo := 0) (m := 6) 3 3 3 rfl rfl,
        fld_split (lo := 6) (m := 6) 4 2 10 rfl rfl]

theorem engineWords_decode_low :
    (∀ c a b, Decodes (.xchain c a b)) ∧ (∀ c a b, Decodes (.xstat c a b)) ∧ (∀ c, Decodes (.xkill c)) ∧
    (∀ o a b, Decodes (.xrmw o a b)) ∧ (∀ r, Decodes (.mcall r)) ∧ (∀ n a b, Decodes (.mpset n a b)) ∧
    (∀ k t a, Decodes (.mzero k t a)) ∧ (∀ t a, Decodes (.manch t a)) ∧ (∀ t a b, Decodes (.zld t a b)) ∧
    (∀ t a b, Decodes (.zst t a b)) ∧ (∀ r a b, Decodes (.mrload r a b)) ∧ (∀ t a b, Decodes (.mstat t a b)) ∧
    (∀ a, Decodes (.cset a)) ∧ (∀ a, Decodes (.csend a)) ∧ (∀ a, Decodes (.crecv a)) := by
  and_intros
  all_goals
    intros
    constructor
    all_goals
      intro
      delta encodeInstr; dsimp only
      simp [decodeRaw, decodeMajor3D, fld_split (lo := 17) (m := 7) 1 6 18 rfl rfl, fld_split (lo := 0) (m := 10) 5 5 5 rfl rfl,
        fld_split (lo := 10) (m := 7) 1 6 11 rfl rfl, fld_split (lo := 18) (m := 6) 3 3 21 rfl rfl,
        fld_split (lo := 13) (m := 11) 1 10 14 rfl rfl, fld_split (lo := 14) (m := 10) 3 7 17 rfl rfl,
        fld_split (lo := 11) (m := 6) 1 5 12 rfl rfl,
        fld_split (lo := 12) (m := 5) 1 4 13 rfl rfl, fld_split (lo := 13) (m := 4) 1 3 14 rfl rfl]

theorem engineWords_decode_high :
    (∀ a, Decodes (.creduce a)) ∧ (∀ a, Decodes (.cbcast a)) ∧ (∀ a b, Decodes (.liftarm a b)) ∧
    (∀ a b, Decodes (.liftdisarm a b)) ∧ (∀ a b, Decodes (.ctrig a b)) ∧ (∀ a b, Decodes (.crnew a b)) ∧
    (∀ a b, Decodes (.crjoin a b)) ∧ (∀ a b, Decodes (.crleave a b)) ∧ (∀ a, Decodes (.crfree a)) ∧
    (∀ r a, Decodes (.phreg r a)) ∧ (∀ a, Decodes (.phdrop a)) ∧ (∀ a, Decodes (.phsig a)) ∧ (∀ p a, Decodes (.phwait p a)) ∧
    (∀ c f a b, Decodes (.launch c f a b)) ∧ (∀ a b, Decodes (.lstat a b)) := by
  and_intros
  all_goals
    intros
    constructor
    all_goals
      intro
      delta encodeInstr; dsimp only
      simp [decodeRaw, decodeMajor3D, fld_split (lo := 17) (m := 7) 1 6 18 rfl rfl, fld_split (lo := 0) (m := 10) 5 5 5 rfl rfl,
        fld_split (lo := 10) (m := 7) 1 6 11 rfl rfl, fld_split (lo := 13) (m := 11) 1 10 14 rfl rfl, fld_split (lo := 14) (m := 10) 3 7 17 rfl rfl,
        fld_split (lo := 10) (m := 14) 1 13 11 rfl rfl, fld_split (lo := 12) (m := 12) 1 11 13 rfl rfl,
        fld_split (lo := 11) (m := 13) 1 12 12 rfl rfl, fld_split (lo := 11) (m := 6) 1 5 12 rfl rfl,
        fld_split (lo := 12) (m := 5) 1 4 13 rfl rfl]

theorem stagingWords_decode :
    (∀ e i a b, Decodes (.mte e i a b)) ∧ (∀ e i a b, Decodes (.mfe e i a b)) := by
  and_intros
  all_goals
    intros
    constructor
    all_goals
      intro
      delta encodeInstr; dsimp only
      simp [decodeRaw, decodeMajor3E, decodeMajor3F]

/-- Every instruction has a word that decodes to it, but micro-ops and events, whose encoding is 0. -/
theorem decodes_of_encodeInstr_ne_zero {i : Instr} (h : encodeInstr i ≠ 0) : Decodes i := by
  cases i
  all_goals first
    | simp only [arithmeticWords_decode_low, arithmeticWords_decode_high, immediateWords_decode, moveWords_decode, branchWords_decode,
        systemWords_decode, memoryWords_decode, syncWords_decode, floatWords_decode, integerWords_decode_low,
        integerWords_decode_high, laneWords_decode, permutationWords_decode, engineWords_decode_low, engineWords_decode_high,
        stagingWords_decode]
    | exact absurd rfl h

end Sys2Proof
end

section
/-!
PROOFS. The encoder and the decoder of instruction words and of micro-op words are inverse (R64, R76 to R81, R274, R275).
-/

namespace Sys2Proof

theorem lt_two_pow_of_fld {x k : Nat} (h : ∀ n, fld x k n = 0) : x < 2 ^ k := by
  have z : x / 2 ^ k % 2 ^ x = 0 := h x
  rw [Nat.mod_eq_of_lt ((Nat.div_le_self _ _).trans_lt Nat.lt_two_pow_self)] at z
  exact (Nat.div_eq_zero_iff.mp z).resolve_left (Nat.two_pow_pos k).ne'

theorem encodeInstr_lt (i : Instr) : encodeInstr i < 2 ^ 30 := by
  by_cases h : encodeInstr i = 0
  · rw [h]; decide
  · exact lt_two_pow_of_fld (decodes_of_encodeInstr_ne_zero h).high

/-- The S bit and, above it, the Y bit of a word. -/
def GroupWord.flags (gw : GroupWord) : BitVec 2 := BitVec.ofBool gw.stop ++ BitVec.ofBool gw.sync

theorem encode_eq (gw : GroupWord) : encode gw = encodeInstr gw.instr + sh gw.flags 30 := by
  rw [encode, sh, GroupWord.flags]
  cases gw.stop <;> cases gw.sync <;> simp [Nat.add_comm]

theorem fld_flags (stop sync : Bool) :
    decide (fld (BitVec.ofBool stop ++ BitVec.ofBool sync).toNat 0 1 = 1) = sync ∧
      decide (fld (BitVec.ofBool stop ++ BitVec.ofBool sync).toNat 1 1 = 1) = stop := by
  cases stop <;> cases sync <;> decide

theorem decode_encode {gw : GroupWord} (hw : gw.instr.wf = true) (h : encodeInstr gw.instr ≠ 0) : decode (encode gw) = .ok gw := by
  obtain ⟨high, decoded⟩ := decodes_of_encodeInstr_ne_zero h
  have hsync : fld (encodeInstr gw.instr + sh gw.flags 30) 30 1 = fld gw.flags.toNat 0 1 :=
    fld_sh_inside le_rfl (by decide) (high 2)
  have hstop : fld (encodeInstr gw.instr + sh gw.flags 30) 31 1 = fld gw.flags.toNat 1 1 :=
    fld_sh_inside (by decide) le_rfl (high 2)
  obtain ⟨sync, stop⟩ := fld_flags gw.stop gw.sync
  rw [encode_eq, decode, decoded]
  simp only [hw, if_true, hsync, hstop]
  rw [GroupWord.flags, sync, stop]

theorem encode_lt (gw : GroupWord) : encode gw < 2 ^ 32 := by
  have hi := encodeInstr_lt gw.instr
  have hf := gw.flags.isLt
  rw [encode_eq, sh]
  omega

theorem decode_eq_ok {w : Nat} {gw : GroupWord} (h : decode w = .ok gw) :
    decodeRaw w = some gw.instr ∧ gw.instr.wf = true ∧ gw.stop = decide (fld w 31 1 = 1) ∧ gw.sync = decide (fld w 30 1 = 1) := by
  unfold decode at h
  split at h
  next => cases h
  next i hi =>
    split at h
    next hw => cases h; exact ⟨hi, hw, rfl, rfl⟩
    next => cases h

theorem encode_of_decode {w : Nat} {gw : GroupWord} (hw : w < 2 ^ 32) (h : decode w = .ok gw) : encode gw = w := by
  obtain ⟨hi, -, hstop, hsync⟩ := decode_eq_ok h
  have low := decodeRaw_spelt gw.instr hi
  rw [fld_of_lt (encodeInstr_lt gw.instr)] at low
  have halves : fld w 0 (30 + (1 + 1)) = w := fld_of_lt hw
  rw [fld_append, fld_append] at halves
  simp only [Nat.reduceAdd] at halves
  have h30 := fld_lt w 30 1
  have h31 := fld_lt w 31 1
  rw [encode, hstop, hsync, low]
  simp only [decide_eq_true_eq]
  split <;> split <;> omega

/-! ### Micro-ops -/

theorem sh_zero {n : Nat} (b : BitVec n) : sh b 0 = b.toNat := by rw [sh, pow_zero, Nat.mul_one]

theorem encodeUop_trans (t : BitVec 1) : encodeUop (.trans t) = 6 * 2 ^ 60 + sh t 0 := by rw [sh_zero]; rfl

theorem encodeUop_uopLoop (len : BitVec 12) (cm : BitVec 1) (count : BitVec 32) :
    encodeUop (.uopLoop len cm count) = 10 * 2 ^ 60 + sh len 48 + sh cm 47 + sh count 0 := by rw [sh_zero]; rfl

/-- The word of a micro-op has 64 bits and decodes to it. -/
structure DecodesUop (i : Instr) : Prop where
  high (n : Nat) : fld (encodeUop i) 64 n = 0
  decodeUopRaw_eq : decodeUopRaw (encodeUop i) = some i

theorem decodesUop_of_encodeUop_ne_zero {i : Instr} (h : encodeUop i ≠ 0) : DecodesUop i := by
  cases i
  case zero | anchor | loadb | streama | acc | had | drain | waitf =>
    constructor
    all_goals
      delta encodeUop; dsimp only
      simp [decodeUopRaw]
  case trans | uopLoop =>
    constructor
    all_goals simp [encodeUop_trans, encodeUop_uopLoop, decodeUopRaw]
  all_goals exact absurd rfl h

theorem decodeUopRaw_spelt {w : Nat} : Spelt encodeUop 64 w (decodeUopRaw w) := by
  unfold decodeUopRaw
  split
  on_goal 1 => refine spelt_row [44, 10, 1, 1, 4, 4] rfl spelt_none fun h => ?_
  on_goal 2 => refine spelt_row [44, 10, 1, 1, 4, 4] rfl spelt_none fun h => ?_
  on_goal 3 => refine spelt_row [42, 3, 8, 3, 4, 4] rfl spelt_none fun h => ?_
  on_goal 4 => refine spelt_row [23, 1, 7, 7, 4, 3, 8, 3, 4, 4] rfl spelt_none fun h => ?_
  on_goal 5 => refine spelt_row [38, 7, 7, 4, 4, 4] rfl spelt_none fun h => ?_
  on_goal 6 => refine spelt_row [1, 59, 4] rfl spelt_none fun h => ?_
  on_goal 7 => refine spelt_row [42, 7, 7, 4, 4] rfl spelt_none fun h => ?_
  on_goal 8 => refine spelt_row [18, 8, 7, 7, 3, 1, 2, 3, 3, 4, 4, 4] rfl spelt_none fun h => ?_
  on_goal 9 => refine spelt_row [60, 4] rfl spelt_none fun h => ?_
  on_goal 10 => refine spelt_row [32, 15, 1, 12, 4] rfl spelt_none fun h => ?_
  on_goal 11 => exact spelt_none
  case h_6 | h_10 => simp [SameFields, encodeUop_trans, encodeUop_uopLoop, *]
  all_goals
    delta encodeUop; dsimp only
    simp [SameFields, *]

theorem encodeUop_lt (i : Instr) : encodeUop i < 2 ^ 64 := by
  by_cases h : encodeUop i = 0
  · rw [h]; decide
  · exact lt_two_pow_of_fld (decodesUop_of_encodeUop_ne_zero h).high

theorem decodeUop_eq_some {w : Nat} {i : Instr} : decodeUop w = some i ↔ decodeUopRaw w = some i ∧ i.wf = true := by
  unfold decodeUop
  split
  next j hj =>
    rw [hj, Option.some.injEq]
    split
    next hw => rw [Option.some.injEq]; exact ⟨fun e => ⟨e, e ▸ hw⟩, And.left⟩
    next hw => exact ⟨(nomatch ·), fun e => absurd (e.1 ▸ e.2) hw⟩
  next hj => rw [hj]; exact ⟨(nomatch ·), fun e => (nomatch e.1)⟩

theorem encodeUop_of_decodeUopRaw {w : Nat} {i : Instr} (hw : w < 2 ^ 64) (h : decodeUopRaw w = some i) : encodeUop i = w := by
  have low := decodeUopRaw_spelt i h
  rwa [fld_of_lt (encodeUop_lt i), fld_of_lt hw] at low

/-- Settles O53, from the two directions for each table of words: what is encoded decodes, field by field, and what decodes is
spelt by its fields. -/
theorem encodeDecode : Obligations.EncodeDecode := by
  unfold Obligations.EncodeDecode
  refine ⟨fun gw hw h => ⟨encode_lt gw, decode_encode hw h⟩, fun w gw hw h => ⟨(decode_eq_ok h).2.1, encode_of_decode hw h⟩,
    fun i hw h => ⟨encodeUop_lt i, ?_⟩, fun w i hw h => ?_⟩
  · exact decodeUop_eq_some.mpr ⟨(decodesUop_of_encodeUop_ne_zero h).decodeUopRaw_eq, hw⟩
  · obtain ⟨hraw, hwf⟩ := decodeUop_eq_some.mp h
    exact ⟨hwf, encodeUop_of_decodeUopRaw hw hraw⟩

end Sys2Proof
end

section
/-!
PROOFS. Translations and homes (R329 to R333) do not look at the group in flight, nor at the feed ports and the stream numbers of the
executing sequencer; what caches a translation leaves them.
-/

namespace Sys2Proof.Machine

/-- The state with another group in flight and other feed ports and stream numbers of the executing sequencer. -/
def State.aside (s : State) (i : Issue) (ps : Vector FeedPort 8) (ns : Vector (BitVec 12) 16) : State :=
  { s with issue := i, ctx := { s.ctx with ports := ps, nextSeq := ns } }

section
variable {s : State} {i : Issue} {ps : Vector FeedPort 8} {ns : Vector (BitVec 12) 16}

theorem walkFrom_aside {va : W64} {l : List Nat} {table : W64} : walkFrom (s.aside i ps ns) va l table = walkFrom s va l table := by
  induction l generalizing table with
  | nil => rfl
  | cons sh rest ih => simp only [walkFrom, ih]; rfl

theorem walkPlaces_aside {va : W64} {l : List Nat} {table : W64} : walkPlaces (s.aside i ps ns) va l table = walkPlaces s va l table := by
  induction l generalizing table with
  | nil => rfl
  | cons sh rest ih => simp only [walkPlaces, ih]; rfl

theorem State.walk_aside (die : Nat) (asid : BitVec 8) (va : W64) : (s.aside i ps ns).walk die asid va = s.walk die asid va := by
  simp only [State.walk, walkFrom_aside]; rfl

theorem State.leafFor_aside (die : Nat) (asid : BitVec 8) (va : W64) : (s.aside i ps ns).leafFor die asid va = s.leafFor die asid va := by
  simp only [State.leafFor, State.walk_aside]; rfl

theorem State.plainAddr_aside (die : Nat) (asid : BitVec 8) (va : W64) : (s.aside i ps ns).plainAddr die asid va = s.plainAddr die asid va := by
  simp only [State.plainAddr, State.leafFor_aside]; rfl

/-- A test that does not look at ports and stream numbers finds the same sequencer, but for them. -/
theorem State.find?_aside (p : Seqr → Bool) (hp : p (s.aside i ps ns).ctx = p s.ctx) :
    (s.aside i ps ns).allSeqs.find? p = s.allSeqs.find? p ∨
      (s.aside i ps ns).allSeqs.find? p = some (s.aside i ps ns).ctx ∧ s.allSeqs.find? p = some s.ctx := by
  rw [State.allSeqs, State.allSeqs, List.find?_cons, List.find?_cons, hp]
  cases p s.ctx
  · exact .inl rfl
  · exact .inr ⟨rfl, rfl⟩

theorem State.lotHome_aside (die : Nat) (j : Job) (k n o : Nat) : (s.aside i ps ns).lotHome die j k n o = s.lotHome die j k n o := by
  simp only [State.lotHome, State.plainAddr_aside]
  rcases State.find?_aside (s := s) (i := i) (ps := ps) (ns := ns) (fun q => q.job = j.num && q.index.toNat = k && q.handle ≠ 0 &&
    ((q.isResident && decide (q.savedLots ≤ n)) || q.restoring.any (fun k => decide (n < k)))) rfl with h | ⟨h, h'⟩
  · rw [h]
  · rw [h, h']; rfl

theorem State.lotFar_aside (die : Nat) (j : Job) (k n o : Nat) : (s.aside i ps ns).lotFar die j k n o = s.lotFar die j k n o := by
  simp only [State.lotFar, State.leafFor_aside]; rfl

theorem State.lotAway_aside (die : Nat) (job : BitVec 16) (k o : Nat) : (s.aside i ps ns).lotAway die job k o = s.lotAway die job k o := by
  simp only [State.lotAway, State.lotHome_aside, State.lotFar_aside]; rfl

theorem State.translate_aside (w : Who) (u : Use) (va : W64) (n : Nat) : (s.aside i ps ns).translate w u va n = s.translate w u va n := by
  simp only [State.translate, State.leafFor_aside, State.lotHome_aside, State.lotAway_aside]; rfl

theorem State.homeLot_aside (die : Nat) (job seq : BitVec 16) (o : Nat) : (s.aside i ps ns).homeLot die job seq o = s.homeLot die job seq o := by
  simp only [State.homeLot, State.lotHome_aside]; rfl

theorem State.homeOf_aside (die : Nat) (sup : Bool) (u : Use) (via : Via) (addr : W64) :
    (s.aside i ps ns).homeOf die sup u via addr = s.homeOf die sup u via addr := by
  simp only [State.homeOf, State.translate_aside, State.homeLot_aside]; rfl

theorem State.ownHome_aside (x : Xlat) : (s.aside i ps ns).ownHome x = s.ownHome x := by
  simp only [State.ownHome, State.homeOf_aside]; rfl

theorem State.destDie_aside (x : Xlat) : (s.aside i ps ns).destDie x = s.destDie x := by
  simp only [State.destDie, State.destOf, State.homeOf_aside]; rfl

theorem State.walked_aside (w : Who) (va : W64) : (s.aside i ps ns).walked w va = s.walked w va := by
  simp only [State.walked, State.lotHome_aside]; rfl

theorem State.countRemote_aside (a : Nat) (pkg : BitVec 15) (die : Nat) :
    (s.aside i ps ns).countRemote a pkg die = (s.countRemote a pkg die).aside i ps ns := by
  have pkgs : (s.aside i ps ns).pkg = s.pkg := rfl
  cases h : isHbm a && !(pkg = s.pkg && die = dieOf a)
  all_goals simp only [State.countRemote, pkgs, h]; rfl

/-- What each step of a fold does alike with and without the other parts, the fold does. -/
theorem State.foldl_aside {α : Type} {f : State → α → State} (step : ∀ s a, f (s.aside i ps ns) a = (f s a).aside i ps ns) :
    ∀ (l : List α) (s : State), l.foldl f (s.aside i ps ns) = (l.foldl f s).aside i ps ns
  | [], _ => rfl
  | a :: l, s => by rw [List.foldl_cons, step, foldl_aside step l]; rfl

theorem State.countWalk_aside (die : Nat) (asid : BitVec 8) (va : W64) :
    (s.aside i ps ns).countWalk die asid va = (s.countWalk die asid va).aside i ps ns := by
  simp only [State.countWalk, walkPlaces_aside]
  exact State.foldl_aside (fun s a => countRemote_aside (s := s) _ _ _) _ _

theorem State.touchPage_aside (s : State) (w : Who) (va : W64) : (s.aside i ps ns).touchPage w va = (s.touchPage w va).aside i ps ns := by
  have tus : (s.aside i ps ns).tu w.die = s.tu w.die := rfl
  have time : (s.aside i ps ns).ptime = s.ptime := rfl
  simp only [State.touchPage, State.walk_aside, State.countWalk_aside, tus, time]
  cases cacheFind s.ptime w.asid va (s.tu w.die).cache []
  · cases s.walk w.die w.asid va <;> rfl
  · rfl

theorem State.touch_aside (s : State) (w : Who) (va : W64) : (s.aside i ps ns).touch w va = (s.touch w va).aside i ps ns := by
  rw [State.touch, State.walked_aside]
  exact State.foldl_aside (fun s a => s.touchPage_aside w a) _ _

theorem State.touchAll_aside (s : State) (w : Who) (vas : List W64) :
    (s.aside i ps ns).touchAll w vas = (s.touchAll w vas).aside i ps ns :=
  State.foldl_aside (fun s a => s.touch_aside w a) _ _

theorem State.touchVia_aside (s : State) (via : Via) (addr : W64) :
    (s.aside i ps ns).touchVia via addr = (s.touchVia via addr).aside i ps ns := by
  cases via with
  | remote asid => exact s.touch_aside _ _
  | _ => rfl

theorem State.note_aside (s : State) (w : Who) (u : Use) (va : W64) : (s.aside i ps ns).note w u va = (s.note w u va).aside i ps ns := by
  simp only [State.note, State.translate_aside, State.touch_aside, State.homeOf_aside, State.touchVia_aside]
  cases s.translate w u va with
  | error e => rfl
  | ok x =>
    dsimp only
    have pkg : (((s.touch w va).aside i ps ns)).pkg = (s.touch w va).pkg := rfl
    rw [pkg]
    split
    · rfl
    · cases (s.touch w va).homeOf w.die w.sup u x.via x.addr with
      | error e => rfl
      | ok h => exact State.countRemote_aside _ _ _

theorem State.noteAll_aside (s : State) (w : Who) (u : Use) (l : List (W64 × Nat)) :
    (s.aside i ps ns).noteAll w u l = (s.noteAll w u l).aside i ps ns :=
  State.foldl_aside (fun s p => s.note_aside w u p.1) _ _

theorem State.fetchWord_aside (va : W64) : (s.aside i ps ns).fetchWord va = s.fetchWord va := by
  have me : (s.aside i ps ns).me = s.me := rfl
  simp only [State.fetchWord, me, State.translate_aside, State.homeOf_aside]; rfl

theorem State.fetchGroup_aside (n : Nat) (va : W64) : (s.aside i ps ns).fetchGroup n va = s.fetchGroup n va := by
  induction n generalizing va with
  | zero => rfl
  | succ n ih => simp only [State.fetchGroup, State.fetchWord_aside, ih]

theorem State.partHome_aside (d : Nat) (e : CurbEntry) (p : Part) : (s.aside i ps ns).partHome d e p = s.partHome d e p := by
  simp only [State.partHome, State.partFault, State.homeOf_aside]

theorem State.coreNo_seqOf_aside (h : BitVec 24) : ((s.aside i ps ns).seqOf h).map Seqr.coreNo = (s.seqOf h).map Seqr.coreNo := by
  rw [State.seqOf, State.seqOf]
  rcases s.find?_aside (i := i) (ps := ps) (ns := ns) (fun q => q.handle = h && h ≠ 0) rfl with e | ⟨e, e'⟩
  · rw [e]
  · rw [e, e']; rfl

theorem State.ownCorePart_aside (d : Nat) (e : CurbEntry) (p : Part) : (s.aside i ps ns).ownCorePart d e p = s.ownCorePart d e p := by
  simp only [State.ownCorePart, State.partHome_aside, State.coreNo_seqOf_aside]; rfl

theorem State.ownCurb_aside : (s.aside i ps ns).ownCurb = s.ownCurb := by
  simp only [State.ownCurb, State.ownCorePart_aside]; rfl

end

end Sys2Proof.Machine
end

section
/-!
PROOFS. What a step does with the word at the PC (R66, R67, R71 to R74) and with the first action of the agenda.
-/

namespace Sys2Proof.Machine

open Sys2Proof.Claims

section
variable {s t : State} {ws : List W32} {gs : List GroupWord}

theorem State.note_noted (s : State) (w : Who) (u : Use) (va : W64) : Noted s (s.note w u va) := by
  unfold State.note
  split
  next => exact .refl s
  next x _ =>
    have touched := s.touch_noted w va
    dsimp only
    split
    · exact touched
    · split
      · exact (touched.trans (State.touchVia_noted _ _ _)).trans (State.countRemote_noted _ _ _ _)
      · exact touched

theorem State.noteAll_noted (s : State) (w : Who) (u : Use) (l : List (W64 × Nat)) : Noted s (s.noteAll w u l) := by
  rw [State.noteAll]; exact Noted.foldl (fun s p => s.note_noted w u p.1) l s

theorem fetched_noted (s : State) (n : Nat) : Noted s (fetched s n) := s.noteAll_noted _ _ _

/-- The state as a group issue finds it: what an earlier group recorded of itself is cleared. -/
def State.cleared (s : State) : State := { s with issue := .idle }

theorem State.cleared_eq_aside (s : State) : s.cleared = s.aside .idle s.ctx.ports s.ctx.nextSeq := rfl

theorem State.fetchGroup_cleared (n : Nat) (va : W64) : s.cleared.fetchGroup n va = s.fetchGroup n va := fetchGroup_aside n va

theorem State.ownCurb_cleared : s.cleared.ownCurb = s.ownCurb := ownCurb_aside

theorem fetched_cleared (s : State) (n : Nat) : fetched s.cleared n = { fetched s n with issue := .idle } := by
  have moved : fetched s.cleared n = (fetched s n).aside .idle s.ctx.ports s.ctx.nextSeq := s.noteAll_aside _ _ _
  obtain ⟨trans, freeCtr, e⟩ := fetched_noted s n
  rw [moved, e]; rfl

/-- The state in which the members of a group run, queued (R66). -/
def State.issuing (s : State) (ws : List W32) (gs : List GroupWord) : State :=
  { fetched s ws.length with
    issue := { issued s ws.length (bankCycles s.ctx ws (gs.map GroupWord.instr)) (isSyncGroup gs) with
      queue := memberQueue ws (gs.map GroupWord.instr) } }

theorem State.issueGroup_cleared (hi : issues s) (hf : s.fetchGroup 7 s.ctx.pc = .ok ws) (hg : checkGroup s.ctx ws = .ok gs) :
    s.cleared.issueGroup = if isSyncGroup gs && s.ownCurb then s.cleared.recordWait .storeRoom else s.issuing ws gs := by
  obtain ⟨-, -, -, -, -, -, hdepart, hdue, hheld⟩ := hi
  have ctx : s.cleared.ctx = s.ctx := rfl
  have fetch : s.cleared.fetchGroup 7 s.ctx.pc = .ok ws := (State.fetchGroup_cleared 7 s.ctx.pc).trans hf
  have vas : ((List.range ws.length).map (fun i => s.ctx.pc + BitVec.ofNat 64 (4 * i))).map (fun a => (a, 4)) =
      (List.range ws.length).map (fun i => (s.ctx.pc + BitVec.ofNat 64 (4 * i), 4)) := List.map_map
  have note : s.cleared.noteAll s.cleared.me .exec ((List.range ws.length).map (fun i => (s.ctx.pc + BitVec.ofNat 64 (4 * i), 4))) =
      { fetched s ws.length with issue := .idle } := fetched_cleared s ws.length
  simp only [State.issueGroup, ctx, hdepart, hdue, hheld, ite_self, fetch, hg, ownCurb_cleared, vas, note]
  rfl

theorem execGroupIssue_of_issues (hi : issues s) : execGroupIssue s.ctx.handle s = .next s.cleared.issueGroup := by
  obtain ⟨-, -, hh, hst, hdep, hq, -⟩ := hi
  have ready : s.ctx.issues = true := by rw [Seqr.issues, hdep]; simp [hst]
  have self : s.select s.ctx.handle = s := if_pos rfl
  rw [execGroupIssue, self]
  dsimp only
  rw [if_pos (by rw [hq]; simpa using hh), if_pos ready]
  rfl

theorem step_of_issues (hi : issues s) (hf : s.fetchGroup 7 s.ctx.pc = .ok ws) (hg : checkGroup s.ctx ws = .ok gs) :
    step s = ended s.egress.length
      (if isSyncGroup gs && s.ownCurb then s.cleared.recordWait .storeRoom else s.issuing ws gs).settle := by
  have run := execGroupIssue_of_issues hi
  obtain ⟨⟨hp, hc⟩, ha, -⟩ := id hi
  rw [step, hp, hc, ha]
  simp only [Bool.not_true, Bool.false_and, Bool.false_eq_true, if_false, run, State.issueGroup_cleared hi hf hg]

theorem mem_memberQueue {is : List Instr} {m : Nat × BitVec 3 × Instr} :
    m ∈ memberQueue ws is ↔ m ∈ (is.zipIdx).map (fun e => (e.2, slotCode (slotClass (ws[e.2]?.getD 0)) (classRank ws e.2), e.1)) := by
  simp only [memberQueue, List.mem_append, List.mem_filter]
  by_cases command : m.2.1 = 6#3 <;> by_cases late : isMtc m.2.2 = true <;> simp [command, late]

theorem memberQueue_ne_nil {i : Instr} {is : List Instr} : memberQueue ws (i :: is) ≠ [] :=
  List.ne_nil_of_mem (mem_memberQueue.mpr List.mem_cons_self)

theorem decodeAll_cons {w : W32} {p : Nat} (h : decodeAll (w :: ws) p = .ok gs) : gs ≠ [] := by
  rw [decodeAll] at h
  split at h
  · cases h
  · split at h <;> cases h
    exact List.cons_ne_nil _ _

/-- A group that passes its checks has a member: its last word stops (R66). -/
theorem checkGroup_ne_nil {q : Seqr} (h : checkGroup q ws = .ok gs) : gs ≠ [] := by
  unfold checkGroup at h
  split at h
  · cases h
  next stops =>
    obtain ⟨w, ws, rfl⟩ := List.exists_cons_of_ne_nil (l := ws) (by rintro rfl; exact stops rfl)
    split at h
    · cases h
    next decoded =>
      split at h
      · cases h
      · split at h
        · cases h
        · split at h <;> cases h
          exact decodeAll_cons decoded

theorem State.settle_issuing (hg : gs ≠ []) : (s.issuing ws gs).settle = (s.issuing ws gs).runGroup := by
  obtain ⟨g, gs, rfl⟩ := List.exists_cons_of_ne_nil hg
  have queue : (s.issuing ws (g :: gs)).issue.queue ≠ [] := memberQueue_ne_nil
  rw [State.settle, if_pos (by simpa using queue)]

theorem State.settle_recordWait (w : Wait) : (s.cleared.recordWait w).settle = .next (s.cleared.recordWait w) := rfl

/-! ### A group of one word -/

theorem checkGroup_singleton {q : Seqr} {w : W32} {gw : GroupWord} (hw : w.msb = true) (hd : decode w.toNat = .ok gw) :
    checkGroup q [w] = .ok [gw] := by
  have slots (c : Nat) : slotCount c ≠ 0 := by unfold slotCount; split <;> [decide; split <;> decide]
  simp [checkGroup, decodeAll, hw, hd, firstDependence, List.range_succ, classRank, slots]

theorem memberQueue_singleton (w : W32) (i : Instr) : memberQueue [w] [i] = [(0, slotCode (slotClass w) 0, i)] := by
  have member : (([i].zipIdx).map (fun e => (e.2, slotCode (slotClass ([w][e.2]?.getD 0)) (classRank [w] e.2), e.1))) =
      [(0, slotCode (slotClass w) 0, i)] := rfl
  simp only [memberQueue, member]
  by_cases command : slotCode (slotClass w) 0 = 6#3 <;> by_cases late : isMtc i = true <;> simp [command, late]


theorem issuing_queue (s : State) (w : W32) (gw : GroupWord) :
    (s.issuing [w] [gw]).issue.queue = [(0, slotCode (slotClass w) 0, gw.instr)] := memberQueue_singleton _ _

theorem runMembers_singleton {p : Nat} {sl : BitVec 3} {i : Instr} {m : State} 
    (hm : m = { s with issue := { s.issue with pos := p, slot := sl, taken := 0 } }) (he : exec i m = .next t) :
    runMembers none [(p, sl, i)] s = .ok (match t.issue.flow with
      | .ok => { state := t, wait := none }
      | .trap _ => { state := t, wait := none }
      | .wait x =>
        if m.commandLags x then
          { state := { m with late := m.late ++ [{ handle := m.ctx.handle, groups := 0, work := .command m.src p sl i }] }, wait := none }
        else
          { state := { m with egress := t.egress, ctx := { m.ctx with asks := t.ctx.asks, askNext := t.ctx.askNext } }
            wait := some (x, !decide (m.ctx.askNext < t.ctx.askNext)) }) := by
  subst hm
  simp only [runMembers, he]
  cases t.issue.flow with
  | ok => rfl
  | trap x => rfl
  | wait x => dsimp only; split <;> rfl

/-- A group of one word as it is issued. -/
theorem issuing_singleton (s : State) (w : W32) (gw : GroupWord) :
    s.issuing [w] [gw] = { fetched s 1 with
      issue := { issued s 1 (bankCycles s.ctx [w] [gw.instr]) (isSyncGroup [gw]) with
        queue := [(0, slotCode (slotClass w) 0, gw.instr)] } } := by
  rw [State.issuing, List.map_singleton, memberQueue_singleton, List.length_singleton]

theorem memberState_eq (s : State) (w : W32) (gw : GroupWord) :
    let g := s.issuing [w] [gw]
    let members : State :=
      { g with issue := { g.issue with queue := [] }, ctx := { g.ctx with bankstall := satAdd g.ctx.bankstall g.issue.bankCycles } }
    memberState s w gw = { members with issue := { members.issue with pos := 0, slot := slotCode (slotClass w) 0, taken := 0 } } := by
  rw [issuing_singleton, memberState]
  generalize fetched s 1 = f
  rfl

theorem tryGroup_issuing {w : W32} {gw : GroupWord} (he : exec gw.instr (memberState s w gw) = .next t) :
    ∃ e, (s.issuing [w] [gw]).tryGroup = .ok e ∧ e.state = groupEnds s (memberState s w gw) t gw.instr := by
  have run := runMembers_singleton (memberState_eq s w gw) he
  have flow : (memberState s w gw).issue.flow = .ok := rfl
  have askNext : (fetched s 1).ctx.askNext = s.ctx.askNext := congrArg Seqr.askNext (fetched_noted s 1).ctx
  have brl : [(0, slotCode (slotClass w) 0, gw.instr)].any (fun x => isBrl x.2.2) = isBrl gw.instr := Bool.or_false _
  have slot : (memberState s w gw).issue.slot = slotCode (slotClass w) 0 := rfl
  generalize memberState s w gw = m at *
  rw [issuing_singleton] at *
  rw [State.tryGroup]
  dsimp only at run ⊢
  rw [run, brl]
  unfold groupEnds
  rw [← askNext]
  generalize fetched s 1 = f at *
  clear run askNext brl he
  cases hf : t.issue.flow with
  | ok =>
    dsimp only
    rw [hf]
    exact ⟨_, rfl, rfl⟩
  | trap x =>
    dsimp only
    rw [hf]
    exact ⟨_, rfl, rfl⟩
  | wait x =>
    have iff : m.commandLags x = true ↔ m.issue.late = true ∧ m.issue.slot = 6 ∧ (x = .engineRoom ∨ x = .engineDone) := by
      simp [State.commandLags, and_assoc]
    dsimp only
    by_cases lags : m.commandLags x = true
    · rw [if_pos lags, if_pos (iff.mp lags)]
      dsimp only
      rw [flow, ← slot, (iff.mp lags).2.1]
      exact ⟨_, rfl, rfl⟩
    · rw [if_neg lags, if_neg (mt iff.mpr lags)]
      exact ⟨_, rfl, rfl⟩

theorem runGroup_issuing {w : W32} {gw : GroupWord} (hl : ∀ l ∈ s.late, l.handle ≠ s.ctx.handle)
    (he : exec gw.instr (memberState s w gw) = .next t) :
    (s.issuing [w] [gw]).runGroup = .next (groupEnds s (memberState s w gw) t gw.instr) := by
  obtain ⟨e, trial, ends⟩ := tryGroup_issuing he
  have none : (s.issuing [w] [gw]).late.any (fun l => l.handle = (s.issuing [w] [gw]).ctx.handle) = false := by
    have noted := fetched_noted s 1
    rw [issuing_singleton]
    generalize fetched s 1 = f at noted
    obtain ⟨_, _, rfl⟩ := noted
    simpa using hl
  rw [State.runGroup, none, trial, ← ends]
  cases e <;> rfl

theorem step_singleton {w : W32} {gw : GroupWord} (hi : issues s) (hl : ∀ l ∈ s.late, l.handle ≠ s.ctx.handle)
    (hf : s.fetchWord s.ctx.pc = .ok w) (hw : w.msb = true) (hd : decode w.toNat = .ok gw)
    (hs : isSyncGroup [gw] = true → s.ownCurb = false) (he : exec gw.instr (memberState s w gw) = .next t) :
    step s = ended s.egress.length (.next (groupEnds s (memberState s w gw) t gw.instr)) := by
  have fetch : s.fetchGroup 7 s.ctx.pc = .ok [w] := by simp only [State.fetchGroup, hf, hw, if_true]
  have free : (isSyncGroup [gw] && s.ownCurb) = false := by
    cases h : isSyncGroup [gw] with
    | false => rfl
    | true => rw [hs h]; rfl
  rw [step_of_issues hi fetch (checkGroup_singleton hw hd), free, if_neg Bool.false_ne_true,
    State.settle_issuing (List.cons_ne_nil _ _), runGroup_issuing hl he]

theorem step_of_action {a : Action} {rest : List Action} (hr : running s) (ha : s.agenda = a :: rest)
    (he : ({ s with agenda := rest } : State).act a = .next t) : step s = ended s.egress.length t.settle := by
  obtain ⟨hp, hc⟩ := hr
  rw [step, if_neg (by rw [hp]; decide), if_neg (by rw [hc]; exact Bool.false_ne_true), ha]
  dsimp only
  rw [he]

theorem engineStep_next {n : Nat} {i : Instr} (hn : ({ s with curCore := n } : State).aheadUop n = none)
    (hu : s.nextUop n = some i) : s.engineStep n = exec i { s with curCore := n } := by
  have next : ({ s with curCore := n } : State).nextUop n = some i := hu
  rw [State.engineStep]
  dsimp only
  rw [hn]
  dsimp only
  rw [next]

theorem engineStep_ahead {n p : Nat} {flag : Bool} {ls : List UopLoop} {r : Routine} {i : Instr}
    (ha : ({ s with curCore := n } : State).aheadUop n = some (p, flag, ls)) (hr : (s.coreOf n).routine = some r)
    (hi : (s.coreOf n).uopAt r p = some i)
    (he : exec i (({ s with curCore := n } : State).modRoutine n (fun r => { r with pos := p, loops := ls, t := flag })) = .next t) :
    s.engineStep n = .next (({ s with curCore := n } : State).ranAhead t n p) := by
  have op : (({ s with curCore := n } : State).coreOf n).routine.bind (fun r => (({ s with curCore := n } : State).coreOf n).uopAt r p) =
      some i := (congrArg (fun x => x.bind (fun r => (s.coreOf n).uopAt r p)) hr).trans hi
  rw [State.engineStep]
  dsimp only
  rw [ha]
  dsimp only
  rw [op]
  dsimp only
  rw [he]

/-- Settles O52: from the fetch and the checks to the members, and from one member to the end of its group. -/
theorem stepRunsDecoded : Obligations.StepRunsDecoded := by
  unfold Obligations.StepRunsDecoded
  refine ⟨fun s t w gw hi hl hf hw hd hs he => step_singleton hi hl hf hw hd hs he, fun s ws gs hi hf hg => ⟨fun hs hc => ?_, fun hs => ?_⟩,
    fun s t i rest hr ha he => step_of_action hr ha he, fun s t i n rest hr ha => ⟨fun hn hu he => ?_, fun p flag ls r hro hu hi he => ?_⟩⟩
  · rw [step_of_issues hi hf hg, hs, hc, Bool.true_and, if_pos rfl, State.settle_recordWait]
    rfl
  · have free : (isSyncGroup gs && s.ownCurb) = false := by
      cases h : isSyncGroup gs with
      | false => rfl
      | true => rw [hs h]; rfl
    rw [step_of_issues hi hf hg, free, if_neg Bool.false_ne_true, State.settle_issuing (checkGroup_ne_nil hg)]
    rfl
  · exact step_of_action hr ha ((engineStep_next (s := { s with agenda := rest }) hn hu).trans he)
  · exact step_of_action hr ha (engineStep_ahead (s := { s with agenda := rest }) hu hro hi he)

end

end Sys2Proof.Machine
end

section
/-!
PROOFS. The Curb when no store is on its way (R124, R125, R133): what is accepted becomes its one entry, is released at once, and its requests
or its multicast packet leave.
-/

namespace Sys2Proof.Machine

open Sys2Proof.Claims

/-! ### Numbers picked -/

theorem pickFree_of_free {start n : Nat} {isFree : Nat → Bool} (hn : 0 < n) (h : isFree (start % n) = true) :
    pickFree start n isFree = some (start % n) := by
  obtain ⟨k, rfl⟩ := Nat.exists_eq_succ_of_ne_zero hn.ne'
  rw [pickFree, List.range_succ_eq_map, List.find?_cons, Nat.add_zero, h]
  rfl

/-! ### An entry alone in the Curbs -/

section
variable {s : State} {d : Nat} {e : CurbEntry}

theorem curbOf_modCurb_self (f : List CurbEntry → List CurbEntry) : (s.modCurb d f).curbOf d = f (s.curbOf d) := by
  rw [State.curbOf, State.modCurb, dieAt_modDie, State.curbOf]

theorem dieAt_modCurb_other {j : Nat} (f : List CurbEntry → List CurbEntry) (h : j ≠ d) : (s.modCurb d f).dieAt j = s.dieAt j :=
  tget_tset_other _ _ _ h

/-- The entry is the only one in the Curbs. -/
def Alone (s : State) (d : Nat) (e : CurbEntry) : Prop := s.curbOf d = [e] ∧ ∀ j < 4, j ≠ d → s.curbOf j = []

theorem Alone.mem_entriesOf (h : Alone s d e) {k : BitVec 24} {x : CurbEntry} (hx : x ∈ s.entriesOf k) : x = e := by
  obtain ⟨own, others⟩ := h
  simp only [State.entriesOf, List.mem_filter, List.mem_flatMap, List.mem_range] at hx
  obtain ⟨⟨j, hj, hx⟩, -⟩ := hx
  by_cases hd : j = d
  · rw [hd, own] at hx
    exact List.mem_singleton.mp hx
  · rw [others j hj hd] at hx
    cases hx

theorem Alone.no_earlier (h : Alone s d e) {k : BitVec 24} {q : CurbEntry → Bool} {n : Nat} (hn : n ≤ e.order) :
    (s.entriesOf k).filter (fun x => decide (x.order < n) && q x) = [] := by
  rw [List.filter_eq_nil_iff]
  intro x hx
  rw [h.mem_entriesOf hx, decide_eq_false (Nat.not_lt.mpr hn)]
  exact Bool.false_ne_true

theorem Alone.streamPred (h : Alone s d e) {x : CurbEntry} (hx : x.order ≤ e.order) : s.streamPred x = none := by
  unfold State.streamPred
  split
  · rfl
  · rw [h.no_earlier hx]
    rfl

/-- Nothing holds an entry that is alone (R118, R119, R125, R226, R229). -/
theorem Alone.mayRelease (h : Alone s d e) : s.mayRelease d e = true := by
  have earlier : (s.entriesOf e.handle).filter (fun x => x.order < e.order) = [] := by
    simpa using h.no_earlier (q := fun _ => true) le_rfl
  have stream : s.streamHolds e = false := by rw [State.streamHolds, h.streamPred le_rfl]
  have forwarded (ps : List Part) : s.behindForwarded d e ps = false := by
    rw [State.behindForwarded, h.1]
    simp
  simp [State.mayRelease, earlier, stream, forwarded, h.1]

/-- One die's part of the pass over the Curbs. -/
def State.releaseDie (s : State) (j : Nat) : State := s.releasePass j (s.curbOf j)

theorem State.releaseDie_empty {j : Nat} (h : s.curbOf j = []) : s.releaseDie j = s := by
  rw [State.releaseDie, h]
  rfl

theorem State.releaseStores_eq (s : State) : s.releaseStores = (((s.releaseDie 0).releaseDie 1).releaseDie 2).releaseDie 3 := rfl

theorem Alone.releaseStores (h : Alone s d e) (hd : d < 4) (hr : e.released = none)
    (others : ∀ j < 4, j ≠ d → (s.release d e).curbOf j = []) : s.releaseStores = s.release d e := by
  have own : s.releaseDie d = s.release d e := by
    rw [State.releaseDie, h.1, State.releasePass, hr, h.mayRelease]
    rfl
  have before {j : Nat} (hj : j < 4) (hne : j ≠ d) : s.releaseDie j = s := State.releaseDie_empty (h.2 j hj hne)
  have after {j : Nat} (hj : j < 4) (hne : j ≠ d) : (s.release d e).releaseDie j = s.release d e :=
    State.releaseDie_empty (others j hj hne)
  rw [State.releaseStores_eq]
  obtain rfl | rfl | rfl | rfl : d = 0 ∨ d = 1 ∨ d = 2 ∨ d = 3 := by omega
  · rw [own, after, after, after] <;> decide
  · rw [before, own, after, after] <;> decide
  · rw [before, before, own, after] <;> decide
  · rw [before, before, before, own] <;> decide

/-- The entry, marked with its place in the order of releases. -/
def State.markReleased (s : State) (d : Nat) (e : CurbEntry) : State :=
  let t := s.modCurb d (lmod (fun x => x.num = e.num) (fun x => { x with released := some s.orderNext }))
  { t with orderNext := s.orderNext + 1 }

theorem Alone.markReleased (h : Alone s d e) : Alone (s.markReleased d e) d { e with released := some s.orderNext } := by
  refine ⟨?_, fun j hj hne => ?_⟩
  · change (s.modCurb d _).curbOf d = _
    rw [curbOf_modCurb_self, h.1]
    simp [lmod]
  · change (s.modCurb d _).curbOf j = _
    rw [State.curbOf, dieAt_modCurb_other _ hne]
    exact h.2 j hj hne

/-- The packet of one request of a store that has no store before it in its stream (R125). -/
def storePacket (pkg : BitVec 15) (d : Nat) (e : CurbEntry) (p : Part) : Packet :=
  .store p.pkg d e.handle e.job e.stream e.seqno none ((farRequests pkg e.parts).countP (fun q => q.pkg = p.pkg))
    (if e.kind = .rmw then some ({ die := d, ch := 128, claim := 0, unit := e.order }, e.order) else none) p.via p.exp p.effects

theorem foldl_emit (f : State → Part → Packet) (hf : ∀ s l, f { s with egress := l } = f s) (ps : List Part) (s : State) :
    ps.foldl (fun s p => s.emit (f s p)) s = { s with egress := s.egress ++ ps.map (f s) } := by
  induction ps generalizing s with
  | nil => simp
  | cons p ps ih =>
    rw [List.foldl_cons, ih]
    simp only [State.emit, hf, List.append_assoc, List.map_cons, List.singleton_append]

/-- The requests of an entry that is alone (R125, R286). -/
theorem Alone.sendParts {x : CurbEntry} (h : Alone s d x) (hk : x.kind = e.kind) (ho : x.order = e.order) :
    s.sendParts d e e.parts = { s with egress := s.egress ++ (farRequests s.pkg e.parts).map (storePacket s.pkg d e) } := by
  have unit : s.rmwUnit d e =
      if e.kind = .rmw then some ({ die := d, ch := 128, claim := 0, unit := e.order }, e.order) else none := by
    unfold State.rmwUnit
    split
    next rmw => rw [h.1, List.foldl_cons, hk, ho, if_pos rmw, show e.order.min e.order = e.order from Nat.min_self _]; rfl
    next => rfl
  rw [State.sendParts, h.streamPred ho.ge]
  dsimp only [Option.map_none]
  have packet : storePacket s.pkg d e = fun p => .store p.pkg d e.handle e.job e.stream e.seqno none
      ((farRequests s.pkg e.parts).countP (fun q => q.pkg = p.pkg)) (s.rmwUnit d e) p.via p.exp p.effects := by
    rw [unit]
    rfl
  rw [packet]
  exact foldl_emit (fun t p => .store p.pkg d e.handle e.job e.stream e.seqno none
    ((farRequests s.pkg e.parts).countP (fun q => q.pkg = p.pkg)) (t.rmwUnit d e) p.via p.exp p.effects) (fun _ _ => rfl) _ s

theorem Alone.release_store (h : Alone s d e) (hg : e.group = none) :
    s.release d e = { s.markReleased d e with egress := s.egress ++ (farRequests s.pkg e.parts).map (storePacket s.pkg d e) } := by
  have send := (h.markReleased).sendParts (e := e) rfl rfl
  unfold State.release
  rw [hg]
  exact send

/-- The packet of a multicast store (R315). -/
def mcastPacket (pkg : BitVec 15) (d : Nat) (e : CurbEntry) (g : BitVec 10) : McPacket :=
  { group := g, job := e.job, srcPkg := pkg, handle := e.handle, stream := e.stream, seqno := e.seqno, id := 4096 * d + e.num
    offset := e.offset
    data := (e.parts.flatMap Part.effects).filterMap (fun f => match f with | .byte _ v => some v | _ => none)
    msg := none, copy := false, count := 0, down := false, hops := 0 }

theorem release_mcast {g : BitVec 10} (hg : e.group = some g) :
    s.release d e = if (s.group g.toNat).valid = true ∧ (s.group g.toNat).root ≠ s.pkg then
      { s.markReleased d e with egress := s.egress ++ [.multicast 127 (mcastPacket s.pkg d e g)] }
    else { s.markReleased d e with agenda := s.agenda ++ [.packet (mcastPacket s.pkg d e g) 127] } := by
  unfold State.release State.sendMulticast
  rw [hg]
  dsimp only
  simp only [Bool.and_eq_true, decide_eq_true_eq]
  rfl

theorem dieAt_markReleased_other {j : Nat} (h : j ≠ d) : (s.markReleased d e).dieAt j = s.dieAt j := dieAt_modCurb_other _ h

theorem dieAt_markReleased_self (h : s.curbOf d = [e]) :
    (s.markReleased d e).dieAt d = { s.dieAt d with curb := [{ e with released := some s.orderNext }] } := by
  change (s.modCurb d _).dieAt d = _
  rw [State.modCurb, dieAt_modDie]
  rw [State.curbOf] at h
  simp [h, lmod]

/-- A released entry's requests, or its multicast packet, leave; nothing else but the entry changes. -/
theorem Alone.release (h : Alone s d e) : ∃ egress agenda,
    s.release d e = { s.markReleased d e with egress := egress, agenda := agenda } ∧
    (e.group = none →
      egress = s.egress ++ (farRequests s.pkg e.parts).map (storePacket s.pkg d e) ∧ agenda = s.agenda) ∧
    (∀ g, e.group = some g →
      if (s.group g.toNat).valid = true ∧ (s.group g.toNat).root ≠ s.pkg then
        egress = s.egress ++ [.multicast 127 (mcastPacket s.pkg d e g)] ∧ agenda = s.agenda
      else egress = s.egress ∧ agenda = s.agenda ++ [.packet (mcastPacket s.pkg d e g) 127]) := by
  cases hg : e.group with
  | none => exact ⟨_, _, h.release_store hg, fun _ => ⟨rfl, rfl⟩, fun g hg' => (nomatch hg')⟩
  | some g =>
    have sent := release_mcast (s := s) (d := d) hg
    by_cases tree : (s.group g.toNat).valid = true ∧ (s.group g.toNat).root ≠ s.pkg
    · rw [if_pos tree] at sent
      refine ⟨_, _, sent, fun hg' => (nomatch hg'), fun g' hg' => ?_⟩
      cases hg'
      rw [if_pos tree]
      exact ⟨rfl, rfl⟩
    · rw [if_neg tree] at sent
      refine ⟨_, _, sent, fun hg' => (nomatch hg'), fun g' hg' => ?_⟩
      cases hg'
      rw [if_neg tree]
      exact ⟨rfl, rfl⟩

end

/-! ### Acceptance -/

section
variable {s : State}

/-- The entry that a store becomes (R124). -/
def newEntry (s : State) (n : Nat) (kind : StoreKind) (sc : Bool) (st : BitVec 4) (sq : BitVec 12) (group : Option (BitVec 10))
    (offset : W64) (parts : List Part) : CurbEntry :=
  { num := n, handle := s.ctx.handle, job := s.ctx.job, asid := s.asidOf s.ctx.job, sup := s.ctx.sup, kind := kind, sc := sc
    stream := st, seqno := sq, group := group, offset := offset, released := none, order := s.orderNext, parts := parts }

/-- The parts of a store, its drafts joined where they are one request (R124). -/
def partsOfDrafts (s : State) (ds : List Draft) : List Part :=
  (ds.foldl (fun as b => s.addDraft as b) []).map (fun x => partOf s x.x x.va x.effects)

theorem freeEntry_of_noStores (h : noStores s) {d : Nat} (hd : d < 4) : ∃ n < 4096, s.freeEntry d = some n := by
  have free (n : Nat) : (s.curbEntry d n).isNone = true := by rw [State.curbEntry, curbOf_of_noStores h hd]; rfl
  have pos : 0 < 4096 := by omega
  refine ⟨_, Nat.mod_lt (Config.freeNat s.freeCtr) pos, ?_⟩
  rw [State.freeEntry]
  exact pickFree_of_free pos (free _)

/-- The state with an entry more in the Curb of the executing sequencer's die. -/
def State.withEntry (s : State) (e : CurbEntry) : State :=
  ({ s.drawFree with orderNext := s.orderNext + 1 } : State).modCurb s.ctx.cdie.toNat (fun l => l ++ [e])

/-- A store that the Curbs, empty, accept is released at once. -/
theorem acceptAs_of_noStores {kind : StoreKind} {sc : Bool} {st : BitVec 4} {sq : BitVec 12} {group : Option (BitVec 10)} {offset : W64}
    {ds : List Draft} (h : noStores s) : ∃ n < 4096,
    let e := newEntry s n kind sc st sq group offset (partsOfDrafts s ds)
    Alone (s.withEntry e) s.ctx.cdie.toNat e ∧ s.acceptAs kind sc st sq group offset ds = (s.withEntry e).release s.ctx.cdie.toNat e := by
  have hd : s.ctx.cdie.toNat < 4 := s.ctx.cdie.isLt
  obtain ⟨n, hn, free⟩ := freeEntry_of_noStores h hd
  refine ⟨n, hn, ?_⟩
  intro e
  have alone : Alone (s.withEntry e) s.ctx.cdie.toNat e := by
    refine ⟨?_, fun j hj hne => ?_⟩
    · rw [State.withEntry, curbOf_modCurb_self]
      exact congrArg (· ++ [e]) (curbOf_of_noStores h hd)
    · rw [State.withEntry, State.curbOf, dieAt_modCurb_other _ hne]
      exact curbOf_of_noStores h hj
  refine ⟨alone, ?_⟩
  obtain ⟨egress, agenda, released, -⟩ := alone.release
  have others (j : Nat) (hj : j < 4) (hne : j ≠ s.ctx.cdie.toNat) : ((s.withEntry e).release s.ctx.cdie.toNat e).curbOf j = [] := by
    rw [released]
    exact alone.markReleased.2 j hj hne
  rw [← alone.releaseStores hd rfl others]
  unfold State.acceptAs
  dsimp only
  rw [free]
  rfl

section
variable {i : Issue} {ps : Vector FeedPort 8} {ns : Vector (BitVec 12) 16}

theorem State.addDraft_aside (as : List Draft) (b : Draft) : (s.aside i ps ns).addDraft as b = s.addDraft as b := by
  induction as with
  | nil => rfl
  | cons a as ih => simp only [State.addDraft, State.sameRequest, State.destDie_aside, ih]; rfl

theorem partsOfDrafts_aside (ds : List Draft) : partsOfDrafts (s.aside i ps ns) ds = partsOfDrafts s ds := by
  simp only [partsOfDrafts, partOf, State.addDraft_aside, State.destDie_aside]

end

/-- The number that a store takes of its stream (R124). -/
def takenSeqno (q : Seqr) (st : BitVec 4) : BitVec 12 := if st = 0 then 0 else q.nextSeq[st.toNat]?.getD 0

/-- The numbers of the streams once a store has taken one (R124). -/
def nextAfter (q : Seqr) (st : BitVec 4) (ns : Vector (BitVec 12) 16) : Prop :=
  ∀ k < 16, ns[k]? = (q.nextSeq[k]?).map (fun x => if k = st.toNat ∧ st ≠ 0 then x + 1 else x)

/-- What the Curb accepts of a sequencer with no store on its way enters it and is released (R124, R125). -/
theorem acceptAs_enters {kind : StoreKind} {sc : Bool} {st : BitVec 4} {sq : BitVec 12} {group : Option (BitVec 10)} {offset : W64}
    {ds : List Draft} (h : noStores s) : ∃ n dies egress agenda,
    let d := s.ctx.cdie.toNat
    let e := newEntry s n kind sc st sq group offset (partsOfDrafts s ds)
    n < 4096 ∧
    s.acceptAs kind sc st sq group offset ds =
      { s with dies := dies, orderNext := s.orderNext + 2, freeCtr := s.freeCtr + 1, egress := egress, agenda := agenda } ∧
    tget .reset dies d = { s.dieAt d with curb := [{ e with released := some (s.orderNext + 1) }] } ∧
    (∀ j, j ≠ d → tget .reset dies j = s.dieAt j) ∧
    (group = none → egress = s.egress ++ (farRequests s.pkg e.parts).map (storePacket s.pkg d e) ∧ agenda = s.agenda) ∧
    (∀ g, group = some g →
      if (s.group g.toNat).valid = true ∧ (s.group g.toNat).root ≠ s.pkg then
        egress = s.egress ++ [.multicast 127 (mcastPacket s.pkg d e g)] ∧ agenda = s.agenda
      else egress = s.egress ∧ agenda = s.agenda ++ [.packet (mcastPacket s.pkg d e g) 127]) := by
  obtain ⟨n, hn, alone, accepted⟩ := acceptAs_of_noStores (kind := kind) (sc := sc) (st := st) (sq := sq) (group := group)
    (offset := offset) (ds := ds) h
  obtain ⟨egress, agenda, released, store, mcast⟩ := alone.release
  refine ⟨n, ((s.withEntry (newEntry s n kind sc st sq group offset (partsOfDrafts s ds))).markReleased s.ctx.cdie.toNat
    (newEntry s n kind sc st sq group offset (partsOfDrafts s ds))).dies, egress, agenda, hn, (accepted.trans released).trans ?frame,
    ?own, fun j hj => ?others, store, mcast⟩
  case frame => simp only [State.markReleased, State.withEntry, State.modCurb, State.modDie, State.drawFree]
  case own =>
    refine (dieAt_markReleased_self alone.1).trans ?_
    rw [State.withEntry, State.modCurb, dieAt_modDie]
    rfl
  case others =>
    exact (dieAt_markReleased_other hj).trans (dieAt_modCurb_other _ hj)

theorem acceptAs_entersCurb {cs : List (BitVec 6)} {kind : StoreKind} {sc : Bool} {st : BitVec 4} {group : Option (BitVec 10)}
    {offset : W64} {ds : List Draft} {i : Issue} {ps : Vector FeedPort 8} {ns : Vector (BitVec 12) 16} (h : noStores s) (hi : i = s.issue)
    (hp : ∀ p < 8, (s.aside i ps ns).ctx.port p = popped s cs p) (hs : nextAfter s.ctx st ns) :
    entersCurb s cs kind sc st group offset (partsOfDrafts s ds)
      (.next ((s.aside i ps ns).acceptAs kind sc st (takenSeqno s.ctx st) group offset ds)) := by
  subst hi
  obtain ⟨n, dies, egress, agenda, hn, accepted, own, others, store, mcast⟩ := acceptAs_enters (s := s.aside s.issue ps ns) (kind := kind)
    (sc := sc) (st := st) (sq := takenSeqno s.ctx st) (group := group) (offset := offset) (ds := ds) h
  rw [partsOfDrafts_aside] at own store mcast
  exact ⟨_, n, congrArg Host.Outcome.next accepted, hn, own, fun j _ hne => others j hne, hs, hp, rfl, rfl, store, mcast, rfl⟩

theorem takeSeqno_eq (s : State) (st : BitVec 4) : ∃ ns, nextAfter s.ctx st ns ∧
    s.takeSeqno st = (takenSeqno s.ctx st, s.aside s.issue s.ctx.ports ns) := by
  unfold State.takeSeqno takenSeqno
  by_cases h : st = 0
  · subst h
    exact ⟨s.ctx.nextSeq, fun k _ => by simp, rfl⟩
  · refine ⟨_, fun k hk => ?_, by rw [if_neg h, if_neg h]; rfl⟩
    by_cases e : k = st.toNat
    · subst e
      simpa [hk] using h
    · simp [e, Vector.getElem?_setIfInBounds_ne (Ne.symm e)]

section
variable {cs : List (BitVec 6)} {kind : StoreKind} {sc : Bool} {st : BitVec 4} {group : Option (BitVec 10)} {offset : W64} {ds : List Draft}
  {ps : Vector FeedPort 8}

/-- A store that the queue does not hold enters the Curb (R68, R124). -/
theorem accept_entersCurb (h : noStores s) (hq : prompt s sc)
    (hp : ∀ p < 8, (s.aside s.issue ps s.ctx.nextSeq).ctx.port p = popped s cs p) :
    entersCurb s cs kind sc st group offset (partsOfDrafts s ds)
      (.next ((s.aside s.issue ps s.ctx.nextSeq).accept kind sc st group offset ds)) := by
  obtain ⟨ns, after, taken⟩ := takeSeqno_eq (s.aside s.issue ps s.ctx.nextSeq) st
  have h' : noStores (s.aside s.issue ps s.ctx.nextSeq) := h
  have prompt : (s.aside s.issue ps s.ctx.nextSeq).lags sc = false := by
    rw [State.lags]
    rcases hq with late | sc
    · exact (congrArg (· && !sc) late).trans (Bool.false_and _)
    · rw [sc]; exact Bool.and_false _
  have free : ((s.aside s.issue ps s.ctx.nextSeq).behindLate sc ds ||
      (st ≠ 0 && decide (1024 ≤ (s.aside s.issue ps s.ctx.nextSeq).streamCount st))) = false := by
    rw [State.behindLate, lateHere_of_noStores h', State.streamCount, earlierEntries_of_noStores h']
    simp
  rw [State.accept, prompt, free, if_neg Bool.false_ne_true, if_neg Bool.false_ne_true, taken]
  exact acceptAs_entersCurb h rfl hp after

/-- A store whose queue lags waits behind its group (R71, R73). -/
theorem accept_lagsBehind (hq : s.issue.late = true) (hsc : sc = false)
    (hp : ∀ p < 8, (s.aside s.issue ps s.ctx.nextSeq).ctx.port p = popped s cs p) :
    lagsBehind s cs kind st group offset ds (.next ((s.aside s.issue ps s.ctx.nextSeq).accept kind sc st group offset ds)) := by
  have lags : (s.aside s.issue ps s.ctx.nextSeq).lags sc = true := by
    rw [State.lags, hsc]
    exact (Bool.and_true _).trans hq
  rw [State.accept, lags, if_pos rfl]
  exact ⟨_, rfl, hp, rfl⟩

end

end
end Sys2Proof.Machine
end

section
/-!
PROOFS. The drafts of a store and the parts they become (R123, R124); a store that is put elsewhere than in the own scratchpad, and one whose
queue lags (R73).
-/

namespace Sys2Proof.Machine

open Sys2Proof.Claims

/-! ### Bytes of a number -/

theorem leBytes_add (v m n : Nat) : leBytes v (m + n) = leBytes v m ++ leBytes (v / 256 ^ m) n := by
  induction m generalizing v with
  | zero => simp [leBytes]
  | succ m ih => rw [Nat.add_right_comm, leBytes, leBytes, ih, Nat.div_div_eq_div_mul, ← Nat.pow_succ', List.cons_append]

theorem leBytes_eq_map (v n : Nat) : leBytes v n = (List.range n).map (fun i => BitVec.ofNat 8 (v / 256 ^ i)) := by
  induction n with
  | zero => rfl
  | succ n ih => rw [leBytes_add, ih, List.range_succ, List.map_append]; rfl

theorem leBytes_mod (v n : Nat) : leBytes (v % 256 ^ n) n = leBytes v n := by
  rw [leBytes_eq_map, leBytes_eq_map]
  refine List.map_congr_left (fun i hi => BitVec.eq_of_toNat_eq ?_)
  obtain ⟨k, rfl⟩ := Nat.exists_eq_add_of_lt (List.mem_range.mp hi)
  rw [BitVec.toNat_ofNat, BitVec.toNat_ofNat, Nat.add_assoc, Nat.pow_add, Nat.mod_mul_right_div_self, Nat.pow_succ', Nat.mod_mul_right_mod]

theorem byteEffects_leBytes (a : W64) (v n : Nat) : byteEffects a (leBytes v n) = bytesFrom a n v := by
  rw [byteEffects, bytesFrom, leBytes_eq_map, List.zipIdx_eq_zip_range', List.length_map, List.length_range,
    ← List.range_eq_range']
  rw [List.zip_map_left, List.map_map, List.zip_eq_zipWith, List.zipWith_self, List.map_map]
  rfl

theorem vecBytes_eq_leBytes (v : Vec) : vecBytes v = leBytes v.toNat 256 := by
  rw [vecBytes, leBytes_eq_map]
  refine List.map_congr_left (fun i _ => BitVec.eq_of_toNat_eq ?_)
  rw [elem, BitVec.extractLsb'_toNat, BitVec.toNat_ofNat, Nat.shiftRight_eq_div_pow, Nat.pow_mul]

theorem vecBytes_halves (v : Vec) :
    vecBytes v = leBytes (v.toNat % 2 ^ 1024) 128 ++ leBytes (v.toNat / 2 ^ 1024) 128 := by
  have bits : 2 ^ 1024 = 256 ^ 128 := by rw [show 256 = 2 ^ 8 from rfl, ← pow_mul]
  rw [vecBytes_eq_leBytes, bits, leBytes_mod, show 256 = 128 + 128 from rfl, leBytes_add]

/-! ### Drafts -/

theorem draftBytes_one (y : Xlat) (a : W64) (n v : Nat) :
    draftBytes [⟨a, n, y⟩] (leBytes v n) = [{ x := y, va := a, effects := bytesFrom y.addr n v }] := by
  rw [draftBytes, draftBytes, List.take_of_length_le (leBytes_length v n).le, byteEffects_leBytes]

/-- The drafts of the two halves of a 256-byte store. -/
def halves (y y' : Xlat) (a : W64) (es es' : List Effect) : List Draft :=
  [{ x := y, va := a, effects := es }, { x := y', va := a + 128, effects := es' }]

theorem draftBytes_halves (y y' : Xlat) (a : W64) (v : Vec) :
    draftBytes [⟨a, 128, y⟩, ⟨a + 128, 128, y'⟩] (vecBytes v) =
      halves y y' a (bytesFrom y.addr 128 (v.toNat % 2 ^ 1024)) (bytesFrom y'.addr 128 (v.toNat / 2 ^ 1024)) := by
  have first := List.take_left' (l₂ := leBytes (v.toNat / 2 ^ 1024) 128) (leBytes_length (v.toNat % 2 ^ 1024) 128)
  have second := List.drop_left' (l₂ := leBytes (v.toNat / 2 ^ 1024) 128) (leBytes_length (v.toNat % 2 ^ 1024) 128)
  rw [vecBytes_halves, draftBytes, first, second, draftBytes_one, byteEffects_leBytes]
  rfl

theorem sameRequest_halves {s : State} {y y' : Xlat} {a : W64} {es es' : List Effect} :
    s.sameRequest { x := y, va := a, effects := es } { x := y', va := a + 128, effects := es' } = true ↔
      y.pkg = y'.pkg ∧ s.destDie y = s.destDie y' ∧ y.via = y'.via ∧ y.mc = y'.mc ∧
        a.toNat / 0x10000 = (a + 128).toNat / 0x10000 ∧ y'.addr = y.addr + 128 := by
  have contiguous : y.addr - a = y'.addr - (a + 128) ↔ y'.addr = y.addr + 128 := by
    rw [sub_eq_sub_iff_add_eq_add, ← add_assoc, add_right_comm, add_left_inj, eq_comm]
  simp only [State.sameRequest, Bool.and_eq_true, decide_eq_true_eq, contiguous, and_assoc]

theorem partsOfDrafts_halves {s : State} {y y' : Xlat} {a : W64} {es es' : List Effect} :
    partsOfDrafts s (halves y y' a es es') = partsOf s y y' a es es' := by
  unfold partsOf
  split
  next h =>
    have order : (a + 128).ult a = false := by
      obtain ⟨-, -, -, -, block, -⟩ := h
      have wraps : (a + 128).toNat = (a.toNat + 128) % 2 ^ 64 := BitVec.toNat_add a 128
      rw [wraps] at block
      rw [BitVec.ult, decide_eq_false_iff_not, wraps]
      omega
    simp only [partsOfDrafts, halves, List.foldl_cons, List.foldl_nil, State.addDraft, sameRequest_halves.mpr h, if_true, Draft.join, order]
    rfl
  next h =>
    have other := mt (sameRequest_halves (es := es) (es' := es')).mp h
    simp only [partsOfDrafts, halves, List.foldl_cons, List.foldl_nil, State.addDraft, if_neg other]
    rfl

/-! ### Checked accesses -/

section
variable {s : State} {u : Use} {a : W64} {y y' : Xlat} {go : List Piece → State → State}

theorem State.checked_one {n : Nat} (h : s.translate s.me u a n = .ok y) : s.checked u [(a, n)] go = go [⟨a, n, y⟩] s := by
  unfold State.checked
  rw [State.translateAll, h]
  rfl

theorem State.checked_halves (h : s.translate s.me u a 128 = .ok y) (h' : s.translate s.me u (a + 128) 128 = .ok y') :
    s.checked u (accessPieces a 256) go = go [⟨a, 128, y⟩, ⟨a + 128, 128, y'⟩] s := by
  unfold State.checked
  rw [accessPieces, if_pos rfl, State.translateAll, h, State.translateAll, h']
  rfl

end

/-! ### A store that is put -/

section
variable {s : State} {cs : List (BitVec 6)} {kind : StoreKind} {st : BitVec 4} {ds : List Draft} {sc : Bool} {t : State}

/-- The state with the ports that the codes name popped. -/
def Popped (s : State) (cs : List (BitVec 6)) (t : State) : Prop :=
  ∃ ps, t = s.aside s.issue ps s.ctx.nextSeq ∧ ∀ p < 8, t.ctx.port p = popped s cs p

theorem Popped.refl (s : State) : Popped s [] s := ⟨s.ctx.ports, rfl, fun _ _ => rfl⟩

theorem Popped.touchAll (h : Popped s cs t) (vas : List W64) : Popped (s.touchAll s.me vas) cs (t.touchAll t.me vas) := by
  obtain ⟨ps, rfl, port⟩ := h
  have noted := s.touchAll_noted s.me vas
  refine ⟨ps, ?_, ?_⟩
  · obtain ⟨_, _, e⟩ := noted
    rw [show (s.aside s.issue ps s.ctx.nextSeq).me = s.me from rfl, State.touchAll_aside, e]
  · obtain ⟨_, _, e⟩ := noted
    intro p hp
    rw [show (s.aside s.issue ps s.ctx.nextSeq).me = s.me from rfl, State.touchAll_aside, e]
    exact port p hp

theorem Noted.prompt (h : Noted s t) (hq : Claims.prompt s sc) : Claims.prompt t sc := by obtain ⟨_, _, rfl⟩ := h; exact hq
theorem Noted.issue (h : Noted s t) : t.issue = s.issue := by obtain ⟨_, _, rfl⟩ := h; rfl

theorem Popped.accept_entersCurb {group : Option (BitVec 10)} {offset : W64} (h : Popped s cs t) (hn : noStores s) (hq : prompt s sc) :
    entersCurb s cs kind sc st group offset (partsOfDrafts s ds) (.next (t.accept kind sc st group offset ds)) := by
  obtain ⟨ps, rfl, port⟩ := h
  exact Machine.accept_entersCurb hn hq port

theorem Popped.accept_lagsBehind {group : Option (BitVec 10)} {offset : W64} (h : Popped s cs t) (hl : s.issue.late = true) (hsc : sc = false) :
    lagsBehind s cs kind st group offset ds (.next (t.accept kind sc st group offset ds)) := by
  obtain ⟨ps, rfl, port⟩ := h
  exact Machine.accept_lagsBehind hl hsc port

/-- A store that is not a plain one to the own scratchpad enters the Curb (R123, R133). -/
theorem State.putStore_elsewhere (h : kind = .plain → ∃ d ∈ ds, (s.touchAll s.me (ds.map Draft.va)).ownHome d.x = none) :
    s.putStore kind st ds = (s.touchAll s.me (ds.map Draft.va)).accept kind (ds.any (fun d => d.x.sc)) st none 0 ds := by
  unfold State.putStore
  refine if_neg (fun own => ?_)
  simp only [Bool.and_eq_true, decide_eq_true_eq, List.all_map, List.all_eq_true, Function.comp_apply] at own
  obtain ⟨⟨plain, -⟩, own⟩ := own
  obtain ⟨d, hd, away⟩ := h plain
  have here := own d hd
  rw [away] at here
  cases here

/-- A store whose queue lags waits, whatever its home (R71, R73). -/
theorem State.putStore_late (hl : s.issue.late = true) (hsc : ds.any (fun d => d.x.sc) = false) :
    s.putStore kind st ds = (s.touchAll s.me (ds.map Draft.va)).accept kind (ds.any (fun d => d.x.sc)) st none 0 ds := by
  have lags : (s.touchAll s.me (ds.map Draft.va)).lags (ds.any (fun d => d.x.sc)) = true := by
    rw [State.lags, (s.touchAll_noted _ _).issue, hl, hsc]
    rfl
  unfold State.putStore State.accept
  dsimp only
  rw [if_pos lags, if_pos lags]
  exact ite_self _

theorem Popped.putStore_entersCurb (h : Popped s cs t) (hn : noStores s) (hq : prompt s (ds.any (fun d => d.x.sc)))
    (far : kind = .plain → ∃ d ∈ ds, (s.touchAll s.me (ds.map Draft.va)).ownHome d.x = none) :
    let s' := s.touchAll s.me (ds.map Draft.va)
    entersCurb s' cs kind (ds.any (fun d => d.x.sc)) st none 0 (partsOfDrafts s' ds) (.next (t.putStore kind st ds)) := by
  intro s'
  have noted : Noted s s' := s.touchAll_noted _ _
  have popped := h.touchAll (ds.map Draft.va)
  have put : t.putStore kind st ds = (t.touchAll t.me (ds.map Draft.va)).accept kind (ds.any (fun d => d.x.sc)) st none 0 ds := by
    refine State.putStore_elsewhere (fun plain => ?_)
    obtain ⟨ps, e, -⟩ := popped
    obtain ⟨d, hd, away⟩ := far plain
    exact ⟨d, hd, by rw [e, State.ownHome_aside]; exact away⟩
  refine (congrArg (entersCurb s' cs kind _ st _ 0 _) (congrArg Host.Outcome.next put)).mpr ?_
  exact popped.accept_entersCurb (noted.noStores hn) (noted.prompt hq)

theorem Popped.putStore_lagsBehind (h : Popped s cs t) (hl : s.issue.late = true) (hsc : ds.any (fun d => d.x.sc) = false) :
    lagsBehind (s.touchAll s.me (ds.map Draft.va)) cs kind st none 0 ds (.next (t.putStore kind st ds)) := by
  have noted : Noted s (s.touchAll s.me (ds.map Draft.va)) := s.touchAll_noted _ _
  have popped := h.touchAll (ds.map Draft.va)
  have late : t.issue.late = true := by obtain ⟨ps, rfl, -⟩ := h; exact hl
  refine (congrArg (lagsBehind _ cs kind st _ 0 ds) (congrArg Host.Outcome.next (State.putStore_late late hsc))).mpr ?_
  exact popped.accept_lagsBehind (by rw [noted.issue]; exact hl) hsc

end
end Sys2Proof.Machine
end

section
/-!
PROOFS. Scalar and accumulating stores that go to the Curb (R121, R123, R131).
-/

namespace Sys2Proof.Machine

open Sys2Proof.Claims

/-! ### Scalar stores -/

section
variable {s : State} {b : BitVec 3} {x : BitVec 5} {a : W64} {y : Xlat} {es : List Effect} {kind : StoreKind} {st : BitVec 4}

/-- An aligned scalar store is put as one draft (R113, R123). -/
theorem storeScalar_puts {v n : Nat} {m : Mask} {i : BitVec 6} (hn : noStores s) (hx : plainAddress s b x) (hm : m = 0) (small : n ≠ 256) :
    let a := address s b x i n
    a.toNat % n = 0 → s.translate s.me .store a n = .ok y →
    s.storeScalar v m b x st i n = s.putStore .plain st [{ x := y, va := a, effects := bytesFrom y.addr n v }] := by
  intro a aligned translated
  rw [State.storeScalar, State.mslot_plain _ hn (by rw [hm, addrMask_plain hx]; rfl) hx.2.2, ea_eq_address]
  unfold State.storeBytes
  rw [if_neg (not_not_intro aligned), leBytes_length, accessPieces, if_neg small, State.checked_one translated, draftBytes_one]

theorem execStAcc_puts {v : BitVec 5} {o : BitVec 4} (hn : noStores s) (hx : plainAddress s b x) (hv : (s.rg v).taint = 0) :
    let a := address s b x 0 4
    a.toNat % 4 = 0 → s.translate s.me .store a 4 = .ok y →
    exec (.stAcc v b x st o) s = .next (s.putStore .accum st [{ x := y, va := a, effects := [.accum y.addr o (s.rg v).val] }]) := by
  intro a aligned translated
  change Host.Outcome.next (s.mslot _ _) = _
  rw [State.mslot_plain _ hn (by rw [hv, addrMask_plain hx]; rfl) hx.2.2, ea_eq_address, if_neg (not_not_intro aligned),
    State.checked_one translated]
  simp [draftAccum]

/-- One draft elsewhere enters the Curb as one part (R121, R124). -/
theorem putOne_entersCurb (hn : noStores s) (hq : prompt s y.sc) (far : kind = .plain → (s.touchAll s.me [a]).ownHome y = none) :
    entersCurb (s.touchAll s.me [a]) [] kind y.sc st none 0 [partOf (s.touchAll s.me [a]) y a es]
      (.next (s.putStore kind st [{ x := y, va := a, effects := es }])) := by
  have sc : [({ x := y, va := a, effects := es } : Draft)].any (fun d => d.x.sc) = y.sc := Bool.or_false _
  have enters := (Popped.refl s).putStore_entersCurb (kind := kind) (st := st) (ds := [{ x := y, va := a, effects := es }]) hn
    (by rw [sc]; exact hq) (fun plain => ⟨_, List.mem_singleton_self _, far plain⟩)
  rw [sc] at enters
  exact enters

/-- One draft to a page that is not SC, whose queue lags (R71, R73). -/
theorem putOne_lagsBehind (hl : s.issue.late = true) (hsc : y.sc = false) :
    lagsBehind (s.touchAll s.me [a]) [] kind st none 0 [{ x := y, va := a, effects := es }]
      (.next (s.putStore kind st [{ x := y, va := a, effects := es }])) :=
  (Popped.refl s).putStore_lagsBehind hl ((Bool.or_false _).trans hsc)

end

/-- Settles O25: each form is put as one draft, which its kind or its home sends to the Curb, and its queue holds back. -/
theorem curbStores : Obligations.CurbStores := by
  unfold Obligations.CurbStores
  intro s v w b x st o i y hn hx hv hw a at' ok far lag behind plain
  have enters {n z : Nat} {I : Instr} (h : far n)
      (run : exec I s = .next (s.putStore .plain st [{ x := y, va := a n i, effects := bytesFrom y.addr n z }])) : plain n z (exec I s) := by
    obtain ⟨-, away, hq⟩ := h
    rw [run]
    exact putOne_entersCurb hn hq (fun _ => away)
  have waits {kind : StoreKind} {n : Nat} {j : BitVec 6} {es : List Effect} {I : Instr} (h : lag n j)
      (run : exec I s = .next (s.putStore kind st [{ x := y, va := a n j, effects := es }])) : behind kind n j es (exec I s) := by
    obtain ⟨-, late, relaxed⟩ := h
    rw [run]
    exact putOne_lagsBehind late relaxed
  have scalar {n z : Nat} {m : Mask} (small : n ≠ 256) (hm : m = 0) (h : ok n i) :
      s.storeScalar z m b x st i n = s.putStore .plain st [{ x := y, va := a n i, effects := bytesFrom y.addr n z }] := 
    storeScalar_puts hn hx hm small h.1 h.2
  have accum (h : ok 4 0) := execStAcc_puts (st := st) (o := o) hn hx hv h.1 h.2
  refine ⟨fun h => enters h (congrArg _ (scalar (by decide) hv h.1)), fun h => enters h (congrArg _ (scalar (by decide) hv h.1)),
    fun h => enters h (congrArg _ (scalar (by decide) hv h.1)), fun h => enters h (congrArg _ (scalar (by decide) hw h.1)),
    fun h hq => ?_, fun h => waits h (congrArg _ (scalar (by decide) hv h.1)), fun h => waits h (congrArg _ (scalar (by decide) hv h.1)),
    fun h => waits h (congrArg _ (scalar (by decide) hv h.1)), fun h => waits h (congrArg _ (scalar (by decide) hw h.1)),
    fun h => waits h (accum h.1)⟩
  rw [accum h]
  exact putOne_entersCurb hn hq (fun plain => nomatch plain)

end Sys2Proof.Machine
end

section
/-!
PROOFS. Vector, masked, accumulating and multicast stores that go to the Curb (R123, R128, R129, R131).
-/

namespace Sys2Proof.Machine

open Sys2Proof.Claims

/-! ### A vector source -/

section
variable {s t : State} {c : BitVec 6}

/-- The port of a code that is the only source is popped (R23). -/
theorem State.popCodes_popped (s : State) (c : BitVec 6) : Popped s [c] (s.popCodes [c]) := by
  have named (p : Nat) : [c].any (fun c => decide (c.toNat = 56 + p)) = true ↔ c.toNat = 56 + p := by simp
  by_cases hc : c.toNat < 56
  · rw [State.popCodes_register hc]
    exact ⟨s.ctx.ports, rfl, fun p _ => (if_neg (fun e => by have := (named p).mp e; omega)).symm⟩
  · have port : 56 ≤ c.toNat := Nat.not_lt.mp hc
    refine ⟨_, State.popCodes_port port, fun p _ => ?_⟩
    have other : c.toNat = 56 + p ↔ p = c.toNat - 56 := by omega
    rw [State.popCodes_port port, State.port_modFeed _ (by omega), popped]
    simp only [named, other]
    split
    next e => rw [e]
    · rfl

theorem readCode_readable {q : Seqr} (h : readable q c) : readCode q c = .ok (source q c) := by
  by_cases hc : c.toNat < 56
  · rw [readCode_register hc, source, if_pos hc]
  · obtain ⟨bound, filled⟩ := h.resolve_left hc
    rw [readCode_port (Nat.not_lt.mp hc) bound filled, source, if_neg hc]

/-- A readable code alone is read and its port popped (R23, R148). -/
theorem State.withCodes_readable {go : List VReg → State → State} (h : readable s.src c) :
    s.withCodes [c] go = go [source s.src c] (s.popCodes [c]) := by
  rw [State.withCodes, readCodes_one (readCode_readable h)]

variable {cs : List (BitVec 6)} {b : BitVec 3} {x : BitVec 5}

theorem Popped.rb (h : Popped s cs t) (n : BitVec 3) : t.rb n = s.rb n := by
  obtain ⟨ps, rfl, -⟩ := h
  unfold State.rb State.src State.aside
  cases s.issue.pre <;> rfl

theorem Popped.rg (h : Popped s cs t) (n : BitVec 5) : t.rg n = s.rg n := by
  obtain ⟨ps, rfl, -⟩ := h
  unfold State.rg State.src State.aside
  cases s.issue.pre <;> rfl

theorem Popped.rk (h : Popped s cs t) (n : BitVec 3) : t.rk n = s.rk n := by
  obtain ⟨ps, rfl, -⟩ := h
  unfold State.rk State.src State.aside
  cases s.issue.pre <;> rfl

theorem Popped.ctaint (h : Popped s cs t) : t.src.ctaint = s.src.ctaint := by
  obtain ⟨ps, rfl, -⟩ := h
  unfold State.src State.aside
  cases s.issue.pre <;> rfl

theorem Popped.plainAddress (h : Popped s cs t) (hx : Claims.plainAddress s b x) : Claims.plainAddress t b x := by
  obtain ⟨hb, hg, hc⟩ := hx
  exact ⟨by rw [h.rb, hb], by rw [h.rg, hg], by rw [h.ctaint, hc]⟩

theorem Popped.ea (h : Popped s cs t) (n : Nat) (i : BitVec 6) : t.ea b x n i = address s b x i n := by
  rw [ea_eq_address, address, address, h.rb, h.rg]

theorem Popped.noStores (h : Popped s cs t) (hn : Claims.noStores s) : Claims.noStores t := by
  obtain ⟨ps, rfl, -⟩ := h
  exact hn

theorem Popped.translate (h : Popped s cs t) (u : Use) (a : W64) (n : Nat) : t.translate t.me u a n = s.translate s.me u a n := by
  obtain ⟨ps, rfl, -⟩ := h
  exact State.translate_aside _ _ _ _

end

/-! ### Vector stores -/

section
variable {s : State} {v : BitVec 6} {b : BitVec 3} {x : BitVec 5} {a : W64} {y y' : Xlat} {es es' : List Effect} {kind : StoreKind}
  {st o : BitVec 4} {k : BitVec 3} {i : BitVec 6}

/-- Both halves of an aligned 256-byte access are translated. -/
def translatedHalves (s : State) (u : Use) (a : W64) (y y' : Xlat) : Prop :=
  a.toNat % 128 = 0 ∧ s.translate s.me u a 128 = .ok y ∧ s.translate s.me u (a + 128) 128 = .ok y'

theorem Popped.checked_halves {cs : List (BitVec 6)} {t : State} {u : Use} {go : List Piece → State → State} (h : Popped s cs t)
    (ha : translatedHalves s u a y y') : t.checked u (accessPieces a 256) go = go [⟨a, 128, y⟩, ⟨a + 128, 128, y'⟩] t :=
  State.checked_halves (by rw [h.translate]; exact ha.2.1) (by rw [h.translate]; exact ha.2.2)

/-- A slot whose operands carry no tag is free (R117). -/
theorem Popped.mslot {cs : List (BitVec 6)} {t : State} {m : Mask} {go : State → State} (h : Popped s cs t) (hn : Claims.noStores s)
    (hx : Claims.plainAddress s b x) (hm : m = 0) : t.mslot m go = go t :=
  State.mslot_plain _ (h.noStores hn) hm (h.plainAddress hx).2.2

theorem srcAt_one (r : VReg) : srcAt [r] 0 = r := rfl

theorem execStv_puts (hn : noStores s) (hx : plainAddress s b x) (hv : plainVector s v)
    (ha : translatedHalves s .store (address s b x i 256) y y') :
    let r := source s.src v
    exec (.stv v b x st i) s = .next ((s.popCodes [v]).putStore .plain st (halves y y' (address s b x i 256)
      (bytesFrom y.addr 128 (r.val.toNat % 2 ^ 1024)) (bytesFrom y'.addr 128 (r.val.toNat / 2 ^ 1024)))) := by
  intro r
  obtain ⟨readable, untainted⟩ := hv
  change Host.Outcome.next (s.withCodes [v] _) = _
  have popped := s.popCodes_popped v
  have mask : r.taint ||| (s.popCodes [v]).addrMask b x = 0 := by rw [untainted, addrMask_plain (popped.plainAddress hx)]; rfl
  rw [State.withCodes_readable readable]
  dsimp only [srcAt_one]
  rw [popped.mslot hn hx mask, popped.ea]
  unfold State.storeBytes
  rw [if_neg (not_not_intro ha.1), show (vecBytes r.val).length = 256 by rw [vecBytes_eq_leBytes, leBytes_length], popped.checked_halves ha,
    draftBytes_halves]

/-- What the half of an `stm` at byte `first` carries (R128). -/
def maskedHalf (e : Xlat) (va : W64) (first : Nat) (r : Vec) (k : W64) : List Effect :=
  let p : Piece := { va := va, n := 128, x := e }
  p.carries (maskedEffects p first r k)

theorem draftMasked_halves (r : Vec) (k : W64) :
    draftMasked r k 0 [⟨a, 128, y⟩, ⟨a + 128, 128, y'⟩] = halves y y' a (maskedHalf y a 0 r k) (maskedHalf y' (a + 128) 128 r k) := rfl

theorem execStm_puts (hn : noStores s) (hx : plainAddress s b x) (hv : plainVector s v) (hk : (s.rk k).taint = 0)
    (ha : translatedHalves s .store (address s b 0 i 256) y y') :
    let r := source s.src v
    let a := address s b 0 i 256
    exec (.stm v b k st i) s = .next ((s.popCodes [v]).putStore .plain st (halves y y' a
      (maskedHalf y a 0 r.val (s.rk k).val) (maskedHalf y' (a + 128) 128 r.val (s.rk k).val))) := by
  intro r a
  obtain ⟨readable, untainted⟩ := hv
  change Host.Outcome.next (s.withCodes [v] _) = _
  have popped := s.popCodes_popped v
  have mask : r.taint ||| ((s.popCodes [v]).rk k).taint ||| ((s.popCodes [v]).rb b).taint = 0 := by
    rw [untainted, popped.rk, hk, popped.rb, hx.1]
    rfl
  rw [State.withCodes_readable readable]
  dsimp only [srcAt_one]
  rw [popped.mslot hn hx mask, popped.ea, if_neg (not_not_intro ha.1), popped.checked_halves ha, popped.rk, draftMasked_halves]

theorem accumTagOk_of {o t : BitVec 4} (int : o.toNat ∈ [0, 4, 5] → t = 5) (half : o.toNat ∈ [1, 2, 3] → t = 1)
    (bits : o.toNat ∈ [6, 7] → t = 9) (eleven : o = 11 → t = 2) : accumTagOk o t = true := by
  unfold accumTagOk
  split
  case h_9 h => exact decide_eq_true (eleven (BitVec.eq_of_toNat_eq h))
  case h_10 => rfl
  all_goals
    next h =>
    simp [h] at int half bits
    simp [*]

/-- What the half of an `stv.acc` from word `first` on carries (R131). -/
def accumHalf (e : Xlat) (o : BitVec 4) (first : Nat) (r : Vec) : List Effect :=
  (List.range 32).map (fun j => .accum (e.addr + BitVec.ofNat 64 (4 * j)) o (lane r (first + j)))

theorem draftAccum_halves (r : Vec) :
    draftAccum o (lane r) 0 [⟨a, 128, y⟩, ⟨a + 128, 128, y'⟩] = halves y y' a (accumHalf y o 0 r) (accumHalf y' o 32 r) := by
  simp only [draftAccum, halves, accumHalf, Nat.reduceDiv, Nat.zero_add]

theorem execStvAcc_puts (hn : noStores s) (hx : plainAddress s b x) (hv : plainVector s v)
    (ha : translatedHalves s .store (address s b x 0 256) y y') (ho : accumTagOk o (source s.src v).tag = true) :
    let r := source s.src v
    exec (.stvAcc v b x st o) s = .next ((s.popCodes [v]).putStore .accum st (halves y y' (address s b x 0 256)
      (accumHalf y o 0 r.val) (accumHalf y' o 32 r.val))) := by
  intro r
  obtain ⟨readable, untainted⟩ := hv
  change Host.Outcome.next (s.withCodes [v] _) = _
  have popped := s.popCodes_popped v
  have mask : r.taint ||| (s.popCodes [v]).addrMask b x = 0 := by rw [untainted, addrMask_plain (popped.plainAddress hx)]; rfl
  have format : ¬ (!accumTagOk o r.tag) = true := by rw [ho]; decide
  rw [State.withCodes_readable readable]
  dsimp only [srcAt_one]
  rw [popped.mslot hn hx mask, popped.ea]
  rw [if_neg format, if_neg (not_not_intro ha.1), popped.checked_halves ha, draftAccum_halves]

/-- A multicast of two contiguous halves of one group is accepted as one store (R129). -/
theorem execStvMc_accepts (hn : noStores s) (hx : plainAddress s b x) (hv : plainVector s v)
    (ha : translatedHalves s .mc (address s b x i 256) y y') (hg : y'.mc = y.mc) (hc : y'.addr = y.addr + 128) :
    let r := source s.src v
    exec (.stvMc v b x st i) s = .next ((s.popCodes [v]).accept .mcast (y.sc || y'.sc) st y.mc y.addr (halves y y' (address s b x i 256)
      (bytesFrom y.addr 128 (r.val.toNat % 2 ^ 1024)) (bytesFrom y'.addr 128 (r.val.toNat / 2 ^ 1024)))) := by
  intro r
  obtain ⟨readable, untainted⟩ := hv
  change Host.Outcome.next (s.withCodes [v] _) = _
  have popped := s.popCodes_popped v
  have mask : r.taint ||| (s.popCodes [v]).addrMask b x = 0 := by rw [untainted, addrMask_plain (popped.plainAddress hx)]; rfl
  have one : oneMulticast ⟨address s b x i 256, 128, y⟩ ⟨address s b x i 256 + 128, 128, y'⟩ = true := by
    simp [oneMulticast, hg, hc]
  have sc : (y.sc || (y'.sc || false)) = (y.sc || y'.sc) := by rw [Bool.or_false]
  rw [State.withCodes_readable readable]
  dsimp only [srcAt_one]
  rw [popped.mslot hn hx mask, popped.ea, if_neg (not_not_intro ha.1), popped.checked_halves ha]
  dsimp only [List.any_cons, List.any_nil]
  rw [draftBytes_halves, sc]
  exact congrArg Host.Outcome.next (if_pos one)

/-- Two halves that are not a plain store to the own scratchpad enter the Curb (R123, R133). -/
theorem putHalves_entersCurb (hn : noStores s) (hq : prompt s (y.sc || y'.sc))
    (far : kind = .plain → (s.touchAll s.me [a, a + 128]).ownHome y = none ∨ (s.touchAll s.me [a, a + 128]).ownHome y' = none) :
    let s' := s.touchAll s.me [a, a + 128]
    entersCurb s' [v] kind (y.sc || y'.sc) st none 0 (partsOf s' y y' a es es')
      (.next ((s.popCodes [v]).putStore kind st (halves y y' a es es'))) := by
  intro s'
  have sc : (halves y y' a es es').any (fun d => d.x.sc) = (y.sc || y'.sc) := congrArg (y.sc || ·) (Bool.or_false _)
  have enters := (s.popCodes_popped v).putStore_entersCurb (kind := kind) (st := st)
    (ds := halves y y' a es es') hn (by rw [sc]; exact hq) (fun plain => ?_)
  · rw [sc] at enters
    rw [← partsOfDrafts_halves]
    exact enters
  · rcases far plain with h | h
    · exact ⟨_, List.mem_cons_self, h⟩
    · exact ⟨_, List.mem_cons_of_mem _ (List.mem_singleton_self _), h⟩

/-- Two halves to pages that are not SC, whose queue lags (R71, R73). -/
theorem putHalves_lagsBehind (hl : s.issue.late = true) (h : y.sc = false) (h' : y'.sc = false) :
    lagsBehind (s.touchAll s.me [a, a + 128]) [v] kind st none 0 (halves y y' a es es')
      (.next ((s.popCodes [v]).putStore kind st (halves y y' a es es'))) :=
  (s.popCodes_popped v).putStore_lagsBehind hl (by simp [halves, h, h'])

end

/-- Settles O26: each form is put, or accepted as a multicast, as the drafts of its two halves. -/
theorem curbVectorStores : Obligations.CurbVectorStores := by
  unfold Obligations.CurbVectorStores
  intro s v b x k st o i y y' hn hx hv hk r lo hi at' ok now lag far whole drafts masked words a a0 aA
  have halvesOf {u : Use} {a : W64} (h : ok u a) : translatedHalves s u a y y' := h
  have popped := s.popCodes_popped v
  refine ⟨fun h f => ?stv, fun h f => ?stm, fun h hq int half bits eleven => ?acc, fun h hq mc hg hc => ?mc,
    fun h l => ?stvLate, fun h l => ?stmLate, fun h l int half bits eleven => ?accLate, fun h l mc hg hc => ?mcLate⟩
  case stv =>
    rw [execStv_puts hn hx hv (halvesOf h)]
    exact putHalves_entersCurb hn f.2 (fun _ => f.1)
  case stm =>
    rw [execStm_puts hn hx hv hk (halvesOf h)]
    exact putHalves_entersCurb hn f.2 (fun _ => f.1)
  case acc =>
    rw [execStvAcc_puts hn hx hv (halvesOf h) (accumTagOk_of int half bits eleven)]
    exact putHalves_entersCurb hn hq (fun plain => nomatch plain)
  case mc =>
    rw [execStvMc_accepts hn hx hv (halvesOf h) hg hc, ← partsOfDrafts_halves]
    exact popped.accept_entersCurb hn hq
  case stvLate =>
    rw [execStv_puts hn hx hv (halvesOf h)]
    exact putHalves_lagsBehind l.1 l.2.1 l.2.2
  case stmLate =>
    rw [execStm_puts hn hx hv hk (halvesOf h)]
    exact putHalves_lagsBehind l.1 l.2.1 l.2.2
  case accLate =>
    rw [execStvAcc_puts hn hx hv (halvesOf h) (accumTagOk_of int half bits eleven)]
    exact putHalves_lagsBehind l.1 l.2.1 l.2.2
  case mcLate =>
    rw [execStvMc_accepts hn hx hv (halvesOf h) hg hc]
    exact popped.accept_lagsBehind l.1 (by rw [l.2.1, l.2.2]; rfl)

end Sys2Proof.Machine
end

section
/-!
PROOFS. Full/empty marks (R134, R135, R395).
-/

namespace Sys2Proof.Machine

open Sys2Proof.Claims

variable {s s' : State}

/-! ### Full/empty marks (R134, R135) -/

section
variable {b : BitVec 3} {x : BitVec 5} {y : Xlat} {a : W64} {h : Home} {c : BitVec 8} {full : Bool}

/-- A mark put where the line is (R135): the tail of `State.markLine`. -/
def State.placeMark (s : State) (y : Xlat) (a : W64) (full : Bool) : State :=
  match s.ownHome y with
  | some h => if full && s.ownOverlap (s.lineLocs h) false then s.stall .storeRoom else s.feSet full h.fe
  | none => s.accept .mark y.sc 0 none 0 [{ x := y, va := a, effects := [.mark y.addr full] }]

theorem sysMask_plain (h : plainAddress s b x) : s.sysMask b x = 0 := by
  obtain ⟨hb, hx, -⟩ := h
  rw [State.sysMask, hb, hx]
  rfl

/-- A translated mark is placed, behind the check of its home where the source makes it (R135, R395). -/
theorem markLine_translated (hn : noStores s) (hx : plainAddress s b x) (ht : s.translate s.me .bit (byteAddress s b x) 1 = .ok y) :
    let a := byteAddress s b x
    let s' := s.touchAll s.me [a]
    s.markLine b x full = if y.via = .phys ∨ inLotWindows a = true then s'.fePlace .bit a y (fun _ t => t.placeMark y a full)
      else s'.placeMark y a full := by
  intro a s'
  unfold State.markLine
  rw [State.mslot_plain _ hn (sysMask_plain hx) hx.2.2]
  dsimp only
  rw [show s.eaSys b x = a from rfl, State.checked_one ht]
  simp only [Bool.or_eq_true, decide_eq_true_eq]
  rfl

theorem fePlace_error (hp : y.pkg = s.pkg) (hh : s.homeOf s.ctx.cdie.toNat s.ctx.sup .bit y.via y.addr = .error c)
    (go : Option Home → State → State) : s.fePlace .bit a y go = s.raise c a := by
  unfold State.fePlace
  rw [if_pos hp, hh]

theorem fePlace_unmarked (hp : y.pkg = s.pkg) (hh : s.homeOf s.ctx.cdie.toNat s.ctx.sup .bit y.via y.addr = .ok h) (hf : h.fe = none)
    (go : Option Home → State → State) : s.fePlace .bit a y go = s.raise cPerm a := by
  unfold State.fePlace
  rw [if_pos hp, hh]
  dsimp only
  rw [hf]
  rfl

theorem fePlace_marked (hp : y.pkg = s.pkg) (hh : s.homeOf s.ctx.cdie.toNat s.ctx.sup .bit y.via y.addr = .ok h)
    (hf : h.fe.isSome = true) (go : Option Home → State → State) : s.fePlace .bit a y go = go (some h) s := by
  obtain ⟨f, hf⟩ := Option.isSome_iff_exists.mp hf
  unfold State.fePlace
  rw [if_pos hp, hh]
  dsimp only
  rw [hf]
  rfl

theorem fePlace_away (hp : y.pkg ≠ s.pkg) (hv : y.via ≠ .phys ∨ isScratch (paLocal y.addr) = true) (go : Option Home → State → State) :
    s.fePlace .bit a y go = go none s := by
  unfold State.fePlace
  rw [if_neg hp, if_neg]
  simp only [Bool.and_eq_true, decide_eq_true_eq, Bool.not_eq_true', not_and]
  intro phys hbm
  rcases hv with hv | hv
  · exact hv phys
  · rw [hbm] at hv
    cases hv

theorem fePlace_awayHbm (hp : y.pkg ≠ s.pkg) (hv : y.via = .phys) (hm : isScratch (paLocal y.addr) = false)
    (go : Option Home → State → State) : s.fePlace .bit a y go = s.raise cPerm a := by
  unfold State.fePlace
  rw [if_neg hp, if_pos]
  simp only [hv, hm, decide_true, Bool.not_false, Bool.and_self]

/-- The home of the own scratchpad is found by any use (R331). -/
theorem homeOf_of_ownHome (ho : s.ownHome y = some h) (u : Use) :
    y.pkg = s.pkg ∧ s.homeOf s.ctx.cdie.toNat s.ctx.sup u y.via y.addr = .ok h := by
  unfold State.ownHome at ho
  split at ho
  · cases ho
  next near =>
    refine ⟨not_not.mp near, ?_⟩
    split at ho
    · cases ho
    next via local' =>
      have home : s.homeOf s.ctx.cdie.toNat s.ctx.sup u y.via y.addr = s.homeOf s.ctx.cdie.toNat s.ctx.sup .store y.via y.addr := by
        cases e : y.via with
        | remote asid => exact absurd e (local' asid)
        | _ => rfl
      rw [home]
      split at ho
      next found =>
        split at ho
        · cases ho
          exact found
        · cases ho
      · cases ho

theorem mem_empties_feSet_full {l line : Nat} : l ∈ (s.feSet true (some (.line line))).empties ↔ l ≠ line ∧ l ∈ s.empties := by
  change l ∈ s.empties.filter _ ↔ _
  rw [List.mem_filter, decide_eq_true_eq, and_comm]

theorem mem_empties_feSet_empty {l line : Nat} : l ∈ (s.feSet false (some (.line line))).empties ↔ l = line ∨ l ∈ s.empties := by
  change l ∈ (if s.empties.contains line then s else { s with empties := line :: s.empties }).empties ↔ _
  split
  next found => exact ⟨.inr, fun h => h.elim (fun e => by rw [e]; exact List.contains_iff_mem.mp found) id⟩
  · exact List.mem_cons

theorem feSet_line {line : Nat} :
    s.feSet full (some (.line line)) = { s with empties := (s.feSet full (some (.line line))).empties } := by
  cases full
  · change (if s.empties.contains line then s else _) = { s with empties := (if s.empties.contains line then s else _).empties }
    split <;> rfl
  · rfl

theorem Noted.empties (h : Noted s s') : s'.empties = s.empties := by obtain ⟨_, _, rfl⟩ := h; rfl

/-- The line of the own scratchpad is marked at once (R135). -/
theorem markLine_own {line : Nat} (hn : noStores s) (hx : plainAddress s b x) (ht : s.translate s.me .bit (byteAddress s b x) 1 = .ok y) :
    let s' := s.touchAll s.me [byteAddress s b x]
    s'.ownHome y = some h → h.fe = some (.line line) → s.markLine b x full = s'.feSet full (some (.line line)) := by
  intro s' ho hf
  have placed : s'.placeMark y (byteAddress s b x) full = s'.feSet full (some (.line line)) := by
    rw [State.placeMark, ho]
    dsimp only
    rw [ownOverlap_of_noStores ((s.touchAll_noted _ _).noStores hn), Bool.and_false, if_neg Bool.false_ne_true, hf]
  obtain ⟨near, found⟩ := homeOf_of_ownHome ho .bit
  rw [markLine_translated hn hx ht, fePlace_marked near found (by rw [hf]; rfl), placed, ite_self]

/-- A mark that the source cannot refuse is accepted where its line is not of the own scratchpad (R135, R395). -/
theorem markLine_away (hn : noStores s) (hx : plainAddress s b x) (ht : s.translate s.me .bit (byteAddress s b x) 1 = .ok y) :
    let a := byteAddress s b x
    let s' := s.touchAll s.me [a]
    s'.ownHome y = none →
    (¬ (y.via = .phys ∨ inLotWindows a = true) ∨
      if y.pkg = s.pkg then s'.homeOf s.ctx.cdie.toNat s.ctx.sup .bit y.via y.addr = .ok h ∧ h.fe.isSome = true
      else y.via ≠ .phys ∨ isScratch (paLocal y.addr) = true) →
    s.markLine b x full = s'.accept .mark y.sc 0 none 0 [{ x := y, va := a, effects := [.mark y.addr full] }] := by
  intro a s' away holds
  have noted : Noted s s' := s.touchAll_noted _ _
  have placed : s'.placeMark y a full = s'.accept .mark y.sc 0 none 0 [{ x := y, va := a, effects := [.mark y.addr full] }] := by
    rw [State.placeMark, away]
  rw [markLine_translated hn hx ht]
  split
  next atSource =>
    have holds := holds.resolve_left (not_not_intro atSource)
    split at holds
    next near =>
      obtain ⟨found, marked⟩ := holds
      rw [fePlace_marked (near.trans noted.pkg.symm) (by rw [noted.ctx]; exact found) marked, placed]
    next far => rw [fePlace_away (by rw [noted.pkg]; exact far) holds, placed]
  · exact placed

end

/-- Settles O27: a mark is translated, checked where the source can, then set at once or accepted. -/
theorem lineMarks : Obligations.LineMarks := by
  unfold Obligations.LineMarks
  intro s b x y h line c hn hx a s' mark ht
  have noted : Noted s s' := s.touchAll_noted _ _
  have checked (full : Bool) (atSource : y.via = .phys ∨ inLotWindows a = true) {t : State}
      (refused : ∀ go, s'.fePlace .bit a y go = t) : (.next (s.markLine b x full) : Out) = .next t := by
    rw [markLine_translated hn hx ht, if_pos atSource, refused]
  refine ⟨fun ho hf => ⟨⟨_, congrArg Host.Outcome.next (markLine_own hn hx ht ho hf), fun l => ?full, feSet_line⟩,
      ⟨_, congrArg Host.Outcome.next (markLine_own hn hx ht ho hf), fun l => ?empty, feSet_line⟩⟩, ?_⟩
  case full => rw [mem_empties_feSet_full, noted.empties]
  case empty => rw [mem_empties_feSet_empty, noted.empties]
  intro atSource holds
  have enters (away : s'.ownHome y = none) (ok : ¬ atSource ∨ holds) (hq : prompt s y.sc) (full : Bool) :
      entersCurb s' [] .mark y.sc 0 none 0 [partOf s' y a (mark full)] (.next (s.markLine b x full)) := by
    rw [markLine_away hn hx ht away ok]
    exact (Popped.refl s').accept_entersCurb (noted.noStores hn) (noted.prompt hq)
  have waits (away : s'.ownHome y = none) (ok : ¬ atSource ∨ holds) (hl : s.issue.late = true) (hsc : y.sc = false) (full : Bool) :
      lagsBehind s' [] .mark 0 none 0 [{ x := y, va := a, effects := mark full }] (.next (s.markLine b x full)) := by
    rw [markLine_away hn hx ht away ok]
    exact (Popped.refl s').accept_lagsBehind (by rw [noted.issue]; exact hl) hsc
  refine ⟨fun away ok hq => ⟨enters away ok hq true, enters away ok hq false⟩,
    fun away ok hl hsc => ⟨waits away ok hl hsc true, waits away ok hl hsc false⟩,
    fun far phys hbm => ?hbm, fun source near failed => ?fault, fun source near found unmarked => ?unmarked⟩
  case hbm =>
    have refused := fePlace_awayHbm (a := a) (by rw [noted.pkg]; exact far) phys hbm
    exact ⟨checked true (.inl phys) refused, checked false (.inl phys) refused⟩
  case fault =>
    have refused := fePlace_error (a := a) (near.trans noted.pkg.symm) (by rw [noted.ctx]; exact failed)
    exact ⟨checked true source refused, checked false source refused⟩
  case unmarked =>
    have refused := fePlace_unmarked (a := a) (near.trans noted.pkg.symm) (by rw [noted.ctx]; exact found) unmarked
    exact ⟨checked true source refused, checked false source refused⟩

end Sys2Proof.Machine
end

section
/-!
PROOFS. Read-modify-write commands (R185 to R187).
-/

namespace Sys2Proof.Machine

open Sys2Proof.Claims

variable {s : State}

theorem Noted.rg {t : State} (h : Noted s t) (n : BitVec 5) : t.rg n = s.rg n := congrArg (fun q => q.rg n) h.src

/-! ### Read-modify-write (R185 to R187) -/

section
variable {o : BitVec 4} {a b : BitVec 5} {addr ret : W64} {y z : Xlat} {h : Home} {e : BitVec 8 × W64}

/-- An engine slot whose operands carry no tag is free. -/
theorem State.eslot_plain {go : State → State} (h : untainted s a b) : s.eslot ((s.rg a).taint ||| (s.rg b).taint) go = go s := by
  obtain ⟨ha, hb, hc⟩ := h
  rw [State.eslot, ha, hb, hc, show (0 : Mask) ||| 0 ||| 0 = 0 from rfl, State.hold_zero]

theorem scPending_of_noStores (hn : noStores s) : s.scPending = false :=
  scPending_eq_false (by rw [earlierEntries_of_noStores hn]; exact fun _ h => nomatch h)

theorem retOk_untranslated (ht : s.translate s.me .store ret = .error e) : s.retOk ret = .error e := by
  unfold State.retOk
  rw [ht]

theorem retOk_abroad (ht : s.translate s.me .store ret = .ok z) (hp : z.pkg ≠ s.pkg) : s.retOk ret = .error (cPerm, ret) := by
  unfold State.retOk
  rw [ht]
  dsimp only
  rw [if_neg hp]

theorem retOk_home (ht : s.translate s.me .store ret = .ok z) (hp : z.pkg = s.pkg)
    (hh : s.homeOf s.ctx.cdie.toNat s.ctx.sup .store z.via z.addr = .ok h) :
    s.retOk ret = if isScratch h.place = true ∧ dieOf h.place = s.ctx.cdie.toNat then .ok () else .error (cPerm, ret) := by
  unfold State.retOk
  rw [ht]
  dsimp only
  rw [if_pos hp, hh]
  simp only [Bool.and_eq_true, decide_eq_true_eq]

/-- The word that an `xrmw` works on. -/
def State.rmwAddr (s : State) : W64 := s.src.stagingOf 0 0

/-- Where an `xrmw` returns the old word, 0 for nowhere. -/
def State.rmwRet (s : State) : W64 := s.src.stagingOf 0 1

theorem execXrmw_misaligned (hu : untainted s a b) (ha : s.rmwAddr.toNat % 4 ≠ 0) :
    exec (.xrmw o a b) s = .next (s.raise cAlign s.rmwAddr) := by
  change Host.Outcome.next (s.eslot _ _) = _
  rw [State.eslot_plain hu]
  exact congrArg Host.Outcome.next (if_pos ha)

theorem execXrmw_misalignedRet (hu : untainted s a b) (ha : s.rmwAddr.toNat % 4 = 0) (hr : s.rmwRet.toNat % 4 ≠ 0) :
    exec (.xrmw o a b) s = .next (s.raise cAlign s.rmwRet) := by
  have present : s.rmwRet ≠ 0 := fun e => hr (by rw [e]; rfl)
  change Host.Outcome.next (s.eslot _ _) = _
  rw [State.eslot_plain hu]
  refine congrArg Host.Outcome.next ((if_neg (not_not_intro ha)).trans (if_pos ?_))
  exact Bool.and_eq_true_iff.mpr ⟨decide_eq_true present, decide_eq_true hr⟩

/-- An aligned or absent return word passes the check of R186's alignment. -/
theorem rmwRet_aligned (hr : s.rmwRet.toNat % 4 = 0) : ¬ (decide (s.rmwRet ≠ 0) && decide (s.rmwRet.toNat % 4 ≠ 0)) = true := by
  rw [Bool.and_eq_true, decide_eq_true_eq, decide_eq_true_eq]
  exact fun h => h.2 hr

theorem execXrmw_untranslated (hu : untainted s a b) (ha : s.rmwAddr.toNat % 4 = 0) (hr : s.rmwRet.toNat % 4 = 0)
    (ht : s.translate s.me .store s.rmwAddr 4 = .error e) : exec (.xrmw o a b) s = .next (s.raise e.1 e.2) := by
  change Host.Outcome.next (s.eslot _ _) = _
  rw [State.eslot_plain hu]
  refine congrArg Host.Outcome.next ((if_neg (not_not_intro ha)).trans ((if_neg (rmwRet_aligned hr)).trans ?_))
  rw [show s.src.stagingOf 0 0 = s.rmwAddr from rfl, ht]

theorem execXrmw_refused (hn : noStores s) (hu : untainted s a b) (ha : s.rmwAddr.toNat % 4 = 0) (hr : s.rmwRet.toNat % 4 = 0)
    (ht : s.translate s.me .store s.rmwAddr 4 = .ok y) (present : s.rmwRet ≠ 0) (refused : s.retOk s.rmwRet = .error e) :
    exec (.xrmw o a b) s = .next (s.raise e.1 e.2) := by
  change Host.Outcome.next (s.eslot _ _) = _
  rw [State.eslot_plain hu]
  refine congrArg Host.Outcome.next ((if_neg (not_not_intro ha)).trans ((if_neg (rmwRet_aligned hr)).trans ?_))
  rw [show s.src.stagingOf 0 0 = s.rmwAddr from rfl, show s.src.stagingOf 0 1 = s.rmwRet from rfl, ht]
  dsimp only
  rw [scPending_of_noStores hn, if_neg Bool.false_ne_true, if_neg present, refused]

/-- A valid word, with no return word or one that may be written, is accepted under the stream in xc.strm. -/
theorem execXrmw_accepts (hn : noStores s) (hu : untainted s a b) (ha : s.rmwAddr.toNat % 4 = 0) (hr : s.rmwRet.toNat % 4 = 0)
    (ht : s.translate s.me .store s.rmwAddr 4 = .ok y) (hret : s.rmwRet = 0 ∨ s.retOk s.rmwRet = .ok ()) :
    exec (.xrmw o a b) s = .next
      ((s.touchAll s.me (if s.rmwRet = 0 then [s.rmwAddr] else [s.rmwAddr, s.rmwRet])).accept .rmw y.sc
        (BitVec.ofNat 4 (s.src.stagingOf 0 2).toNat) none 0
        [{ x := y, va := s.rmwAddr, effects := [.rmw y.addr o (s.rg a).val (s.rg b).val s.rmwRet] }]) := by
  have checked : (if s.rmwRet = 0 then Except.ok () else s.retOk s.rmwRet) = .ok () := by
    rcases hret with absent | fine
    · exact if_pos absent
    · rw [fine, ite_self]
  change Host.Outcome.next (s.eslot _ _) = _
  rw [State.eslot_plain hu]
  refine congrArg Host.Outcome.next ((if_neg (not_not_intro ha)).trans ((if_neg (rmwRet_aligned hr)).trans ?_))
  rw [show s.src.stagingOf 0 0 = s.rmwAddr from rfl, show s.src.stagingOf 0 1 = s.rmwRet from rfl, ht]
  dsimp only
  rw [scPending_of_noStores hn, if_neg Bool.false_ne_true, checked, BitVec.ofNat_toNat]
  dsimp only
  rw [(s.touchAll_noted _ _).rg, (s.touchAll_noted _ _).rg]

end

/-- Settles O41: each row of R186's checks, and the acceptance of a command that passes them. -/
theorem readModifyWrite : Obligations.ReadModifyWrite := by
  unfold Obligations.ReadModifyWrite
  intro s o a b y z h e hn hu addr ret st s' valid fine
  have noted : Noted s s' := s.touchAll_noted _ _
  have aligned (ok : ret = 0 ∨ fine) : ret.toNat % 4 = 0 := ok.elim (fun absent => by rw [absent]; rfl) (fun f => f.1)
  have returns (ok : ret = 0 ∨ fine) : ret = 0 ∨ s.retOk ret = .ok () := by
    refine ok.imp id (fun ⟨_, ht, hp, hh, scratch, die⟩ => ?_)
    rw [retOk_home ht hp hh, if_pos ⟨scratch, die⟩]
  have accepts (hv : valid) (ok : ret = 0 ∨ fine) := execXrmw_accepts (o := o) hn hu hv.1 (aligned ok) hv.2 (returns ok)
  have refuses (hv : valid) (present : ret ≠ 0) (hr : ret.toNat % 4 = 0) {e : BitVec 8 × W64} (refused : s.retOk ret = .error e) :
      exec (.xrmw o a b) s = .next (s.raise e.1 e.2) := execXrmw_refused hn hu hv.1 hr hv.2 present refused
  refine ⟨fun hv ok hl hsc => ?lag, fun hv ok hq => ?enter, execXrmw_misaligned hu, execXrmw_misalignedRet hu,
    execXrmw_untranslated hu, fun hv present hr ht => refuses hv present hr (retOk_untranslated ht),
    fun hv present hr ht hp => refuses hv present hr (retOk_abroad ht hp),
    fun hv present hr ht hp hh away => refuses hv present hr ((retOk_home ht hp hh).trans (if_neg away))⟩
  case lag =>
    rw [accepts hv ok]
    exact (Popped.refl s').accept_lagsBehind (by rw [noted.issue]; exact hl) hsc
  case enter =>
    rw [accepts hv ok]
    exact (Popped.refl s').accept_entersCurb (noted.noStores hn) (noted.prompt hq)

end Sys2Proof.Machine
end

section
/-!
PROOFS. Division (R91): quotients, and remainders as what the quotient leaves of the dividend.
-/

namespace Sys2Proof.Machine

open Sys2Proof.Claims

theorem divS_eq (x y : W32) :
    divS x y = if y = 0 then 0xFFFFFFFF else if x = 0x80000000 ∧ y = 0xFFFFFFFF then 0x80000000
      else BitVec.ofInt 32 (x.toInt.tdiv y.toInt) := by
  simp only [divS, Bool.and_eq_true, decide_eq_true_eq]

/-- Modulo 2 ^ 32 a quotient may be taken as its word, so no quotient need fit. -/
theorem ofInt_sub_quotient (x q y : Int) :
    BitVec.ofInt 32 (x - (BitVec.ofInt 32 q).toInt * y) = BitVec.ofInt 32 (x - q * y) := by
  simp only [Int.sub_eq_add_neg, BitVec.ofInt_add, BitVec.ofInt_neg, BitVec.ofInt_mul, BitVec.ofInt_toInt]

theorem remS_eq (x y : W32) :
    remS x y = if y = 0 then x else if x = 0x80000000 ∧ y = 0xFFFFFFFF then 0
      else BitVec.ofInt 32 (x.toInt - (divS x y).toInt * y.toInt) := by
  simp only [remS, Bool.and_eq_true, decide_eq_true_eq]
  split
  case isTrue => rfl
  case isFalse hy =>
    split
    case isTrue => rfl
    case isFalse fits =>
      rw [divS_eq, if_neg hy, if_neg fits, ofInt_sub_quotient, Int.tmod_def, Int.mul_comm]

/-- An unsigned quotient is no larger than its dividend. -/
theorem toNat_divU {x y : W32} (hy : y ≠ 0) : (divU x y).toNat = x.toNat / y.toNat := by
  rw [divU, if_neg hy, BitVec.toNat_ofNat, Nat.mod_eq_of_lt (lt_of_le_of_lt (Nat.div_le_self _ _) x.isLt)]

theorem remU_eq (x y : W32) : remU x y = if y = 0 then x else BitVec.ofInt 32 (x.toNat - (divU x y).toNat * y.toNat) := by
  unfold remU
  split
  case isTrue => rfl
  case isFalse hy =>
    have left : (x.toNat : Int) - (divU x y).toNat * y.toNat = (x.toNat % y.toNat : Nat) := by
      rw [toNat_divU hy, Int.natCast_mod, Int.emod_def, Int.natCast_div, Int.mul_comm]
    rw [left, BitVec.ofInt_natCast]

/-- Settles O1: a remainder of the model is what the quotient leaves of the dividend. -/
theorem divisionResults : Obligations.DivisionResults := by
  unfold Obligations.DivisionResults
  intro s d a b x y m qs rs qu ru
  have quotient : divS x y = qs := divS_eq x y
  have remainder : remS x y = rs := (remS_eq x y).trans (by rw [quotient])
  exact ⟨writesG_alu2 quotient, writesG_alu2 rfl, writesG_alu2 remainder, writesG_alu2 (remU_eq x y)⟩

end Sys2Proof.Machine
end

section
/-!
PROOFS. The base of a lot window (R95, R330).
-/

namespace Sys2Proof.Machine

open Sys2Proof.Claims

variable {s : State} {d : BitVec 3} {a : BitVec 5} {j : Job}

theorem execSpb_own (hj : s.jobOf s.ctx.job = some j) (hn : (s.rg a).val.toNat < j.lots) :
    execSpb d a s = .next (s.wb d (lotWindow s.ctx.index.toNat (s.rg a).val.toNat) (s.rg a).taint) := by
  unfold execSpb
  rw [hj]
  exact if_neg (Nat.not_le.mpr hn)

theorem execSpb_beyond (hj : s.jobOf s.ctx.job = some j) (hn : j.lots ≤ (s.rg a).val.toNat) :
    execSpb d a s = .next (s.raise cPerm 0) := by
  unfold execSpb
  rw [hj]
  exact if_pos hn

/-- Settles O6: the lots of the sequencer's job bound the numbers that have a window. -/
theorem lotWindowBase : Obligations.LotWindowBase := by
  unfold Obligations.LotWindowBase
  intro s d a j hj
  exact ⟨fun hn => writesB_of_eq (execSpb_own hj hn), fun hn => execSpb_beyond hj hn⟩

end Sys2Proof.Machine
end

section
/-!
PROOFS. Branches, calls and jumps (R99, R101, R104).
-/

namespace Sys2Proof.Machine

open Sys2Proof.Claims

variable {s : State}

theorem State.branchTarget_eq (off : BitVec 20) : s.branchTarget off = s.wordAddr + 4 * off.signExtend 64 := by
  rw [State.branchTarget, BitVec.ofInt_mul]
  rfl

/-- A conditional transfer ORs its mask whether it is taken or not (R104). -/
theorem transfers_ite {c : Bool} {m : Mask} {a x : W64} (h : a = x) :
    transfers s m (if c then some x else none) (.next (if c then (s.orCtaint m).goTo a else s.orCtaint m)) := by
  subst h
  cases c <;> rfl

theorem execCall_taken {n : BitVec 1} {k : BitVec 3} {off : BitVec 20} (h : s.met n k = true) :
    execCall n k off s =
      .next (((s.orCtaint (s.rk k).taint).wb 7 (s.wordAddr + 4) 0).goTo (s.branchTarget off)) :=
  congrArg Host.Outcome.next (if_pos h)

theorem execCall_untaken {n : BitVec 1} {k : BitVec 3} {off : BitVec 20} (h : s.met n k = false) :
    execCall n k off s = .next (s.orCtaint (s.rk k).taint) :=
  congrArg Host.Outcome.next (if_neg (Bool.eq_false_iff.mp h))

theorem State.jumpTo_aligned {a : BitVec 3} (h : (s.rb a).val.toNat % 4 = 0) :
    s.jumpTo a = (s.orCtaint (s.rb a).taint).goTo (s.rb a).val :=
  if_neg (not_not_intro h)

theorem State.jumpTo_misaligned {a : BitVec 3} (h : (s.rb a).val.toNat % 4 ≠ 0) : s.jumpTo a = s.raise cAlign (s.rb a).val :=
  if_pos h

/-- Settles O7: each transfer of the model ORs its mask, and where it is taken goes to the target. -/
theorem controlTransfers : Obligations.ControlTransfers := by
  unfold Obligations.ControlTransfers
  intro s n k a off p w target
  have hTarget : s.branchTarget off = target := State.branchTarget_eq off
  have jumps (r : BitVec 3) (h : (s.rb r).val.toNat % 4 = 0) :
      transfers s (s.rb r).taint (some (s.rb r).val) (.next (s.jumpTo r)) := congrArg _ (State.jumpTo_aligned h)
  refine ⟨transfers_ite hTarget, transfers_ite hTarget, fun h => execCall_untaken h, fun h => ?call, jumps a, jumps 7,
    fun h => congrArg _ (State.jumpTo_misaligned h), fun h => congrArg _ (State.jumpTo_misaligned h)⟩
  case call =>
    exact ⟨_, execCall_taken h, fun r => State.rb_wb (s.orCtaint p.taint) 7 r (w + 4) 0, by rw [hTarget]; rfl⟩

end Sys2Proof.Machine
end

section
/-!
PROOFS. Leaving a loop and reading its index (R107, R108).
-/

namespace Sys2Proof.Machine

open Sys2Proof.Claims

variable {s : State}

theorem loops_leave {i : Nat} {l : LoopLevel} {m : Mask} {a : W64} {o : Out}
    (e : o = .next (((s.orCtaint m).setLevel i l).goTo a)) (hi : i < 6) : loops s m i l (some a) o :=
  ⟨_, e, fun n _ => State.level_setLevel l hi n, rfl, rfl, rfl⟩

theorem execLbrk_leaves {n : BitVec 1} {k : BitVec 3} {x : W64} (h : s.src.levels ≠ 0) (hm : s.met n k = true)
    (hx : exitsTo s (s.src.level (s.src.levels - 1)).stop x) :
    execLbrk n k s = .next (((s.orCtaint (s.rk k).taint).setLevel (s.src.levels - 1)
      { s.src.level (s.src.levels - 1) with valid := false }).goTo x) := by
  unfold execLbrk
  rw [if_neg h]
  exact (if_pos hm).trans (congrArg _ (State.toExit_eq _ hx))

theorem execLbrk_stays {n : BitVec 1} {k : BitVec 3} (h : s.src.levels ≠ 0) (hm : s.met n k = false) :
    execLbrk n k s = .next (s.orCtaint (s.rk k).taint) := by
  unfold execLbrk
  rw [if_neg h]
  exact if_neg (Bool.eq_false_iff.mp hm)

theorem execLbrk_depth {n : BitVec 1} {k : BitVec 3} (h : s.src.levels = 0) :
    execLbrk n k s = .next (s.raise cLoopDepth 0) := if_pos h

theorem execLidx_reads {d l : BitVec 5} (h : s.src.levels = l.toNat + 1) :
    execLidx d l s = .next (s.wg d (s.src.level l.toNat).index 0) := if_neg (not_not_intro h)

theorem execLidx_depth {d l : BitVec 5} (h : s.src.levels ≠ l.toNat + 1) :
    execLidx d l s = .next (s.raise cLoopDepth 0) := if_pos h

/-- Settles O9: `lbrk` and `lidx` act on the level below the number of valid ones. -/
theorem loopBreakResults : Obligations.LoopBreakResults := by
  unfold Obligations.LoopBreakResults
  intro s n k d l x p i lv
  have innermost (h : s.src.levels ≠ 0) : i < 6 := lt_of_lt_of_le (Nat.sub_one_lt h) s.src.levels_le
  exact ⟨fun h hm hx => loops_leave (execLbrk_leaves h hm hx) (innermost h), fun h hm => execLbrk_stays h hm,
    fun h => execLbrk_depth h, fun h => writesG_of_eq (execLidx_reads h), fun h => execLidx_depth h⟩

end Sys2Proof.Machine
end

section
/-!
PROOFS. Accesses within one line (Table 14.1): what lies in the line of an address lies in one region of the map, so none of its
bytes belongs to a session slot if the first does not.
-/

namespace Sys2Proof.Machine

/-- The place in its line that an address keeps which its home resolves further (R331). -/
def offsetAt (via : Via) (addr : W64) (r : Nat) : Prop :=
  match via with
  | .lot _ _ | .remote _ => addr.toNat % 128 = r
  | .phys | .copy _ => True

variable {s : State} {h : Home} {i r : Nat}

theorem isSession_within {a : Nat} (hi : a % 128 + i < 128) (h : isSession a = false) : isSession (a + i) = false := by
  rw [Bool.eq_false_iff, ne_eq, isSession_iff] at *
  omega

/-! ### Homes -/

theorem lotPlace_offset (core n o : Nat) : lotPlace core n o % 128 = o % 128 := by
  unfold lotPlace
  omega

theorem homeLot_within {die : Nat} {job seq : BitVec 16} {o : Nat} (e : s.homeLot die job seq o = .ok h) (hi : o % 128 + i < 128)
    (hs : isSession h.place = false) : isSession (h.place + i) = false := by
  unfold State.homeLot State.lotHome at e
  split at e
  · cases e
  · split at e
    · cases e
    · split at e
      · cases e
      · split at e
        · cases e
          exact isSession_within (by rw [lotPlace_offset]; omega) hs
        · split at e
          next pa _ epa _ =>
            cases e
            exact isSession_of_hasMemory (hasMemory_of_plainAddr epa) (by omega)
          · cases e

/-! ### Translations -/

theorem lotAway_offset {die : Nat} {job : BitVec 16} {n o : Nat} {y : Xlat} (e : s.lotAway die job n o = some y) :
    offsetAt y.via y.addr r := by
  unfold State.lotAway at e
  split at e
  · cases e
  · split at e
    · cases e
    · obtain ⟨x, -, rfl⟩ := Option.map_eq_some_iff.mp e
      exact trivial

theorem resolve_offset {u : Use} {leaf : Nat} {va addr : W64} {p : BitVec 15} {via : Via}
    (e : s.resolve u leaf va = .ok (p, via, addr)) : offsetAt via addr (va.toNat % 128) := by
  have low : (BitVec.ofNat 64 (va.toNat % 2 ^ 26)).toNat % 128 = va.toNat % 128 := by
    rw [BitVec.toNat_ofNat]
    omega
  unfold State.resolve at e
  dsimp only at e
  repeat' split at e
  all_goals cases e
  exacts [trivial, low, trivial, trivial, rfl]

/-- A translation keeps the place in its line of what it leaves to its home to resolve. -/
theorem translate_offset {w : Who} {u : Use} {va : W64} {n : Nat} {y : Xlat} (e : s.translate w u va n = .ok y) :
    offsetAt y.via y.addr (va.toNat % 128) := by
  have away {b : Prop} [Decidable b] {job : BitVec 16} {k o : Nat} {x : Xlat}
      (h : (if b then s.lotAway w.die job k o else none) = some x) : offsetAt x.via x.addr (va.toNat % 128) := by
    split at h
    · exact lotAway_offset h
    · cases h
  unfold State.translate at e
  split at e
  next window =>
    have low : (BitVec.ofNat 64 ((va.toNat - lotBase) % 0x4000000)).toNat % 128 = va.toNat % 128 := by
      have := of_decide_eq_true (Bool.and_eq_true_iff.mp window).1
      rw [BitVec.toNat_ofNat]
      unfold lotBase at *
      omega
    split at e
    · cases e
    · dsimp only at e
      split at e
      · split at e
        next x found =>
          cases e
          split at found
          · cases found
          · exact lotAway_offset found
        · cases e
      · split at e <;> cases e
        exact low
  · split at e
    · cases e
    · dsimp only at e
      iterate 4
        split at e
        · cases e
      split at e
      · cases e
      next resolved =>
        split at e
        · cases e
        · split at e <;> cases e
          next x found =>
            split at found
            · exact (away found :)
            · cases found
          next => exact resolve_offset resolved

/-- The bytes after an address in its line are in no session slot if its own is in none. -/
theorem homeOf_within {die : Nat} {sup : Bool} {u : Use} {y : Xlat} (e : s.homeOf die sup u y.via y.addr = .ok h)
    (ha : offsetAt y.via y.addr r) (hi : r + i < 128) (hs : isSession h.place = false) : isSession (h.place + i) = false := by
  have line : i < 128 := by omega
  cases via : y.via with
  | phys => exact homeOf_line e (by rw [via]; trivial) hs line
  | copy bits => exact homeOf_line e (by rw [via]; trivial) hs line
  | lot job seq =>
    rw [via] at e ha
    exact homeLot_within e (by rw [ha]; exact hi) hs
  | remote asid =>
    rw [via] at e ha
    unfold State.homeOf at e
    dsimp only at e
    split at e
    · cases e
    next x ex =>
      have hx := translate_offset ex
      split at e
      · cases e
      · split at e
        next => exact homePhys_line e hs line
        next xvia =>
          rw [xvia] at hx
          exact homeLot_within e (by rw [hx, ha]; exact hi) hs
        · cases e
        · cases e

end Sys2Proof.Machine
end

section
/-!
PROOFS. Gathers (R130): each active lane reads its word at its home, one after another.
-/

namespace Sys2Proof.Machine

open Sys2Proof.Claims

variable {s : State}

/-! ### Lanes of a vector -/

theorem packNat_lt {w : Nat} {f : Nat → Nat} (hf : ∀ i, f i < 2 ^ w) (n : Nat) : packNat w f n < 2 ^ (w * n) := by
  induction n with
  | zero => simp [packNat]
  | succ n ih =>
    calc packNat w f (n + 1) < 2 ^ (w * n) + f n * 2 ^ (w * n) := Nat.add_lt_add_right ih _
      _ = (f n + 1) * 2 ^ (w * n) := by ring
      _ ≤ 2 ^ w * 2 ^ (w * n) := Nat.mul_le_mul_right _ (hf n)
      _ = 2 ^ (w * (n + 1)) := by rw [← Nat.pow_add]; congr 1; ring

/-- Digit l of a packed number. -/
theorem packNat_digit {w : Nat} {f : Nat → Nat} (hf : ∀ i, f i < 2 ^ w) {l n : Nat} (hl : l < n) :
    packNat w f n / 2 ^ (w * l) % 2 ^ w = f l := by
  induction n with
  | zero => cases hl
  | succ n ih =>
    rw [packNat]
    rcases Nat.lt_succ_iff_lt_or_eq.mp hl with below | rfl
    · obtain ⟨k, rfl⟩ := Nat.exists_eq_add_of_lt below
      have high : f (l + k + 1) * 2 ^ (w * (l + k + 1)) = 2 ^ (w * l) * (2 ^ w * (f (l + k + 1) * 2 ^ (w * k))) := by ring
      rw [high, Nat.add_mul_div_left _ _ (Nat.two_pow_pos _), Nat.add_mul_mod_self_left]
      exact ih below
    · rw [Nat.add_mul_div_right _ _ (Nat.two_pow_pos _), Nat.div_eq_of_lt (packNat_lt hf l), Nat.zero_add, Nat.mod_eq_of_lt (hf l)]

theorem toNat_ofNat_packNat {w n m : Nat} {f : Nat → Nat} (hf : ∀ i, f i < 2 ^ w) (hm : w * n = m) :
    (BitVec.ofNat m (packNat w f n)).toNat = packNat w f n := by
  subst hm
  rw [BitVec.toNat_ofNat, Nat.mod_eq_of_lt (packNat_lt hf n)]

theorem extractLsb'_ofLanes (f : Nat → W32) {l : Nat} (hl : l < 64) : (ofLanes f).extractLsb' (32 * l) 32 = f l := by
  have digits (i : Nat) : (f i).toNat < 2 ^ 32 := (f i).isLt
  apply BitVec.eq_of_toNat_eq
  rw [BitVec.extractLsb'_toNat, Nat.shiftRight_eq_div_pow, ofLanes, toNat_ofNat_packNat (n := 64) digits rfl, packNat_digit digits hl]

/-! ### Words of a list of lanes -/

/-- A piece within one line of this package's memory, which is full and unpoisoned (R120, R345). -/
theorem State.readPiece_within {p : Piece} {h : Home} {r : Nat} {go : List Byte → State → State} (hp : p.x.pkg = s.pkg) (hn : 0 < p.n)
    (hh : s.homeOf s.ctx.cdie.toNat s.ctx.sup .load p.x.via p.x.addr = .ok h) (ha : offsetAt p.x.via p.x.addr r) (hr : r + p.n ≤ 128)
    (hf : s.feFull h.fe = true) (hs : isSession h.place = false) (hc : s.poisoned h.place p.n = false) :
    s.readPiece p (List.replicate p.n none) go =
      go ((List.range p.n).map (fun i => Memory.read s.mem (h.place + i))) (noted s p.x h) := by
  have unread : ¬ (List.replicate p.n (none : Option Byte)).all Option.isSome = true := by
    simp [List.all_replicate, hn.ne']
  have absent (i : Nat) : (List.replicate p.n (none : Option Byte))[i]?.getD none = none := by
    rw [List.getElem?_replicate]
    split <;> rfl
  have bytes : (List.range p.n).map (fun i => s.byteAt (h.place + i)) =
      (List.range p.n).map (fun i => Memory.read s.mem (h.place + i)) := by
    refine List.map_congr_left (fun i hi => ?_)
    rw [State.byteAt, homeOf_within hh ha (Nat.lt_of_lt_of_le (Nat.add_lt_add_left (List.mem_range.mp hi) r) hr) hs]
    rfl
  have clean := find?_poisoned hc (fun _ => !isSession h.place)
  unfold State.readPiece
  rw [if_neg unread, if_pos hp, hh]
  simp only [hf, absent, Option.isNone_none, Bool.true_and, Option.getD_none, clean, bytes]
  rfl

section
variable (on : Nat → Bool) (a : Nat → W64) (ys : Nat → Xlat) (hs : Nat → Home)

/-- The lanes from l on, n of them, that are active. -/
def lanesFrom (l n : Nat) : List Nat := (List.range' l n).filter on

/-- The state once the active lanes below l have been read. -/
def afterLanes (s : State) (l : Nat) : State := ((List.range l).filter on).foldl (fun u j => noted u (ys j) (hs j)) s

/-- The piece of a lane. -/
def lanePiece (l : Nat) : Piece := ⟨a l, 4, ys l⟩

/-- The word at the home of a lane. -/
def laneBytes (s : State) (l : Nat) : List Byte := (List.range 4).map (fun i => Memory.read s.mem ((hs l).place + i))

theorem afterLanes_noted (s : State) (l : Nat) : Noted s (afterLanes on ys hs s l) := Noted.foldl (fun u _ => noted_noted u _ _) _ s

theorem afterLanes_succ (s : State) (l : Nat) :
    afterLanes on ys hs s (l + 1) =
      if on l then noted (afterLanes on ys hs s l) (ys l) (hs l) else afterLanes on ys hs s l := by
  rw [afterLanes, List.range_succ, List.filter_append, List.foldl_append, List.filter_singleton]
  cases on l <;> rfl

theorem lanesFrom_succ (l n : Nat) :
    lanesFrom on l (n + 1) = if on l then l :: lanesFrom on (l + 1) n else lanesFrom on (l + 1) n := by
  rw [lanesFrom, List.range'_succ, List.filter_cons]
  rfl

/-- Each active lane reads its word in the state that the lanes before it have left. -/
theorem readPieces_lanes {s s' : State} (first : Noted s s') {l n : Nat} {go : List (List Byte) → State → State}
    (load : ∀ k, l ≤ k → k < l + n → on k = true →
      (a k).toNat % 4 = 0 ∧ loadable s (afterLanes on ys hs s' k) .load (a k) 4 (ys k) (hs k)) :
    (afterLanes on ys hs s' l).readPieces (unforwarded ((lanesFrom on l n).map (lanePiece a ys))) go =
      go ((lanesFrom on l n).map (laneBytes hs s)) (afterLanes on ys hs s' (l + n)) := by
  have inLine {a : Nat} (h : a % 4 = 0) : a % 128 + 4 ≤ 128 := by omega
  induction n generalizing l go with
  | zero => rfl
  | succ n ih =>
    have rest {go} := ih (l := l + 1) (go := go) (fun k hl hk => load k (by omega) (by omega))
    rw [Nat.add_assoc, Nat.add_comm 1 n, afterLanes_succ] at rest
    rw [lanesFrom_succ]
    cases active : on l with
    | false => simpa [active] using rest
    | true =>
      obtain ⟨aligned, tr, near, home, full, place, clean⟩ := load l le_rfl (by omega) active
      have same : Noted s (afterLanes on ys hs s' l) := first.trans (afterLanes_noted on ys hs s' l)
      have word := State.readPiece_within (s := afterLanes on ys hs s' l) (p := lanePiece a ys l)
        (go := fun bs t => t.readPieces (unforwarded ((lanesFrom on (l + 1) n).map (lanePiece a ys))) (fun bss t => go (bs :: bss) t))
        (near.trans same.pkg.symm) (Nat.succ_pos 3) (by rw [same.ctx]; exact home) (translate_offset tr) (inLine aligned) full place clean
      refine word.trans ?_
      rw [active, if_pos rfl] at rest
      rw [same.mem]
      exact rest

theorem translateAll_lanes {u : Use} {ls : List Nat} (h : ∀ l ∈ ls, s.translate s.me u (a l) 4 = .ok (ys l)) :
    s.translateAll s.me u (ls.map (fun l => (a l, 4))) = .ok (ls.map (fun l => (a l, 4, ys l))) := by
  induction ls with
  | nil => rfl
  | cons l ls ih =>
    rw [List.map_cons, State.translateAll, h l List.mem_cons_self, ih (fun k hk => h k (List.mem_cons_of_mem l hk))]
    rfl

theorem toPieces_lanes (ls : List Nat) : toPieces (ls.map (fun l => (a l, 4, ys l))) = ls.map (lanePiece a ys) := by
  rw [toPieces, List.map_map]
  rfl

theorem va_lanePiece (ls : List Nat) : (ls.map (lanePiece a ys)).map Piece.va = ls.map a := by
  rw [List.map_map]
  rfl

theorem fst_lanes (ls : List Nat) : (ls.map (fun l => (l, a l))).map Prod.fst = ls := by
  rw [List.map_map]
  exact List.map_id _

theorem mem_lanesFrom {l : Nat} : l ∈ lanesFrom on 0 64 ↔ l < 64 ∧ on l = true := by
  simp [lanesFrom]

theorem filter_range_lanes : (List.range 64).filter on = lanesFrom on 0 64 := by
  rw [List.range_eq_range']
  rfl

theorem aligned_lanes {ls : List Nat} (h : ∀ l ∈ ls, (a l).toNat % 4 = 0) :
    (ls.map (fun l => (l, a l))).find? (fun l => l.2.toNat % 4 ≠ 0) = none := by
  rw [List.find?_eq_none]
  intro x hx
  obtain ⟨l, hl, rfl⟩ := List.mem_map.mp hx
  simpa using h l hl

/-- The lanes that a gather writes: the word that was read for a lane, or the old lane. -/
def gathered (lanes : List Nat) (words : List (List Byte)) (old : Vec) (l : Nat) : W32 :=
  match (lanes.zip words).find? (fun g => g.1 = l) with
  | some g => BitVec.ofNat 32 (ofBytes g.2)
  | none => lane old l

/-- What `vgath` does with the words that it reads. -/
def State.takeWords (s : State) (d : BitVec 6) (lanes : List Nat) (words : List (List Byte)) : State :=
  s.wv d.toNat { s.src.rv d.toNat with
    val := ofLanes (gathered lanes words (s.src.rv d.toNat).val), taint := (s.src.rv d.toNat).taint ||| 0 }

theorem gathered_lane {old : Vec} {l : Nat} (hl : l < 64) :
    gathered (lanesFrom on 0 64) ((lanesFrom on 0 64).map (laneBytes hs s)) old l =
      if on l then BitVec.ofNat 32 (Memory.readLE s.mem (hs l).place 4) else lane old l := by
  have pairs : (lanesFrom on 0 64).zip ((lanesFrom on 0 64).map (laneBytes hs s)) =
      (lanesFrom on 0 64).map (fun l => (l, laneBytes hs s l)) := List.map_prod_left_eq_zip.symm
  have mem : l ∈ lanesFrom on 0 64 ↔ on l = true := (mem_lanesFrom on).trans (and_iff_right hl)
  have find : ((lanesFrom on 0 64).map (fun l => (l, laneBytes hs s l))).find? (fun g => g.1 = l) =
      ((lanesFrom on 0 64).find? (fun k => k = l)).map (fun l => (l, laneBytes hs s l)) := List.find?_map
  unfold gathered
  rw [pairs, find]
  cases active : on l with
  | false =>
    rw [List.find?_eq_none.mpr (fun k hk => by simpa using fun e : k = l => by rw [e, mem, active] at hk; cases hk)]
    rfl
  | true =>
    have found : ((lanesFrom on 0 64).find? (fun k => k = l)).isSome := by
      rw [List.find?_isSome]
      exact ⟨l, mem.mpr active, decide_eq_true rfl⟩
    obtain ⟨k, hk⟩ := Option.isSome_iff_exists.mp found
    obtain rfl : k = l := of_decide_eq_true (List.find?_some (p := fun k => k = l) hk)
    rw [hk]
    exact congrArg (BitVec.ofNat 32) (ofBytes_read s.mem (hs k).place 4)

end

/-- A gather from this package's memory, with no store on its way (R130). -/
theorem execVgath_reads {d v : BitVec 6} {b k : BitVec 3} {ys : Nat → Xlat} {hs : Nat → Home} (hn : noStores s)
    (hd : d.toNat < 56) (hv : v.toNat < 56) (htag : (s.src.rv v.toNat).tag = 5) (hm : (s.src.rv v.toNat).taint = 0)
    (hb : (s.rb b).taint = 0) (hk : (s.rk k).taint = 0) (hc : s.src.ctaint = 0) :
    let on (l : Nat) : Bool := (s.rk k).val.getLsbD l
    let a (l : Nat) : W64 := laneAddr (s.rb b).val (s.src.rv v.toNat).val l
    let s' := s.touchAll s.me (((List.range 64).filter on).map a)
    (∀ l < 64, on l = true → (a l).toNat % 4 = 0 ∧ loadable s (afterLanes on ys hs s' l) .load (a l) 4 (ys l) (hs l)) →
    execVgath d b v k s = .next ((afterLanes on ys hs s' 64).wv d.toNat { s.src.rv d.toNat with
      val := ofLanes (gathered (lanesFrom on 0 64) ((lanesFrom on 0 64).map (laneBytes hs s)) (s.src.rv d.toNat).val) }) := by
  intro on a s' load
  have lanes : (List.range 64).filter on = lanesFrom on 0 64 := filter_range_lanes on
  have active {l : Nat} (h : l ∈ lanesFrom on 0 64) := load l ((mem_lanesFrom on).mp h).1 ((mem_lanesFrom on).mp h).2
  have addrs : laneAddrs (s.rb b).val (s.src.rv v.toNat).val (s.rk k).val = (lanesFrom on 0 64).map (fun l => (l, a l)) := by
    rw [← lanes]
    rfl
  have untainted : (s.rb b).taint ||| (s.src.rv v.toNat).taint ||| (s.rk k).taint = 0 := by rw [hb, hm, hk]; rfl
  have first : Noted s s' := s.touchAll_noted _ _
  have all : Noted s (afterLanes on ys hs s' 64) := first.trans (afterLanes_noted on ys hs s' 64)
  have start : s.touchAll s.me ((lanesFrom on 0 64).map a) = afterLanes on ys hs s' 0 := by
    rw [← lanes]
    rfl
  unfold execVgath
  rw [if_neg (by simp; omega), State.mslot_plain _ hn untainted hc, State.lanesOf, addrs]
  dsimp only
  rw [if_neg (not_not_intro htag), aligned_lanes a (fun _ h => (active h).1)]
  dsimp only
  rw [State.checked, List.map_map, Function.comp_def, translateAll_lanes a ys (fun _ h => (active h).2.1)]
  dsimp only
  rw [State.loadPieces_of_noStores hn, toPieces_lanes, va_lanePiece, fst_lanes, start]
  refine congrArg Host.Outcome.next ((readPieces_lanes on a ys hs first (l := 0) (n := 64)
    (go := fun bss t => t.takeWords d (lanesFrom on 0 64) bss) (fun k _ hk => load k (by omega))).trans ?_)
  rw [Nat.zero_add, State.takeWords, all.src, show ∀ m : Mask, m ||| 0 = m from fun _ => BitVec.or_zero]

/-- Settles O20: the lanes are read at their homes in order, and their words replace the lanes of the destination. -/
theorem gather : Obligations.Gather := by
  unfold Obligations.Gather
  intro s d b v k ys hs hn hd hv htag hm hb hk hc on a s' before load
  refine ⟨_, writesV_of_eq hd (execVgath_reads hn hd hv htag hm hb hk hc load), fun l hl => ?_⟩
  rw [extractLsb'_ofLanes _ hl, gathered_lane _ _ hl]
  rfl

end Sys2Proof.Machine
end

section
/-!
PROOFS. What caches a translation (R333) does not look at the g registers of the executing sequencer, at the full/empty bits of
scratchpad lines or at what waits there, and leaves them.
-/

namespace Sys2Proof.Machine

open Sys2Proof.Claims

/-- The state with other g registers of the executing sequencer, other empty lines and other waiting `ldfe`s. -/
def State.consumed (s : State) (g : Vector (TReg 32) 32) (es : List Nat) (w : List (FeRef × BitVec 15 × BitVec 24)) : State :=
  { s with ctx := { s.ctx with g := g }, empties := es, ldfeQueue := w }

section
variable {s : State} {g : Vector (TReg 32) 32} {es : List Nat} {w : List (FeRef × BitVec 15 × BitVec 24)}

theorem walkFrom_consumed {va : W64} {l : List Nat} {table : W64} : walkFrom (s.consumed g es w) va l table = walkFrom s va l table := by
  induction l generalizing table with
  | nil => rfl
  | cons sh rest ih => simp only [walkFrom, ih]; rfl

theorem walkPlaces_consumed {va : W64} {l : List Nat} {table : W64} :
    walkPlaces (s.consumed g es w) va l table = walkPlaces s va l table := by
  induction l generalizing table with
  | nil => rfl
  | cons sh rest ih => simp only [walkPlaces, ih]; rfl

theorem State.walk_consumed (die : Nat) (asid : BitVec 8) (va : W64) : (s.consumed g es w).walk die asid va = s.walk die asid va := by
  simp only [State.walk, walkFrom_consumed]; rfl

theorem State.plainAddr_consumed (die : Nat) (asid : BitVec 8) (va : W64) :
    (s.consumed g es w).plainAddr die asid va = s.plainAddr die asid va := by
  simp only [State.plainAddr, State.leafFor, State.walk_consumed]; rfl

/-- A test that does not look at g registers finds the same sequencer, but for them. -/
theorem State.find?_consumed (p : Seqr → Bool) (hp : p (s.consumed g es w).ctx = p s.ctx) :
    (s.consumed g es w).allSeqs.find? p = s.allSeqs.find? p ∨
      (s.consumed g es w).allSeqs.find? p = some (s.consumed g es w).ctx ∧ s.allSeqs.find? p = some s.ctx := by
  rw [State.allSeqs, State.allSeqs, List.find?_cons, List.find?_cons, hp]
  cases p s.ctx
  · exact .inl rfl
  · exact .inr ⟨rfl, rfl⟩

theorem State.lotHome_consumed (die : Nat) (j : Job) (k n o : Nat) : (s.consumed g es w).lotHome die j k n o = s.lotHome die j k n o := by
  simp only [State.lotHome, State.plainAddr_consumed]
  rcases State.find?_consumed (s := s) (g := g) (es := es) (w := w) (fun q => q.job = j.num && q.index.toNat = k && q.handle ≠ 0 &&
    ((q.isResident && decide (q.savedLots ≤ n)) || q.restoring.any (fun k => decide (n < k)))) rfl with h | ⟨h, h'⟩
  · rw [h]
  · rw [h, h']; rfl

theorem State.walked_consumed (m : Who) (va : W64) : (s.consumed g es w).walked m va = s.walked m va := by
  simp only [State.walked, State.lotHome_consumed]; rfl

theorem State.countRemote_consumed (a : Nat) (pkg : BitVec 15) (die : Nat) :
    (s.consumed g es w).countRemote a pkg die = (s.countRemote a pkg die).consumed g es w := by
  unfold State.countRemote
  split
  next far => exact (if_pos far).symm ▸ rfl
  next near => exact (if_neg near).symm ▸ rfl

/-- What each step of a fold does alike with and without the other parts, the fold does. -/
theorem State.foldl_consumed {α : Type} {f : State → α → State} (step : ∀ s a, f (s.consumed g es w) a = (f s a).consumed g es w)
    (l : List α) (s : State) : l.foldl f (s.consumed g es w) = (l.foldl f s).consumed g es w := by
  induction l generalizing s with
  | nil => rfl
  | cons a l ih => rw [List.foldl_cons, step, ih]; rfl

theorem State.touchPage_consumed (s : State) (m : Who) (va : W64) :
    (s.consumed g es w).touchPage m va = (s.touchPage m va).consumed g es w := by
  have counted : (s.consumed g es w).countWalk m.die m.asid va = (s.countWalk m.die m.asid va).consumed g es w := by
    simp only [State.countWalk, walkPlaces_consumed]
    exact State.foldl_consumed (fun s a => State.countRemote_consumed (s := s) _ _ _) _ _
  have units : (s.consumed g es w).tu m.die = s.tu m.die := rfl
  have time : (s.consumed g es w).ptime = s.ptime := rfl
  simp only [State.touchPage, State.walk_consumed, counted, units, time]
  cases cacheFind s.ptime m.asid va (s.tu m.die).cache []
  · cases s.walk m.die m.asid va <;> rfl
  · rfl

theorem State.touch_consumed (s : State) (m : Who) (va : W64) : (s.consumed g es w).touch m va = (s.touch m va).consumed g es w := by
  rw [State.touch, State.walked_consumed]
  exact State.foldl_consumed (fun s a => s.touchPage_consumed m a) _ _

theorem noted_consumed (s : State) (y : Xlat) (h : Home) : noted (s.consumed g es w) y h = (noted s y h).consumed g es w := by
  have touched : (s.consumed g es w).touchVia y.via y.addr = (s.touchVia y.via y.addr).consumed g es w := by
    cases via : y.via with
    | remote asid => exact s.touch_consumed _ _
    | _ => rfl
  rw [noted, touched]
  exact State.countRemote_consumed _ _ _

end

end Sys2Proof.Machine
end

section
/-!
PROOFS. The consuming load and the reading of a full/empty bit (R135, R137).
-/

namespace Sys2Proof.Machine

open Sys2Proof.Claims

variable {s t : State} {a : W64} {y : Xlat} {h : Home} {line : Nat}

theorem Noted.ldfeQueue (h : Noted s t) : t.ldfeQueue = s.ldfeQueue := by obtain ⟨_, _, rfl⟩ := h; rfl

/-! ### The bit and the turn -/

theorem feFull_line : s.feFull (some (.line line)) = true ↔ line ∉ s.empties := by
  simp [State.feFull]

/-- An `ldfe` is the first at its line if no other waits there before it (R137). -/
theorem ldfeFirst_iff {f : FeRef} {p : BitVec 15} {k : BitVec 24} :
    s.ldfeFirst f p k = true ↔ ∀ e, s.ldfeQueue.find? (fun e => e.1 = f) = some e → e.2 = (p, k) := by
  unfold State.ldfeFirst
  cases s.ldfeQueue.find? (fun e => e.1 = f) <;> simp

theorem fePlace_home {u : Use} (hp : y.pkg = s.pkg) (hh : s.homeOf s.ctx.cdie.toNat s.ctx.sup u y.via y.addr = .ok h)
    (hf : h.fe = some (.line line)) (go : Option Home → State → State) : s.fePlace u a y go = go (some h) s := by
  unfold State.fePlace
  rw [if_pos hp, hh]
  dsimp only
  rw [hf]
  rfl

/-! ### A register written before its access is counted -/

theorem noted_wg (s : State) (y : Xlat) (h : Home) (d : BitVec 5) (v : W32) (m : Mask) :
    noted (s.wg d v m) y h = (noted s y h).wg d v m := by
  obtain ⟨_, _, e⟩ := noted_noted s y h
  have := noted_consumed (g := s.ctx.g.setIfInBounds d.toNat { val := v, taint := m }) (es := s.empties) (w := s.ldfeQueue) s y h
  unfold State.wg
  split
  · rfl
  · rw [e] at *
    exact this

/-- The word, the empty line and the end of the wait are parts of the state that `State.consumed` sets. -/
theorem consume_eq {d : BitVec 5} {v : W32} {m : Mask} {p : BitVec 15} {k : BitVec 24} :
    ((s.wg d v m).feSet false (some (.line line))).leaveLdfe p k =
      s.consumed (s.wg d v m).ctx.g ((s.wg d v m).feSet false (some (.line line))).empties (s.leaveLdfe p k).ldfeQueue := by
  have frame := s.wg_frame d v m
  generalize s.wg d v m = t at *
  have marked := feSet_line (s := t) (full := false) (line := line)
  generalize t.feSet false (some (.line line)) = u at *
  rw [marked, frame]
  rfl

/-! ### `fecheck` -/

section
variable {d : BitVec 5} {b : BitVec 3} {x : BitVec 5} (hn : noStores s) (hx : plainAddress s b x) (hf : h.fe = some (.line line))
include hn hx hf

theorem execFecheck_reads :
    let c := byteAddress s b x
    let u := s.touchAll s.me [c]
    s.translate s.me .load c 1 = .ok y → y.pkg = s.pkg → u.homeOf s.ctx.cdie.toNat s.ctx.sup .load y.via y.addr = .ok h →
    execFecheck d b x s = .next ((noted u y h).wg d (if line ∈ s.empties then 0 else 1) 0) := by
  intro c u ht hp hh
  have same : Noted s u := s.touchAll_noted _ _
  have bit : (if u.feFull h.fe then 1 else 0 : W32) = if line ∈ s.empties then 0 else 1 := by
    rw [hf, if_congr feFull_line rfl rfl, same.empties, ite_not]
  unfold execFecheck
  rw [State.mslot_plain _ hn (sysMask_plain hx) hx.2.2]
  dsimp only
  rw [show s.eaSys b x = c from rfl, State.checked_one ht]
  dsimp only
  rw [fePlace_home (hp.trans same.pkg.symm) (by rw [same.ctx]; exact hh) hf]
  dsimp only
  rw [bit]
  exact congrArg Host.Outcome.next (noted_wg u y h d _ 0)

end

/-! ### `ldfe` -/

/-- What an `ldfe` does at a home of this package (R137). -/
def State.consumeAt (s : State) (d : BitVec 5) (a : W64) (y : Xlat) (h : Home) : State :=
  if (s.frameOf h).isSome then s.stall .reply
  else if !s.feFull h.fe || !(h.fe.elim true (fun f => s.ldfeFirst f s.pkg s.ctx.handle)) then s.stall (.consume a)
  else if s.poisoned h.place 4 then s.raise cPoison a
  else
    noted (((s.wg d (BitVec.ofNat 32 (s.readLE h.place 4)) 0).feSet false h.fe).leaveLdfe s.pkg s.ctx.handle) y h

section
variable {d : BitVec 5} {b : BitVec 3} {x : BitVec 5} {i : BitVec 6} (hn : noStores s) (hx : plainAddress s b x)
  (hf : h.fe = some (.line line))
include hn hx hf

theorem execLdfe_consumes :
    let a := address s b x i 4
    let s' := s.touchAll s.me [a]
    a.toNat % 4 = 0 → s.translate s.me .bit a 4 = .ok y → y.pkg = s.pkg →
    s'.homeOf s.ctx.cdie.toNat s.ctx.sup .bit y.via y.addr = .ok h → execLdfe d b x i s = .next (s'.consumeAt d a y h) := by
  intro a s' ha ht hp hh
  have same : Noted s s' := s.touchAll_noted _ _
  have clear := same.noStores hn
  unfold execLdfe
  rw [State.mslot_plain _ hn (addrMask_plain hx) hx.2.2]
  dsimp only
  rw [ea_eq_address, if_neg (not_not_intro ha), State.checked_one ht]
  dsimp only
  rw [fePlace_home (hp.trans same.pkg.symm) (by rw [same.ctx]; exact hh) hf]
  dsimp only
  rw [ownOverlap_of_noStores clear, taggedOver_of_noStores clear]
  rfl

end

theorem consumeAt_waits {d : BitVec 5} (hf : h.fe = some (.line line)) (hfr : s.frameOf h = none)
    (hw : line ∈ s.empties ∨ ¬ s.ldfeFirst (.line line) s.pkg s.ctx.handle = true) :
    s.consumeAt d a y h = s.stall (.consume a) := by
  have waits : (!s.feFull h.fe || !(h.fe.elim true (fun f => s.ldfeFirst f s.pkg s.ctx.handle))) = true := by
    simpa [hf, State.feFull] using hw
  rw [State.consumeAt, hfr, if_neg (by simp), if_pos waits]

theorem consumeAt_takes {d : BitVec 5} (hf : h.fe = some (.line line)) (hfr : s.frameOf h = none) (hfull : s.feFull h.fe = true)
    (hfirst : s.ldfeFirst (.line line) s.pkg s.ctx.handle = true) (hc : s.poisoned h.place 4 = false) :
    let t := s.wg d (BitVec.ofNat 32 (s.readLE h.place 4)) 0
    s.consumeAt d a y h = (noted s y h).consumed t.ctx.g (t.feSet false (some (.line line))).empties
      (s.leaveLdfe s.pkg s.ctx.handle).ldfeQueue := by
  intro t
  have goes : ¬ (!s.feFull h.fe || !(h.fe.elim true (fun f => s.ldfeFirst f s.pkg s.ctx.handle))) = true := by
    rw [hfull, hf]
    simp [hfirst]
  rw [State.consumeAt, hfr, if_neg (by simp), if_neg goes, hc, if_neg Bool.false_ne_true, hf, consume_eq, noted_consumed]

/-- Settles O21: an `ldfe` waits or takes its word, and `fecheck` writes the bit; counting the access changes neither. -/
theorem fullEmptyReads : Obligations.FullEmptyReads := by
  unfold Obligations.FullEmptyReads
  intro s d b x i h line y hn hx hf a s' c first
  have same : Noted s s' := s.touchAll_noted _ _
  have turn : s'.ldfeFirst (.line line) s'.pkg s'.ctx.handle = true ↔ first := by
    rw [ldfeFirst_iff, same.ldfeQueue, same.pkg, same.ctx]
  refine ⟨fun ha hl hfr hfirst => ?takes, fun ha ht hp hfr hh hw => ?waits, fun ht hp hh =>
    writesG_of_eq (execFecheck_reads hn hx hf ht hp hh)⟩
  case takes =>
    obtain ⟨ht, hp, hh, hfull, -, hc⟩ := hl
    have e := (execLdfe_consumes (d := d) hn hx hf ha ht hp hh).trans
      (congrArg Host.Outcome.next (consumeAt_takes hf hfr hfull (turn.mpr hfirst) hc))
    have queue : (s'.leaveLdfe s'.pkg s'.ctx.handle).ldfeQueue =
        s.ldfeQueue.filter (fun e => e.2.1 ≠ s.pkg ∨ e.2.2 ≠ s.ctx.handle) := by
      rw [State.leaveLdfe, same.ldfeQueue, same.pkg, same.ctx]
      refine List.filter_congr (fun e _ => decide_eq_decide.mpr ?_)
      rw [ne_eq, Prod.ext_iff, not_and_or]
    refine ⟨_, e, fun n => ?_, fun l => ?_, ?_⟩
    · exact (State.rg_wg s' d n _ 0).trans (by rw [State.readLE, same.mem, same.ctx])
    · exact mem_empties_feSet_empty.trans (by rw [State.wg_empties, same.empties])
    · rw [queue]
      rfl
  case waits =>
    refine (execLdfe_consumes hn hx hf ha ht hp hh).trans (congrArg Host.Outcome.next (consumeAt_waits hf hfr ?_))
    rwa [turn, same.empties]

end Sys2Proof.Machine
end

section
/-!
PROOFS. A sync word and a store on its way, in states whose memory is not in canonical form.
-/

namespace Sys2Proof.Machine

open Sys2Proof.Claims

theorem listedTwice_syncWord :
    let a := byteAddress listedTwice 1 0
    let s' := listedTwice.touchAll listedTwice.me [a]
    a.toNat % 16 = 0 ∧ listedTwice.translate listedTwice.me .store a 16 = .ok firstOfLot ∧ firstOfLot.pkg = listedTwice.pkg ∧
      s'.homeOf listedTwice.ctx.cdie.toNat listedTwice.ctx.sup .store firstOfLot.via firstOfLot.addr = .ok lotHome ∧
      hasMemory lotHome.place = true ∧ s'.migrationAt lotHome.place = none ∧ s'.poisoned lotHome.place 12 = false := by
  decide +kernel

/-- `swarm` with a target of 0 removes one of the two cells; the other one still shows. -/
theorem listedTwice_swarm : byteAfter (2 ^ 45) (exec (.swarm 0 1 0) listedTwice) = some 5 := by decide +kernel

/-- Refutes O28, as O22 is refuted: the statement does not ask for memory in canonical form (log entry 3). -/
theorem not_syncWords : ¬ Obligations.SyncWords := by
  unfold Obligations.SyncWords
  intro h
  obtain ⟨hn, ha, hg, -⟩ := listedTwice_plain
  obtain ⟨aligned, tr, near, home, mem, still, clean⟩ := listedTwice_syncWord
  obtain ⟨hswarm, -⟩ := h listedTwice 0 1 0 firstOfLot lotHome 0 hn ha hg
  obtain ⟨t, e, hread, -⟩ := hswarm aligned tr near home mem still clean
  have five := listedTwice_swarm
  rw [e, byteAfter, hread (2 ^ 45)] at five
  revert five
  decide +kernel

/-- A zero byte on its way to the first byte of the HBM of die 0. -/
def zeroByte : Part :=
  { pkg := 0, die := 0, via := .phys, addr := 0, va := 0, exp := 0, effects := [.byte 0 0], st := .waiting }

/-- Its store, in the Curb of die 0, released. -/
def zeroStore : CurbEntry :=
  { num := 0, handle := 0, job := 0, asid := 0, sup := false, kind := .plain, sc := false, stream := 0, seqno := 0, group := none
    offset := 0, released := some 0, order := 0, parts := [zeroByte] }

/-- The store is on its way in a memory that lists its byte twice: it is not in canonical form. -/
def storeToListedTwice : State :=
  { State.reset with mem := [(0, 5), (0, 5)], dies := [(0, { Die.reset with curb := [zeroStore] })] }

/-- The home of the byte. -/
def zeroHome : Home := { place := 0, fe := none }

/-- A request of another package that asks for nothing. -/
def noRequest : ExtRequest :=
  { port := 0, vc := 0, srcPkg := 0, handle := 0, job := 0, sup := false, stream := 0, seqno := 0, pred := none, of := 0, srcDie := 0
    tag := 0, unit := none, via := .phys, expiry := 0, effects := [] }

theorem storeToListedTwice_lands :
    lone storeToListedTwice 0 zeroStore zeroByte ∧ untagged storeToListedTwice ∧ zeroByte.st = .waiting ∧
      landsAt storeToListedTwice 0 zeroStore zeroByte zeroHome ∧ zeroByte.effects = bytesFrom zeroByte.addr 1 0 := by
  unfold lone untagged landsAt settled; decide +kernel

/-- The arrival of the store removes one of the two cells; the other one still shows. -/
theorem storeToListedTwice_arrives :
    byteAfter 0 (exec (.storeArrive (.curb 0 zeroStore.num 0)) storeToListedTwice) = some 5 := by decide +kernel

/-- Refutes O58, as O22 is refuted: the clause on a store that arrives does not ask for memory in canonical form (log entry 3). -/
theorem not_memoryEvents : ¬ Obligations.MemoryEvents := by
  unfold Obligations.MemoryEvents storeEvents
  rintro ⟨h, -⟩
  obtain ⟨hlone, hun, hst, hland, heff⟩ := storeToListedTwice_lands
  obtain ⟨-, -, harrive, -⟩ :=
    h storeToListedTwice 0 .again .blank [] [] 0 1 0 0 zeroStore zeroByte zeroHome 0 0 0 0 firstOfLot (mkRec 0 0 0 0 0 0)
      { num := 0, die := 0, slot := none, work := .outside noRequest } noRequest 0
  obtain ⟨t, e, hread, -⟩ := harrive hlone hun hst hland heff (by decide) (by decide)
  have five := storeToListedTwice_arrives
  rw [e, byteAfter, hread 0] at five
  revert five
  decide +kernel

end Sys2Proof.Machine
end

section
/-!
PROOFS. Feed ports (R140, R141, R290, R292).
-/

namespace Sys2Proof.Machine

open Sys2Proof.Claims

variable {s : State} {p : BitVec 3} {x : BitVec 5} {e : BitVec 8 × W64}

theorem setsPort_of_eq {f : FeedPort → FeedPort} {o : Out} (h : o = .next (s.modFeed p.toNat f)) :
    setsPort s p (f (s.ctx.port p.toNat)) o :=
  ⟨_, h, fun q _ => State.port_modFeed f p.isLt q, rfl⟩

/-! ### Binding -/

/-- A control word, a descriptor's header and the descriptor name no binding (R140, R292, Table 5.6). -/
def bindRefused (w header : Nat) (desc : Vector W64 8) : Prop :=
  let tag := w / 2 ^ 5 % 16
  let aux := w / 2 ^ 9 % 8
  w % 4 = 0 ∨ w % 4 = 3 ∨ 10 ≤ tag ∨ tag = 8 ∧ aux = 7 ∨ tag ≠ 8 ∧ aux ≠ 0 ∨ w / 2 ^ 12 ≠ 0 ∨
    descOk desc = false ∨ header / 2 ^ 8 % 16 ≠ tag ∨ header / 2 ^ 12 % 8 ≠ aux

/-- The port that they bind. -/
def boundPort (w header : Nat) (desc : Vector W64 8) : FeedPort :=
  { bind := BitVec.ofNat 2 (w % 4), tag := BitVec.ofNat 4 (w / 2 ^ 5 % 16), aux := BitVec.ofNat 3 (w / 2 ^ 9 % 8)
    swz := BitVec.ofNat 8 header, entries := [], walk := some (Walk.start desc), closing := false }

section
variable (hn : noStores s) (hx : (s.rg x).taint = 0) (hc : s.src.ctaint = 0)
include hn hx hc

/-- A port that is not closing is bound, or PORT is raised (R140, R292). -/
theorem execFbind_open (hf : (s.src.port p.toNat).closing = false) :
    let w := (s.rg x).val.toNat
    let desc := feedDescriptor s (w / 4 % 8)
    let header := (desc[0]?.getD 0).toNat
    ((s.src.port p.toNat).bind ≠ 0 ∨ bindRefused w header desc → execFbind p x s = .next (s.raise cPort 0)) ∧
      ((s.src.port p.toNat).bind = 0 → ¬ bindRefused w header desc →
        execFbind p x s = .next (s.modFeed p.toNat (fun _ => boundPort w header desc))) := by
  classical
  intro w desc header
  have mode : ctlField (s.rg x).val 0 2 = w % 4 := by rw [ctlField, pow_zero, Nat.div_one]; rfl
  have reserved : ctlField (s.rg x).val 12 20 = w / 2 ^ 12 := Nat.mod_eq_of_lt (by omega)
  have swz : BitVec.ofNat 8 (Walk.start desc).swz = BitVec.ofNat 8 header := by
    rw [Walk.swz, Walk.field, fieldOf, pow_zero, Nat.div_one]
    exact BitVec.eq_of_toNat_eq (by simp [header, Walk.start])
  have runs : execFbind p x s = .next (if (s.src.port p.toNat).bind ≠ 0 ∨ bindRefused w header desc then s.raise cPort 0
      else s.modFeed p.toNat (fun _ => boundPort w header desc)) := by
    unfold execFbind
    rw [State.mslot_plain _ hn hx hc]
    dsimp only
    rw [hf, if_neg Bool.false_ne_true, mode, reserved]
    refine congrArg Host.Outcome.next (if_congr ?_ rfl ?_)
    · simp only [Bool.or_eq_true, Bool.and_eq_true, decide_eq_true_eq, Bool.not_eq_true', or_assoc, bindRefused]
      rfl
    · rw [boundPort, ← swz]
      rfl
  exact ⟨fun h => runs.trans (by rw [if_pos h]),
    fun hb h => runs.trans (by rw [if_neg (not_or.mpr ⟨not_not_intro hb, h⟩)])⟩

/-- A port that was unbound with an entry still to be written is waited for (R140). -/
theorem execFbind_waits (hf : (s.src.port p.toNat).closing = true) (hw : (s.src.port p.toNat).walk.bind Walk.failed = none) :
    execFbind p x s = .next (s.stall (.drainPort p.toNat)) := by
  unfold execFbind
  rw [State.mslot_plain _ hn hx hc]
  dsimp only
  rw [if_pos hf, hw]

/-- The address at which that entry failed is raised (R292). -/
theorem execFbind_fails (hf : (s.src.port p.toNat).closing = true) (hw : (s.src.port p.toNat).walk.bind Walk.failed = some e) :
    execFbind p x s = .next (s.raise e.1 e.2) := by
  unfold execFbind
  rw [State.mslot_plain _ hn hx hc]
  dsimp only
  rw [if_pos hf, hw]

end

/-! ### Draining -/

section
variable {go : State → State}

theorem drained_fails (hw : (s.src.port p.toNat).walk.bind Walk.failed = some e) : s.drained p go = s.raise e.1 e.2 := by
  rw [State.drained, hw]

theorem drained_waits (hw : (s.src.port p.toNat).walk.bind Walk.failed = none) (he : (s.src.port p.toNat).entries ≠ []) :
    s.drained p go = s.stall (.drainPort p.toNat) := by
  rw [State.drained, hw]
  exact if_neg (by simpa using he)

theorem drained_goes (hw : (s.src.port p.toNat).walk.bind Walk.failed = none) (he : (s.src.port p.toNat).entries = []) :
    s.drained p go = go s := by
  rw [State.drained, hw]
  exact if_pos (by rw [he]; rfl)

end

/-- A drain port that no group has unbound. -/
def drains (f : FeedPort) : Prop := f.bind = 2 ∧ f.closing = false

/-- What `funbind` makes of a drain port whose entries from before its group are written (R141, R142). -/
def unboundPort (now : FeedPort) : FeedPort := if now.entries = [] then .zero else { now with closing := true }

section
variable (hn : noStores s) (hc : s.src.ctaint = 0)
include hn hc

theorem execFdrain_drains (hf : drains (s.src.port p.toNat)) : execFdrain p s = .next (s.drained p id) := by
  obtain ⟨hb, hcl⟩ := hf
  refine congrArg Host.Outcome.next ((State.mslot_plain _ hn rfl hc).trans (if_neg ?_))
  simp [hb, hcl]

theorem execFunbind_drains (hf : drains (s.src.port p.toNat)) :
    execFunbind p s = .next (s.drained p (fun s => s.modFeed p.toNat unboundPort)) := by
  obtain ⟨hb, hcl⟩ := hf
  unfold execFunbind
  rw [State.mslot_plain _ hn rfl hc]
  dsimp only
  rw [if_neg (by simp [hb]), if_pos (by simp [hb, hcl])]
  simp only [List.isEmpty_iff]
  rfl

theorem execFunbind_fill (hb : (s.src.port p.toNat).bind = 1) :
    execFunbind p s = .next (s.modFeed p.toNat (fun _ => .zero)) :=
  congrArg Host.Outcome.next ((State.mslot_plain _ hn rfl hc).trans (if_pos hb))

theorem execFdrain_refused (hf : ¬ drains (s.src.port p.toNat)) : execFdrain p s = .next (s.raise cPort 0) := by
  refine congrArg Host.Outcome.next ((State.mslot_plain _ hn rfl hc).trans (if_pos ?_))
  simpa [drains, or_iff_not_imp_left] using hf

theorem execFunbind_refused (hb : (s.src.port p.toNat).bind ≠ 1) (hf : ¬ drains (s.src.port p.toNat)) :
    execFunbind p s = .next (s.raise cPort 0) := by
  refine congrArg Host.Outcome.next ((State.mslot_plain _ hn rfl hc).trans ((if_neg hb).trans (if_neg ?_)))
  simpa [drains, or_iff_not_imp_left] using hf

end

/-- Settles O29: each control word is refused or binds its port, and each port drains, is unbound, waits or is refused. -/
theorem feedPorts : Obligations.FeedPorts := by
  unfold Obligations.FeedPorts
  intro s p x e hn hx hc w mode tag aux desc header f unwritten
  have runs {o : Out} {a b : State} (h : o = .next a) (h' : a = b) : o = .next b := h'.symm ▸ h
  refine ⟨fun hb hf hm ht ha hr hd hfmt hmm => ?binds, fun hf h => (execFbind_open hn hx hc hf).1 h, execFbind_waits hn hx hc,
    execFbind_fails hn hx hc, fun hb => ⟨setsPort_of_eq (execFunbind_fill hn hc hb), ?notDrain⟩,
    fun hb hf hw he => setsPort_of_eq (runs (execFunbind_drains hn hc ⟨hb, hf⟩) (drained_goes hw he)),
    fun hb hf hw => ⟨runs (execFunbind_drains hn hc ⟨hb, hf⟩) (drained_fails hw),
      runs (execFdrain_drains hn hc ⟨hb, hf⟩) (drained_fails hw)⟩,
    fun hb hf hw he => runs (execFdrain_drains hn hc ⟨hb, hf⟩) (drained_goes hw he),
    fun hb hf hw he => ⟨runs (execFdrain_drains hn hc ⟨hb, hf⟩) (drained_waits hw he),
      runs (execFunbind_drains hn hc ⟨hb, hf⟩) (drained_waits hw he)⟩, fun h => ?unbound⟩
  case binds =>
    have accepted : ¬ bindRefused w header desc := by
      unfold bindRefused
      dsimp only
      rw [hd]
      split at ha <;> simp <;> omega
    exact setsPort_of_eq ((execFbind_open hn hx hc hf).2 hb accepted)
  case notDrain => exact execFdrain_refused hn hc (fun ⟨hb', _⟩ => by rw [hb] at hb'; cases hb')
  case unbound =>
    have idle : ¬ drains f := fun ⟨hb, hf⟩ => by
      rcases h with h | ⟨-, h⟩
      · rw [hb] at h; cases h
      · rw [hf] at h; cases h
    have unfilled : f.bind ≠ 1 := fun hb => by
      rcases h with h | ⟨h, -⟩ <;> rw [hb] at h <;> cases h
    exact ⟨execFdrain_refused hn hc idle, execFunbind_refused hn hc unfilled idle⟩

end Sys2Proof.Machine
end

section
/-!
PROOFS. Fences (R127, R143, R144).
-/

namespace Sys2Proof.Machine

open Sys2Proof.Claims

variable {s : State} {c st : BitVec 4} {e : CurbEntry} {scope : Nat}

theorem mem_earlierEntries : e ∈ s.earlierEntries ↔
    (∃ d < 4, e ∈ s.curbOf d) ∧ e.handle = s.ctx.handle ∧ s.beforeGroup e = true := by
  simp [State.earlierEntries, State.entriesOf, and_comm]

/-- The end of a fence: the first loss that it finds is reported (R127). -/
def State.reportLoss (s : State) : Option Loss → State
  | some l => s.raiseLoss l
  | none => s

/-- An access with untainted operands goes on where no SC access is on its way (R117, R119). -/
theorem State.mslot_free (go : State → State) (hc : s.src.ctaint = 0) (hsc : ∀ e ∈ s.earlierEntries, e.sc = false) :
    s.mslot 0 go = go s := by
  unfold State.mslot
  rw [hc, show (0 : Mask) ||| 0 = 0 from rfl, State.hold_zero, scPending_eq_false hsc]
  rfl

/-- A store of the sequencer from before its group is one that a fence of the scope waits for (R143). -/
def State.fenceWaits (s : State) (scope : Nat) : Bool :=
  (List.range 4).any (fun d => (s.curbOf d).any (fun e =>
    e.handle = s.ctx.handle && s.beforeGroup e && s.entryCovered scope s.ctx.cdie.toNat d e))

section
variable (hc : s.src.ctaint = 0) (hsc : ∀ e ∈ s.earlierEntries, e.sc = false)
include hc hsc

/-! ### `sfence` -/

theorem execSfence_waits (h : ∃ e ∈ s.earlierEntries, e.stream = st) : execSfence st s = .next (s.stall .fence) := by
  have waits : s.earlierEntries.any (fun e => e.stream = st) = true := by simpa using h
  exact congrArg Host.Outcome.next ((State.mslot_free _ hc hsc).trans (if_pos waits))

theorem execSfence_passes (h : ∀ e ∈ s.earlierEntries, e.stream ≠ st) :
    execSfence st s = .next (s.reportLoss (s.ctx.losses.find? (fun l => l.stream = st))) := by
  have passes : s.earlierEntries.any (fun e => e.stream = st) = false := by simpa using h
  exact congrArg Host.Outcome.next ((State.mslot_free _ hc hsc).trans
    ((if_neg (Bool.eq_false_iff.mp passes)).trans (by unfold State.reportLoss; rfl)))

/-! ### `fence` -/

/-- Without tags a fence waits for stores, then reports the first loss of its scope (R127, R143). -/
theorem execFence_untagged (ht : s.ctx.tags = Vector.replicate 16 none) (hh : s.ctx.held = none) :
    execFence c s = .next (if s.fenceWaits c.toNat then s.stall .fence
      else s.reportLoss (s.ctx.losses.find? (fun l => l.dests.any (s.covers c.toNat s.ctx.cdie.toNat)))) := by
  have untagged (i : Nat) : s.ctx.tags[i]?.getD none = none := by
    rw [ht, Vector.getElem?_replicate]
    split <;> rfl
  have noTag : s.ctx.tags.toList.filterMap id = [] := by rw [ht]; rfl
  have noVoid {f : Nat → TagEntry → Option (Nat × W64)} :
      (List.range 16).findSome? (fun i => (s.ctx.tags[i]?.getD none).bind (f i)) = none := by
    simp [untagged]
  unfold execFence
  rw [State.heldFirst_none _ hh, State.mslot_free _ hc hsc, State.fenceTo]
  dsimp only
  rw [noVoid, noTag]
  unfold State.reportLoss
  rfl

theorem execFence_waits (ht : s.ctx.tags = Vector.replicate 16 none) (hh : s.ctx.held = none) (h : s.fenceWaits c.toNat = true) :
    execFence c s = .next (s.stall .fence) := by
  rw [execFence_untagged hc hsc ht hh, if_pos h]

theorem execFence_passes (ht : s.ctx.tags = Vector.replicate 16 none) (hh : s.ctx.held = none) (h : s.earlierEntries = []) :
    execFence c s =
      .next (s.reportLoss (s.ctx.losses.find? (fun l => l.dests.any (s.covers c.toNat s.ctx.cdie.toNat)))) := by
  have noneWaits : ¬ s.fenceWaits c.toNat = true := by
    simp only [State.fenceWaits, List.any_eq_true, List.mem_range, Bool.and_eq_true, decide_eq_true_eq]
    rintro ⟨d, hd, e, mem, own, -⟩
    exact List.not_mem_nil (h ▸ mem_earlierEntries.mpr ⟨⟨d, hd, mem⟩, own⟩)
  rw [execFence_untagged hc hsc ht hh, if_neg noneWaits]

end

theorem fenceWaits_of_covered (he : e ∈ s.earlierEntries) (hc : ∀ d, s.entryCovered scope s.ctx.cdie.toNat d e = true) :
    s.fenceWaits scope = true := by
  simp only [State.fenceWaits, List.any_eq_true, List.mem_range, Bool.and_eq_true, decide_eq_true_eq]
  obtain ⟨⟨d, hd, mem⟩, own⟩ := mem_earlierEntries.mp he
  exact ⟨d, hd, e, mem, own, hc d⟩

/-! ### The widest scope -/

/-- The widest fence waits for an entry with a part on its way. -/
theorem entryCovered_pending {die d : Nat} (hg : e.group = none) (hp : ∃ p ∈ e.parts, p.pending = true) :
    s.entryCovered 4 die d e = true := by
  obtain ⟨p, mem, pending⟩ := hp
  have covered : s.partCovered 4 die d e p = true := by
    rw [State.partCovered, pending, Bool.true_and]
    split
    · split <;> rfl
    · rfl
  rw [State.entryCovered, hg]
  exact List.any_eq_true.mpr ⟨p, mem, covered⟩

/-- The widest fence waits for every multicast entry, whose homes beyond this package it covers. -/
theorem entryCovered_multicast {die d : Nat} (hg : e.group.isSome = true) : s.entryCovered 4 die d e = true := by
  obtain ⟨g, hg⟩ := Option.isSome_iff_exists.mp hg
  rw [State.entryCovered, hg]
  exact List.any_eq_true.mpr ⟨_, List.mem_append_right _ (List.mem_singleton_self _), rfl⟩

/-- Settles O30: what a fence waits for is an entry of its sequencer in some Curb, then the first loss is reported. -/
theorem fences : Obligations.Fences := by
  unfold Obligations.Fences
  intro s c st l e err hc hsc
  refine ⟨fun hn hl hh => ⟨?fence, ?sfence⟩, execSfence_waits hc hsc, fun other hl => ?loss,
    fun ht hh => ⟨fun he hg hp => ?part, fun he hg => ?multicast, fun he hl hd => ?report⟩,
    fun hh => congrArg Host.Outcome.next (State.heldFirst_some _ hh)⟩
  case fence =>
    exact (execFence_passes hc hsc hn.2.2 hh (earlierEntries_of_noStores hn)).trans (by rw [hl]; rfl)
  case sfence =>
    exact (execSfence_passes hc hsc (by simp [earlierEntries_of_noStores hn])).trans (by rw [hl]; rfl)
  case loss => exact (execSfence_passes hc hsc other).trans (by rw [hl]; rfl)
  case part => exact execFence_waits hc hsc ht hh (fenceWaits_of_covered he fun _ => entryCovered_pending hg hp)
  case multicast => exact execFence_waits hc hsc ht hh (fenceWaits_of_covered he fun _ => entryCovered_multicast hg)
  case report =>
    have covered : l.dests.any (s.covers (4 : BitVec 4).toNat s.ctx.cdie.toNat) = true := by
      obtain ⟨x, xs, dests⟩ := List.exists_cons_of_ne_nil hd
      rw [dests]
      rfl
    have found : s.ctx.losses.find? (fun l => l.dests.any (s.covers (4 : BitVec 4).toNat s.ctx.cdie.toNat)) = some l := by
      rw [List.eq_cons_of_mem_head? hl]
      exact List.find?_cons_of_pos covered
    exact (execFence_passes hc hsc ht hh he).trans (by rw [found]; rfl)

end Sys2Proof.Machine
end

section
/-!
PROOFS. Vector operands and results (R23, R148 to R153): what any list of source codes reads and pops, where a result goes, and
what a merging form delivers.
-/

namespace Sys2Proof.Machine

open Sys2Proof.Claims

/-! ### Sources -/

section
variable {s t : State} {cs : List (BitVec 6)} {d : BitVec 6} {r : VReg}

theorem popped_named {p : Nat} (h : ∃ c ∈ cs, c.toNat = 56 + p) :
    popped s cs p = { s.ctx.port p with entries := (s.ctx.port p).entries.drop 1 } :=
  if_pos (by simpa using h)

theorem popped_unnamed {p : Nat} (h : ∀ c ∈ cs, c.toNat ≠ 56 + p) : popped s cs p = s.ctx.port p :=
  if_neg (by simpa using h)

/-- One more code is popped where it is a port not named before. -/
theorem State.popCodes_concat (s : State) (cs : List (BitVec 6)) (c : BitVec 6) : s.popCodes (cs ++ [c]) =
    if c ∉ cs ∧ 56 ≤ c.toNat then (s.popCodes cs).modFeed (c.toNat - 56) (fun f => { f with entries := f.entries.drop 1 })
    else s.popCodes cs := by
  have added : ([c].removeAll cs).eraseDups.filter (fun c => decide (56 ≤ c.toNat)) =
      if c ∉ cs ∧ 56 ≤ c.toNat then [c] else [] := by
    by_cases mem : c ∈ cs
    · simp [List.removeAll, mem]
    · simp [List.removeAll, List.eraseDups_cons, List.filter_singleton, mem]
  unfold State.popCodes
  rw [List.eraseDups_append, List.filter_append, List.foldl_append, added]
  split <;> rfl

/-- The ports that the codes name are popped once each (R23). -/
theorem State.popCodes_all (s : State) (cs : List (BitVec 6)) : Popped s cs (s.popCodes cs) := by
  induction cs using List.reverseRecOn with
  | nil => exact .refl s
  | append_singleton cs c ih =>
    obtain ⟨ps, e, port⟩ := ih
    rw [State.popCodes_concat]
    split
    next fresh =>
      obtain ⟨mem, hc⟩ := fresh
      refine ⟨_, by rw [e]; rfl, fun p hp => ?_⟩
      rw [State.port_modFeed _ (by omega)]
      split
      next at' =>
        have named : c.toNat = 56 + p := by omega
        have before : ∀ c' ∈ cs, c'.toNat ≠ 56 + p :=
          fun c' hc' e' => mem (BitVec.eq_of_toNat_eq (e'.trans named.symm) ▸ hc')
        rw [← at', port p hp, popped_unnamed before, popped_named ⟨c, by simp, named⟩]
      next other =>
        rw [port p hp, popped, popped, List.any_append]
        simp [show c.toNat ≠ 56 + p by omega]
    next known =>
      refine ⟨ps, e, fun p hp => (port p hp).trans ?_⟩
      have seen (named : c.toNat = 56 + p) : ∃ c ∈ cs, c.toNat = 56 + p :=
        ⟨c, by_contra fun mem => known ⟨mem, by omega⟩, named⟩
      simp only [popped, List.any_append, Bool.or_eq_true, List.any_eq_true, decide_eq_true_eq, List.mem_singleton, exists_eq_left,
        or_iff_left_of_imp seen]

theorem readCodes_readable {q : Seqr} (h : ∀ c ∈ cs, readable q c) : readCodes q cs = .ok (cs.map (source q)) := by
  induction cs with
  | nil => rfl
  | cons c cs ih =>
    obtain ⟨hc, hcs⟩ := List.forall_mem_cons.mp h
    rw [readCodes, readCode_readable hc, ih hcs]
    rfl

/-- Readable codes are read and their ports popped (R23, R148). -/
theorem State.withCodes_all {go : List VReg → State → State} (h : ∀ c ∈ cs, readable s.src c) :
    s.withCodes cs go = go (cs.map (source s.src)) (s.popCodes cs) := by
  rw [State.withCodes, readCodes_readable h]

theorem Popped.rv (h : Popped s cs t) (n : Nat) : t.src.rv n = s.src.rv n := by
  obtain ⟨ps, rfl, -⟩ := h
  unfold State.src State.aside
  cases s.issue.pre <;> rfl

theorem Popped.vrot (h : Popped s cs t) : t.src.vrot = s.src.vrot := by
  obtain ⟨ps, rfl, -⟩ := h
  unfold State.src State.aside
  cases s.issue.pre <;> rfl

theorem Popped.seedNow (h : Popped s cs t) : t.seedNow = s.ctx.seed := by
  obtain ⟨ps, rfl, -⟩ := h
  rfl

/-- A port that takes a result is none that the codes pop. -/
theorem Popped.port_taking (h : Popped s cs t) (hr : ∀ c ∈ cs, readable s.src c) (hd : 56 ≤ d.toNat)
    (ht : takes s.src d r.tag r.aux r.taint) : t.src.port (d.toNat - 56) = s.src.port (d.toNat - 56) := by
  have drain : (s.src.port (d.toNat - 56)).bind = 2 := (ht.resolve_left (Nat.not_lt.mpr hd)).1
  have other : ∀ c ∈ cs, c.toNat ≠ 56 + (d.toNat - 56) := fun c hc e => by
    have fill := ((hr c hc).resolve_left (by omega)).1
    rw [e, Nat.add_sub_cancel_left, drain] at fill
    exact absurd fill (by decide)
  obtain ⟨ps, rfl, port⟩ := h
  have same := (port (d.toNat - 56) (by omega)).trans (popped_unnamed other)
  revert same
  unfold State.src State.aside
  cases s.issue.pre
  · exact id
  · exact fun _ => rfl

end

/-! ### Destinations -/

section
variable {s t : State} {cs : List (BitVec 6)} {d : BitVec 6} {r : VReg}

/-- A drain port that takes a result of whatever format has it pushed (R23, R141, R149). -/
theorem State.pushPort_result (hd : 56 ≤ d.toNat) (h : takes s.src d r.tag r.aux r.taint) :
    s.pushPort (d.toNat - 56) r = s.modFeed (d.toNat - 56) (fun now => pushed s now (d.toNat - 56) r.val) := by
  obtain ⟨bound, live, format, untainted, few, room⟩ := h.resolve_left (Nat.not_lt.mpr hd)
  unfold State.pushPort
  dsimp only
  rw [if_neg (by simp [bound, live]), if_neg (by simpa [or_iff_not_imp_left] using format), untainted, State.hold_zero]
  split
  next e => rw [e] at room; exact room.elim
  next w e =>
    rw [e] at room
    obtain ⟨whole, fits⟩ := room
    rw [whole]
    dsimp only
    rw [if_neg (Nat.not_lt.mpr fits), if_neg (Nat.not_le.mpr few)]
    rfl

/-- The state once a vector computation has raised flags and drawn (R50, R153). -/
def State.flagged (s : State) (fl : BitVec 7) (seed : W32) : State := { s with ctx := { s.ctx with seed := seed } }.flag fl

theorem State.flagged_none (s : State) : s.flagged 0 s.ctx.seed = s := s.flag_none

theorem State.flagged_aside (s : State) (ps : Vector FeedPort 8) (fl : BitVec 7) (seed : W32) :
    (s.aside s.issue ps s.ctx.nextSeq).flagged fl seed = { s with
      ctx := { s.ctx with ports := ps, fstat := s.ctx.fstat ||| fl.zeroExtend 32, seed := seed }
      issue := { s.issue with raised := s.issue.raised ||| fl } } := rfl

theorem State.flagged_port (s : State) (fl : BitVec 7) (seed : W32) (p : Nat) : (s.flagged fl seed).src.port p = s.src.port p := by
  unfold State.src State.flagged State.flag
  cases s.issue.pre <;> rfl

theorem State.flagged_vrot (s : State) (fl : BitVec 7) (seed : W32) : (s.flagged fl seed).src.vrot = s.src.vrot := by
  unfold State.src State.flagged State.flag
  cases s.issue.pre <;> rfl

/-- Once the sources are popped, the flags and the draws are counted and the result goes to its register or its port. -/
theorem Popped.delivers (h : Popped s cs t) (hr : ∀ c ∈ cs, readable s.src c) (ht : takes s.src d r.tag r.aux r.taint)
    (fl : BitVec 7) (seed : W32) : delivers s cs d r fl seed (.next ((t.flagged fl seed).writeCode d r)) := by
  have vrot : (t.flagged fl seed).src.vrot = s.src.vrot := (t.flagged_vrot fl seed).trans h.vrot
  by_cases hd : d.toNat < 56
  · obtain ⟨ps, rfl, port⟩ := h
    refine ⟨_, congrArg Host.Outcome.next (if_pos hd), fun n _ => ?_, fun p hp => ?_, ?_⟩
    · rw [State.v_wv _ _ _ hd, vrot]
      exact if_congr (and_iff_right hd).symm rfl rfl
    · rw [if_neg (by omega)]
      exact port p hp
    · rw [State.flagged_aside]
      rfl
  · have hd' : 56 ≤ d.toNat := Nat.not_lt.mp hd
    have same : (t.flagged fl seed).src.port (d.toNat - 56) = s.src.port (d.toNat - 56) :=
      (t.flagged_port fl seed _).trans (h.port_taking hr hd' ht)
    have taking : takes (t.flagged fl seed).src d r.tag r.aux r.taint := by
      unfold takes
      rw [same]
      exact ht
    obtain ⟨ps, rfl, port⟩ := h
    refine ⟨_, congrArg Host.Outcome.next ((if_neg hd).trans (State.pushPort_result hd' taking)), fun n _ => ?_, fun p hp => ?_, ?_⟩
    · exact (if_neg fun both => hd both.1).symm
    · have now : ((s.aside s.issue ps s.ctx.nextSeq).flagged fl seed).ctx.port p = popped s cs p := port p hp
      rw [State.port_modFeed _ (by omega)]
      by_cases e : p = d.toNat - 56
      · subst e
        rw [if_pos rfl, if_pos (by omega), now, pushed, pushed, same]
      · rw [if_neg e, if_neg (by omega), now]
    · rw [State.flagged_aside]
      rfl

/-! ### Merging forms -/

/-- What a merging form sees as the old destination: zero where that is a port. -/
def oldDest (q : Seqr) (d : BitVec 6) : VReg := if d.toNat < 56 then q.rv d.toNat else .zero

/-- The lanes that a merging form leaves: new ones where active, else the old (R150). -/
def mergedUnder (s : State) (d : BitVec 6) (k : BitVec 3) (new : Vec) : Vec :=
  if k = 0 then new else mergeLanes (s.rk k).val new (oldDest s.src d).val

theorem vectorMask_eq {k : BitVec 3} {reads : Bool} (hd : (reads || decide (k ≠ 0)) = true → d.toNat < 56) :
    ((cs.map (source s.src)).foldl (fun m r => m ||| r.taint) (s.rk k).taint |||
      if (reads || decide (k ≠ 0)) = true then (oldDest s.src d).taint else 0) = vectorMask s cs d k reads := by
  unfold vectorMask
  rw [List.foldl_map, List.foldl_map]
  refine congrArg _ ?_
  split
  next h => rw [oldDest, if_pos (hd h)]
  next => rfl

/-- A merging form whose operands have their tags delivers its merged lanes (R150 to R152). -/
theorem State.vform_delivers {k : BitVec 3} {reads : Bool} {tag : BitVec 4} {aux : BitVec 3} {check : List VReg → VReg → Bool}
    {resTag : List VReg → BitVec 4 × BitVec 3} {compute : List VReg → Vec → W64 → W32 → VOut} {o : VOut}
    (h : operands s cs d k reads tag aux) (hcheck : check (cs.map (source s.src)) (oldDest s.src d) = true)
    (htag : resTag (cs.map (source s.src)) = (tag, aux))
    (ho : compute (cs.map (source s.src)) (oldDest s.src d).val (s.rk k).val s.ctx.seed = o) (htrap : o.trap = false) :
    Claims.delivers s cs d { val := mergedUnder s d k o.val, tag := tag, aux := aux, taint := vectorMask s cs d k reads } o.flags o.seed
      (.next (s.vform d k cs reads check resTag compute)) := by
  obtain ⟨hr, ht, hd, hold⟩ := h
  have popped := s.popCodes_all cs
  have register : (reads || decide (k ≠ 0)) = true → d.toNat < 56 := fun h => hd (by simpa using h)
  have old : (if d.toNat < 56 then (s.popCodes cs).src.rv d.toNat else VReg.zero) = oldDest s.src d := by rw [popped.rv]; rfl
  have format (hk : k ≠ 0) : (oldDest s.src d).tag = tag ∧ (oldDest s.src d).aux = aux := by
    rw [oldDest, if_pos (hd (.inr hk))]
    exact hold hk
  have run : s.vform d k cs reads check resTag compute = ((s.popCodes cs).flagged o.flags o.seed).writeCode d
      { val := mergedUnder s d k o.val, tag := tag, aux := aux, taint := vectorMask s cs d k reads } := by
    unfold State.vform
    dsimp only
    rw [if_neg (by simpa using register), State.withCodes_all hr, old, htag, if_neg (by simp [hcheck]),
      if_neg (by simpa using format), popped.rk, popped.seedNow, ho, vectorMask_eq register]
    exact if_neg (Bool.eq_false_iff.mp htrap)
  exact run ▸ popped.delivers hr ht o.flags o.seed

theorem lane_ofLanes (f : Nat → W32) {l : Nat} (hl : l < 64) : lane (ofLanes f) l = f l := extractLsb'_ofLanes f hl

/-- An active lane of what a merging form leaves is new, another lane is the old one (R150). -/
theorem lane_mergedUnder {k : BitVec 3} {new : Vec} {reads : Bool} {tag : BitVec 4} {aux : BitVec 3}
    (h : operands s cs d k reads tag aux) {l : Nat} (hl : l < 64) :
    lane (mergedUnder s d k new) l = if (s.rk k).val.getLsbD l then lane new l else lane (s.src.rv d.toNat).val l := by
  obtain ⟨-, -, register, -⟩ := h
  by_cases hk : k = 0
  · have active : (s.rk 0).val.getLsbD l = true := BitVec.getLsbD_allOnes.trans (decide_eq_true hl)
    rw [mergedUnder, if_pos hk, hk, if_pos active]
  · rw [mergedUnder, if_neg hk, oldDest, if_pos (register (.inr hk))]
    exact lane_ofLanes _ hl

end

end Sys2Proof.Machine
end

section
/-!
PROOFS. Integer lane arithmetic (R160): elements of 32, 16 and 8 bits, each whole in its lane.
-/

namespace Sys2Proof.Machine

open Sys2Proof.Claims

/-! ### Integer elements -/

section
variable {w : Nat}

/-- The first bit of element e in its lane. -/
theorem mul_mod_lane (hw : w ∣ 32) (e : Nat) : w * e % 32 = w * (e % (32 / w)) := by
  rw [← Nat.mul_mod_mul_left, Nat.mul_div_cancel' hw]

theorem mod_perLane_lt (hw : w ∣ 32) (e : Nat) : e % (32 / w) < 32 / w :=
  Nat.mod_lt _ (Nat.div_pos (Nat.le_of_dvd (by decide) hw) (Nat.pos_of_dvd_of_pos hw (by decide)))

/-- Element e lies whole in lane w × e / 32 (R41). -/
theorem elem_eq_extract_lane (hw : w ∣ 32) (v : Vec) (e : Nat) :
    elem w v e = (lane v (w * e / 32)).extractLsb' (w * (e % (32 / w))) w := by
  have fits : w * (e % (32 / w)) + w ≤ 32 := calc
    w * (e % (32 / w)) + w = w * (e % (32 / w) + 1) := (Nat.mul_succ _ _).symm
    _ ≤ w * (32 / w) := Nat.mul_le_mul_left _ (mod_perLane_lt hw e)
    _ = 32 := Nat.mul_div_cancel' hw
  have place : 32 * (w * e / 32) + w * (e % (32 / w)) = w * e := by rw [← mul_mod_lane hw, Nat.div_add_mod]
  apply BitVec.eq_of_getLsbD_eq
  intro i hi
  rw [elem, lane, BitVec.getLsbD_extractLsb', BitVec.getLsbD_extractLsb', BitVec.getLsbD_extractLsb', ← Nat.add_assoc, place,
    decide_eq_true (show w * (e % (32 / w)) + i < 32 by omega), Bool.true_and]

theorem extract_laneElems (hw : w ∣ 32) (f : BitVec w → BitVec w → BitVec w) (a b : W32) {j : Nat} (hj : j < 32 / w) :
    (laneElems w f a b).extractLsb' (w * j) w = f (a.extractLsb' (w * j) w) (b.extractLsb' (w * j) w) := by
  apply BitVec.eq_of_toNat_eq
  rw [BitVec.extractLsb'_toNat, Nat.shiftRight_eq_div_pow, laneElems, toNat_ofNat_packNat (fun i => BitVec.isLt _) (Nat.mul_div_cancel' hw),
    packNat_digit (fun i => BitVec.isLt _) hj]

/-- The elements of lanes computed element by element. -/
theorem elem_laneElems (hw : w ∣ 32) (f : BitVec w → BitVec w → BitVec w) (x y : Vec) {e : Nat} (he : w * e / 32 < 64) :
    elem w (ofLanes (fun l => laneElems w f (lane x l) (lane y l))) e = f (elem w x e) (elem w y e) := by
  rw [elem_eq_extract_lane hw, lane_ofLanes _ he, extract_laneElems hw f _ _ (mod_perLane_lt hw e), ← elem_eq_extract_lane hw,
    ← elem_eq_extract_lane hw]

theorem intElem_add (x y : BitVec w) : intElem 0 w x y = BitVec.ofInt w (x.toInt + y.toInt) := by
  rw [BitVec.ofInt_add, BitVec.ofInt_toInt, BitVec.ofInt_toInt]
  rfl

theorem intElem_sub (x y : BitVec w) : intElem 1 w x y = BitVec.ofInt w (x.toInt - y.toInt) := by
  apply BitVec.eq_of_toInt_eq
  rw [BitVec.toInt_ofInt]
  exact BitVec.toInt_sub

theorem intElem_mul (x y : BitVec w) : intElem 2 w x y = BitVec.ofInt w (x.toInt * y.toInt) := by
  rw [BitVec.ofInt_mul, BitVec.ofInt_toInt, BitVec.ofInt_toInt]
  rfl

theorem intElem_shl (x y : BitVec w) : intElem 3 w x y = BitVec.ofNat w (x.toNat * 2 ^ (y.toNat % w)) := by
  apply BitVec.eq_of_toNat_eq
  rw [BitVec.toNat_ofNat, ← Nat.shiftLeft_eq]
  exact BitVec.toNat_shiftLeft

theorem intElem_shr (x y : BitVec w) : intElem 4 w x y = BitVec.ofNat w (x.toNat / 2 ^ (y.toNat % w)) := by
  apply BitVec.eq_of_toNat_eq
  rw [BitVec.toNat_ofNat, Nat.mod_eq_of_lt (lt_of_le_of_lt (Nat.div_le_self _ _) x.isLt), ← Nat.shiftRight_eq_div_pow]
  exact BitVec.toNat_ushiftRight x _

theorem intElem_sra (x y : BitVec w) : intElem 5 w x y = BitVec.ofInt w (x.toInt / 2 ^ (y.toNat % w)) := by
  change x.sshiftRight (y.toNat % w) = _
  rw [BitVec.sshiftRight, Int.shiftRight_eq_div_pow]
  norm_cast

/-- The integer form `fn` computes each element of the active lanes as `f` says, where `f` is that form on every pair of elements (R160). -/
theorem State.vint_elementwise {s : State} {d a b : BitVec 6} {k : BitVec 3} {tag : BitVec 4} {fn : Nat} (hw : w ∣ 32)
    {f : BitVec w → BitVec w → BitVec w} (hf : ∀ x y, intElem fn w x y = f x y) :
    elementwise s d a b k tag w f (.next (s.vint tag w fn d a b k)) := by
  intro h ha hb
  have tags : allTag tag ([a, b].map (source s.src)) = true := by simp [allTag, ha, hb]
  refine ⟨_, State.vform_delivers h tags rfl rfl rfl, fun e he => ?_⟩
  have hl : w * e / 32 < 64 := by
    have below : w * e < 2048 := (Nat.lt_div_iff_mul_lt' (hw.trans (by decide)) e).mp he
    omega
  have new := elem_laneElems hw (intElem fn w) (source s.src a).val (source s.src b).val hl
  rw [hf] at new
  rw [elem_eq_extract_lane hw, lane_mergedUnder h hl, apply_ite (BitVec.extractLsb' _ w), ← elem_eq_extract_lane hw,
    ← elem_eq_extract_lane hw, ← new]
  rfl

end

/-- Settles O33: each form is a merging form of its elements, which the lemmas above give as numbers. -/
theorem integerLanes : Obligations.IntegerLanes := by
  unfold Obligations.IntegerLanes
  intro s d a b k add sub mul shl shr sra r
  have forms (tag : BitVec 4) (w : Nat) (hw : w ∣ 32) :
      elementwise s d a b k tag w (add w) (.next (s.vint tag w 0 d a b k)) ∧
      elementwise s d a b k tag w (sub w) (.next (s.vint tag w 1 d a b k)) ∧
      elementwise s d a b k tag w (mul w) (.next (s.vint tag w 2 d a b k)) ∧
      elementwise s d a b k tag w (shl w) (.next (s.vint tag w 3 d a b k)) ∧
      elementwise s d a b k tag w (shr w) (.next (s.vint tag w 4 d a b k)) ∧
      elementwise s d a b k tag w (sra w) (.next (s.vint tag w 5 d a b k)) :=
    ⟨State.vint_elementwise hw intElem_add, State.vint_elementwise hw intElem_sub, State.vint_elementwise hw intElem_mul,
      State.vint_elementwise hw intElem_shl, State.vint_elementwise hw intElem_shr, State.vint_elementwise hw intElem_sra⟩
  obtain ⟨add5, sub5, mul5, shl5, shr5, sra5⟩ := forms 5 32 (by decide)
  obtain ⟨add9, sub9, mul9, shl9, shr9, sra9⟩ := forms 9 32 (by decide)
  obtain ⟨add6, sub6, mul6, shl6, shr6, sra6⟩ := forms 6 16 (by decide)
  obtain ⟨add7, sub7, mul7, shl7, shr7, sra7⟩ := forms 7 8 (by decide)
  exact ⟨add5, sub5, mul5, shl5, shr5, sra5, add9, sub9, mul9, shl9, shr9, sra9, add6, sub6, mul6, shl6, shr6, sra6,
    add7, sub7, mul7, shl7, shr7, sra7⟩

end Sys2Proof.Machine
end

section
/-!
PROOFS. Lane moves, bitwise forms, selection and retagging (R159, R161, R167, R168, R170).
-/

namespace Sys2Proof.Machine

open Sys2Proof.Claims

/-! ### Merging forms that move bits -/

section
variable {s : State} {c d : BitVec 6} {cs : List (BitVec 6)} {k : BitVec 3}

theorem tagValid_of {r : VReg} (h : ¬ (r.tag = 8 ∧ r.aux = 7)) : tagValid r = true := by
  simpa [tagValid, or_iff_not_imp_left] using h

/-- A form that moves bits keeps the tag of its first source and moves what it computes (R161, R167). -/
theorem State.vbits_lanesMoved {check : List VReg → Bool} {f : List VReg → Nat → W32} {g : Nat → W32}
    (hcheck : check ((c :: cs).map (source s.src)) = true) (hf : ∀ l < 64, f ((c :: cs).map (source s.src)) l = g l) :
    lanesMoved s (c :: cs) d k g (.next (s.vbits d (c :: cs) k check f)) := by
  intro h valid
  have tags : ((c :: cs).map (source s.src)).all tagValid = true := by
    rw [List.all_map]
    exact List.all_eq_true.mpr fun a ha => tagValid_of (valid a ha)
  refine ⟨_, State.vform_delivers h ?_ rfl rfl rfl, fun l hl => ?_⟩
  · rw [tags, hcheck]
    rfl
  · have new : lane (ofLanes (f ((c :: cs).map (source s.src)))) l = g l := (lane_ofLanes _ hl).trans (hf l hl)
    exact new ▸ lane_mergedUnder h hl

end

/-! ### Selection, single lanes and retagging -/

section
variable {s t : State} {cs : List (BitVec 6)} {d a b : BitVec 6} {k : BitVec 3} {r : VReg}

/-- A result without flags or draws, once the sources are popped. -/
theorem Popped.delivers_quietly (h : Popped s cs t) (hr : ∀ c ∈ cs, readable s.src c) (ht : takes s.src d r.tag r.aux r.taint) :
    Claims.delivers s cs d r 0 s.ctx.seed (.next (t.writeCode d r)) := by
  have drawn : t.ctx.seed = s.ctx.seed := h.seedNow
  have same : t.flagged 0 s.ctx.seed = t := drawn ▸ t.flagged_none
  exact same ▸ h.delivers hr ht 0 s.ctx.seed

/-- `vsel` takes each lane from one of two sources of the same tag (R159). -/
theorem execVsel_delivers (ha : readable s.src a) (hb : readable s.src b) :
    let x := source s.src a
    let y := source s.src b
    let p := s.rk k
    let r : VReg := { x with val := mergeLanes p.val x.val y.val, taint := x.taint ||| y.taint ||| p.taint }
    x.tag = y.tag ∧ x.aux = y.aux → ¬ (x.tag = 8 ∧ x.aux = 7) → takes s.src d r.tag r.aux r.taint →
    Claims.delivers s [a, b] d r 0 s.ctx.seed (execVsel d a b k s) := by
  intro x y p r ⟨tag, aux⟩ valid ht
  have hr : ∀ c ∈ [a, b], readable s.src c := by simp [ha, hb]
  have tags : (sameTag [x, y] && [x, y].all tagValid) = true := by
    have hy : tagValid y = true := tagValid_of (tag ▸ aux ▸ valid)
    simp [sameTag, srcAt, tag, aux, tagValid_of valid, hy]
  have run : execVsel d a b k s = .next ((s.popCodes [a, b]).writeCode d r) :=
    congrArg Host.Outcome.next ((State.withCodes_all hr).trans (if_neg (by simpa using tags)))
  exact run ▸ (s.popCodes_all [a, b]).delivers_quietly hr ht

/-- `vext` of a source with a valid tag writes one of its lanes to g[d] (R168). -/
theorem execVext_writes {g : BitVec 5} (ha : readable s.src a)
    (valid : ¬ ((source s.src a).tag = 8 ∧ (source s.src a).aux = 7)) :
    execVext g a b s = .next ((s.popCodes [a]).wg g (lane (source s.src a).val b.toNat) (source s.src a).taint) :=
  congrArg Host.Outcome.next ((State.withCodes_readable ha).trans (if_neg (by simpa [srcAt] using tagValid_of valid)))

/-- `vins` replaces one lane of a register with a valid tag (R168). -/
theorem execVins_delivers {g : BitVec 5} (hd : d.toNat < 56) :
    let old := s.src.rv d.toNat
    let r : VReg :=
      { old with val := ofLanes (fun l => if l = b.toNat then (s.rg g).val else lane old.val l), taint := old.taint ||| (s.rg g).taint }
    ¬ (old.tag = 8 ∧ old.aux = 7) → Claims.delivers s [] d r 0 s.ctx.seed (execVins d g b s) := by
  intro old r valid
  have run : execVins d g b s = .next (s.writeCode d r) :=
    congrArg Host.Outcome.next ((if_neg (Nat.not_le.mpr hd)).trans
      ((if_neg (by simpa using tagValid_of valid)).trans (if_pos hd).symm))
  exact run ▸ (Popped.refl s).delivers_quietly (by simp) (.inl hd)

/-- `vtag` copies the bits and the mask under another tag (R170). -/
theorem execVtag_delivers {tag : BitVec 4} {aux : BitVec 3} (ha : readable s.src a)
    (ht : takes s.src d tag aux (source s.src a).taint) :
    Claims.delivers s [a] d { source s.src a with tag := tag, aux := aux } 0 s.ctx.seed (execVtag d a tag aux s) := by
  have hr : ∀ c ∈ [a], readable s.src c := by simp [ha]
  have run : execVtag d a tag aux s = .next ((s.popCodes [a]).writeCode d { source s.src a with tag := tag, aux := aux }) :=
    congrArg Host.Outcome.next (State.withCodes_all hr)
  exact run ▸ (s.popCodes_all [a]).delivers_quietly hr ht

end

/-- Settles O34: the lane moves are merging forms that keep the bits they move; the others write their result directly. -/
theorem laneMoves : Obligations.LaneMoves := by
  unfold Obligations.LaneMoves
  intro s d a b k g tag aux x y old p same idx
  refine ⟨State.vbits_lanesMoved rfl fun _ _ => rfl, State.vbits_lanesMoved rfl fun _ _ => rfl,
    State.vbits_lanesMoved rfl fun _ _ => rfl, State.vbits_lanesMoved rfl fun _ _ => rfl, State.vbits_lanesMoved rfl fun _ _ => rfl,
    fun hy => State.vbits_lanesMoved (by simpa [srcAt] using hy) fun _ _ => rfl, ?rotate, State.vbits_lanesMoved rfl fun _ _ => rfl,
    fun h => State.vbits_lanesMoved (by simpa [sameTag, srcAt] using h) fun l _ => ?zip, State.vbits_lanesMoved rfl fun l _ => ?unzip,
    fun hs ha hb valid ht => ?select, fun ha valid => ?extract, fun hd valid => ?insert, fun ha ht => execVtag_delivers ha ht⟩
  case rotate =>
    refine State.vbits_lanesMoved rfl fun l _ => ?_
    rw [← Nat.add_sub_assoc b.isLt.le]
    rfl
  case zip =>
    rcases Nat.mod_two_eq_zero_or_one l with e | e
    · rw [e]
      rfl
    · rw [e]
      rfl
  case unzip => exact apply_ite (lane x.val) _ _ _
  case select => exact ⟨_, execVsel_delivers ha hb hs valid ht, fun l hl => lane_ofLanes _ hl⟩
  case extract =>
    obtain ⟨ps, e, port⟩ := s.popCodes_all [a]
    refine ⟨_, execVext_writes ha valid, fun n => ?_, fun p hp => ?_, ?_⟩
    · rw [State.rg_wg, e]
      rfl
    · rw [State.wg_frame]
      exact port p hp
    · rw [State.wg_frame, e]
      rfl
  case insert => exact ⟨_, execVins_delivers hd valid, fun l hl => lane_ofLanes _ hl⟩

end Sys2Proof.Machine
end
